-- ==== Sys2Proof/Word.lean ====
section
/-!
DEFINITION. The word types of the machine.  A register is 32 bits (R81), a handle and the counter `cyc` are 64
(R56, R16), a program counter is an 80-bit virtual byte address (R39), and memory is made of bytes (R4).
-/

namespace Sys2Proof

/-- One byte. -/
abbrev Byte := BitVec 8
/-- One 32-bit register (R81). -/
abbrev Word := BitVec 32
/-- One 64-bit value: a handle, a pair, a counter. -/
abbrev DWord := BitVec 64
/-- One canonical instruction word (R186). -/
abbrev CWord := BitVec 96
/-- A virtual byte address (R39, R262). -/
abbrev Va := BitVec 80

end Sys2Proof
end

