-- ==== Sys2Proof/Machine/Bits.lean ====
section
/-!
DEFINITION. Bit fields, sign extension and little-endian bytes (R4, R5) on natural numbers; every field of a
register, a word or a record is read and placed through these.
-/

namespace Sys2Proof

/-- Bits `[lo+n-1 : lo]` of `x`. -/
def bits (x lo n : Nat) : Nat := (x >>> lo) % 2 ^ n

/-- Bit `i` of `x`, as 0 or 1. -/
def bitN (x i : Nat) : Nat := (x >>> i) % 2

/-- Bit `i` of `x`. -/
def bitB (x i : Nat) : Bool := x.testBit i

/-- 1 for true, 0 for false. -/
def b2n (b : Bool) : Nat := if b then 1 else 0

/-- `x` with bits `[lo+n-1 : lo]` replaced by the low `n` bits of `v`. -/
def setBits (x lo n v : Nat) : Nat :=
  (x >>> (lo + n)) <<< (lo + n) + (v % 2 ^ n) <<< lo + x % 2 ^ lo

/-- The signed reading of an `n`-bit number. -/
def signed (n x : Nat) : Int :=
  let r := x % 2 ^ n
  if 2 * r < 2 ^ n then (r : Int) else (r : Int) - (2 ^ n : Nat)

/-- The `n`-bit number congruent to `x` modulo `2^n`. -/
def wrap (n : Nat) (x : Int) : Nat := (x % ((2 ^ n : Nat) : Int)).toNat

/-- `x`, an `n`-bit number, sign-extended to `m` bits. -/
def sextTo (n m x : Nat) : Nat := wrap m (signed n x)

/-- `x` clamped into `[lo, hi]`. -/
def clampInt (lo hi x : Int) : Int := if x < lo then lo else if hi < x then hi else x

/-- `x` rounded up to a multiple of `m`. -/
def roundUp (x m : Nat) : Nat := (x + m - 1) / m * m

/-- `⌈x / m⌉`. -/
def ceilDiv (x m : Nat) : Nat := (x + m - 1) / m

/-- The `n` bytes of `x`, lowest first (R4). -/
def toLE : Nat → Nat → List Byte
  | 0, _ => []
  | n + 1, x => BitVec.ofNat 8 x :: toLE n (x / 256)

/-- The number whose bytes, lowest first, are the list (R4). -/
def ofLE : List Byte → Nat
  | [] => 0
  | b :: bs => b.toNat + 256 * ofLE bs

/-- Bytes `[off, off + n)` of a byte list, as a number; bytes beyond the end count as zero. -/
def leAt (bs : List Byte) (off n : Nat) : Nat := ofLE ((bs.drop off).take n)

/-- `n` zero bytes. -/
def zeros (n : Nat) : List Byte := List.replicate n 0

/-- The list cut or filled with zeros to `n` bytes. -/
def fitBytes (n : Nat) (bs : List Byte) : List Byte :=
  let t := bs.take n
  t ++ zeros (n - t.length)

/-- All bytes are zero. -/
def allZero (bs : List Byte) : Bool := bs.all (· == 0)

/-- The numbers of the set bits of `x` below `n`, ascending. -/
def setBitsOf (n x : Nat) : List Nat := (List.range n).filter (fun i => x.testBit i)

/-- The mask whose set bits are the members of the list. -/
def maskOf (ls : List Nat) : Nat := ls.foldl (fun m i => m ||| 1 <<< i) 0

/-- The lowest set bit of `x` below `n`. -/
def lowestBit (n x : Nat) : Option Nat := (List.range n).find? (fun i => x.testBit i)

/-- The number of set bits of `x` below `n`. -/
def popCount (n x : Nat) : Nat := (setBitsOf n x).length

/-- `x` with the bits of `y` removed, for masks of `n` bits. -/
def maskDiff (n x y : Nat) : Nat := x &&& (2 ^ n - 1 - y % 2 ^ n)

/-- ⌊log2 x⌋ for x > 0; 0 for 0. -/
def ilog2 (x : Nat) : Nat := Nat.log2 x

end Sys2Proof
end

