-- ==== Sys2Proof/Syntax.lean ====
section
/-!
DEFINITION. The abstract syntax: one constructor of `Instr` per row of the opcode table.  Rows that are
instructions carry the fields of the canonical word (R186) other than OP and FN, which the constructor itself
names; rows that are events of the device carry what the event is about (a core, a warp, a host frame ...).
-/

namespace Sys2Proof

/-- The fields of the canonical word (R186) other than OP and FN. -/
structure Fields where
  /-- STALL, W[15:12] (R195) -/
  stall : BitVec 4
  /-- GP, guard predicate, W[18:16] -/
  gp : BitVec 3
  /-- GN, guard negate, W[19] -/
  gn : Bool
  /-- D, destination operand code, W[27:20] -/
  d : BitVec 8
  /-- A, first source operand code, W[35:28] -/
  a : BitVec 8
  /-- B, second source operand code, W[43:36] -/
  b : BitVec 8
  /-- FS, format slot, W[46:44] -/
  fs : BitVec 3
  /-- SP, safe point, W[47] (R59) -/
  sp : Bool
  /-- ST, token set, W[50:48] (R88) -/
  st : BitVec 3
  /-- WM, wait mask, W[56:51] -/
  wm : BitVec 6
  /-- C, third source operand code, W[64:57] -/
  c : BitVec 8
  /-- Y, yield hint, W[65] -/
  y : Bool
  /-- IMM, W[93:66], laid out by R188 -/
  imm : BitVec 28
  deriving DecidableEq, Repr

/-- One UDP datagram as it reaches the host port (R378, R380); its bytes are to hold a mailbox frame. -/
structure Frame where
  /-- source IPv6 address and UDP port, as one number -/
  peer : Nat
  /-- destination IPv6 address (R379) -/
  dst : Nat
  /-- destination UDP port -/
  port : Nat
  /-- the packet carries extension headers -/
  ext : Bool
  /-- 802.1Q tags of its MAC frame -/
  tags : Nat
  /-- the bytes of the datagram: header, payload, CRC (R380) -/
  data : List Byte
  deriving DecidableEq, Repr

/-- The training of the host port, and what its duplicate address detection answers (R378, R379). -/
structure LinkUp where
  /-- lanes that train -/
  lanes : Nat
  /-- another interface holds the link-local address -/
  dup : Bool
  deriving DecidableEq, Repr

/-- A neighbour discovery packet, or an ICMPv6 echo request, at the host port (R378, R379). -/
structure Packet where
  /-- the address it asks for, or was sent to -/
  dst : Nat
  /-- it carries extension headers -/
  ext : Bool
  /-- bytes of its MAC frame -/
  size : Nat
  deriving DecidableEq, Repr

/-- What a transaction serves whose end-to-end CRC fails (R475, R476, R388); the event's number says which one of its kind. -/
inductive CrcTarget where
  /-- an access of the numbered warp of a workgroup -/
  | warp (wg : Nat)
  /-- the command at work on the numbered engine context -/
  | engine
  /-- a write-back of the dirty bytes of the numbered L1 line of a core -/
  | writeback (core : Nat)
  /-- a frame of the numbered session -/
  | mailbox
  deriving DecidableEq, Repr

/-- What another member of a collective group brings to one collective (R321). -/
structure CollPart where
  /-- rank of the member in GROUP -/
  rank : Nat
  /-- the members of the group in rank order, as that package has them (R389) -/
  members : List Nat
  /-- OP of its TCOLL -/
  op : Nat
  /-- its element count -/
  count : Nat
  /-- its source bytes, 4 per element -/
  data : List Byte
  deriving DecidableEq, Repr

/-- A request of another package that reaches this package's L2 (R387, R388). -/
inductive RemoteReq where
  /-- read of `n` bytes at physical address `pa` -/
  | read (src pa n : Nat)
  /-- write of bytes at `pa` -/
  | write (src pa : Nat) (data : List Byte)
  /-- integer atomic of R274 (`float` false) or of R275 -/
  | atom (src pa size aop : Nat) (float : Bool) (b c : Nat)
  deriving DecidableEq, Repr

/-- The end of the background translation of a QPF kernel (R406). -/
inductive QpfResult where
  /-- native bytes placed at NSECT, and the swap map, one offset per QPF word -/
  | done (code : List Byte) (swap : List Nat)
  /-- translation failed at this QPF byte offset (R467) -/
  | failed (off : Nat)
  deriving DecidableEq, Repr

/-- A soft error in a structure (R478). -/
inductive SoftErr where
  /-- corrected, in the structure of that kind and instance (R513) -/
  | corrected (kind inst : Nat)
  /-- uncorrectable, in the memory granule (64 bytes) at this physical address -/
  | memory (pa : Nat)
  /-- uncorrectable, in a register of a warp lane: stack position -/
  | register (wg warp lane pos : Nat)
  /-- uncorrectable, in a scratchpad word of a workgroup -/
  | scratch (wg off : Nat)
  /-- uncorrectable, in an accumulator entry of a core -/
  | accum (core entry : Nat)
  /-- an upset in the running native step of a core: its contribution at row `i`, column `j` comes out as `x` -/
  | step (core i j : Nat) (x : BitVec 32)
  deriving DecidableEq, Repr

/-- Every row of the opcode table. -/
inductive Instr where
  /-- NOP (R222). Does nothing beyond advancing the entry by R39, apart from delaying the entry through STALL or WM. -/
  | nop (f : Fields)
  /-- BRA (R223). Sends each active lane to the target bundle given by a signed displacement; inactive lanes take the next PC, and the entry splits. -/
  | bra (f : Fields)
  /-- BRX (R224). Sends each active lane to a section-relative target base read from a register, after the alignment and range checks; the entry splits by target. -/
  | brx (f : Fields)
  /-- CALL (R225). Performs the call of R52 to a direct target: checks for a spill, moves FP by the frame size, writes the link word to v63 and raises the call depth. -/
  | call (f : Fields)
  /-- CALLX (R225). Performs the call of R52 to an indirect target read from a register, with the checks of R224. -/
  | callx (f : Fields)
  /-- RET (R53). Returns each active lane through the link word in v63: checks for a fill, lowers FP and the depth, and jumps; sets that it leaves behind are orphaned. -/
  | ret (f : Fields)
  /-- EXIT (R226). Removes the active lanes for good, quits their rejoin sets, removes them from barrier counts and clears their reservations. -/
  | exit (f : Fields)
  /-- YIELD (R227). Lets the issuing entry and warp be passed over in the next issue cycle; it has no architectural effect. -/
  | yield (f : Fields)
  /-- SLEEP (R228). Parks the active lanes in the hold set with a wake cycle measured on cyc. -/
  | sleep (f : Fields)
  /-- PARTSET (R229). Sets the warp's partition tile width from the lowest active lane. -/
  | partset (f : Fields)
  /-- PARTGET (R229). Writes the current tile width to the destination. -/
  | partget (f : Fields)
  /-- RJOPEN (R66). Opens a rejoin set whose members are the active lanes, at the depth of the lowest active lane. -/
  | rjopen (f : Fields)
  /-- RJOPEN_MASK (R66). Opens a rejoin set whose members are the active lanes ANDed with a mask operand (MK = 1). -/
  | rjopenMask (f : Fields)
  /-- RJJOIN (R66). Adds the active lanes to an open set's membership. -/
  | rjjoin (f : Fields)
  /-- RJQUIT (R66). Removes the active lanes from a set and tries to release it. -/
  | rjquit (f : Fields)
  /-- RJWAIT (R66). Parks the active members of the set and releases every parked member once all members have arrived. -/
  | rjwait (f : Fields)
  /-- RJTEST (R66). Writes to a predicate whether the set would complete without the testing lanes. -/
  | rjtest (f : Fields)
  /-- RJMASK (R66). Writes the set's membership mask to the destination. -/
  | rjmask (f : Fields)
  /-- RJCLOSE (R66). Returns a set with no arrivals to its reset value. -/
  | rjclose (f : Fields)
  /-- ORPHANED_SET_TRAP (R456). In the warp's next issue cycle, the entry holding the lowest orphaning lane traps with class 0x05, reason 0x01. -/
  | orphanedSetTrap (wg warp : Nat)
  /-- IADD (R211). Integer add, with wrapping or saturation. -/
  | iadd (f : Fields)
  /-- ISUM3 (R211). Three-input integer add. -/
  | isum3 (f : Fields)
  /-- ISUB (R211). Integer subtract. -/
  | isub (f : Fields)
  /-- INEG (R211). Integer negate. -/
  | ineg (f : Fields)
  /-- IABS (R211). Integer absolute value. -/
  | iabs (f : Fields)
  /-- IMIN (R211). Integer minimum. -/
  | imin (f : Fields)
  /-- IMAX (R211). Integer maximum. -/
  | imax (f : Fields)
  /-- ISAT (R214). Clamps a value into a field of k bits. -/
  | isat (f : Fields)
  /-- ICMP (R212). Compares integers under a condition, optionally combines the result with a predicate, and writes the outcome. -/
  | icmp (f : Fields)
  /-- SEL (R211). Selects one of two sources by a predicate. -/
  | sel (f : Fields)
  /-- LEA (R213). Adds a shifted narrow operand to a base. -/
  | lea (f : Fields)
  /-- IMUL (R211). Integer multiply, keeping the low half. -/
  | imul (f : Fields)
  /-- IMULH (R211). Writes the high half of the exact integer product. -/
  | imulh (f : Fields)
  /-- IMAD (R211). Integer multiply-add. -/
  | imad (f : Fields)
  /-- IMADW (R215). Multiplies two 32-bit values and adds a 64-bit value, giving a 64-bit result. -/
  | imadw (f : Fields)
  /-- IDIV (R216). Variable-latency integer divide with defined results for borderline cases. -/
  | idiv (f : Fields)
  /-- IREM (R216). Variable-latency integer remainder. -/
  | irem (f : Fields)
  /-- AND (R217). Bitwise AND. -/
  | and (f : Fields)
  /-- OR (R217). Bitwise OR. -/
  | or (f : Fields)
  /-- XOR (R217). Bitwise XOR. -/
  | xor (f : Fields)
  /-- NOT (R217). Bitwise NOT. -/
  | not (f : Fields)
  /-- BLUT (R217). Three-input bitwise lookup through an 8-bit table. -/
  | blut (f : Fields)
  /-- PLUT (R219). Three-input predicate lookup through an 8-bit table. -/
  | plut (f : Fields)
  /-- PMOV_GET (R219). Packs the predicates p0 to p7 into a register. -/
  | pmovGet (f : Fields)
  /-- PMOV_SET (R219). Sets the masked predicates from the bits of a register. -/
  | pmovSet (f : Fields)
  /-- MOV (R218). Copies the source to the destination, converted by R208, without waiting on a handle. -/
  | mov (f : Fields)
  /-- MOVI (R218). Writes a sign-extended 28-bit immediate. -/
  | movi (f : Fields)
  /-- MOVK (R218). Replaces one 16-bit half-word of a value. -/
  | movk (f : Fields)
  /-- SHL (R220). Shift left. -/
  | shl (f : Fields)
  /-- SHR (R220). Logical shift right. -/
  | shr (f : Fields)
  /-- SAR (R220). Arithmetic shift right. -/
  | sar (f : Fields)
  /-- FSHL (R220). Funnel shift left over two registers. -/
  | fshl (f : Fields)
  /-- FSHR (R220). Funnel shift right over two registers. -/
  | fshr (f : Fields)
  /-- BFE (R221). Extracts a bit field, sign- or zero-extended. -/
  | bfe (f : Fields)
  /-- BFI (R221). Inserts a bit field. -/
  | bfi (f : Fields)
  /-- BREV (R220). Reverses the bit order. -/
  | brev (f : Fields)
  /-- POPC (R220). Counts the ones. -/
  | popc (f : Fields)
  /-- CLZ (R220). Counts the leading zeros. -/
  | clz (f : Fields)
  /-- CTZ (R220). Counts the trailing zeros. -/
  | ctz (f : Fields)
  /-- SEXT (R220). Sign-extends the low k bits. -/
  | sext (f : Fields)
  /-- ZEXT (R220). Zero-extends the low k bits. -/
  | zext (f : Fields)
  /-- FADD (R235). Adds format-slot elements and rounds once. -/
  | fadd (f : Fields)
  /-- FSUB (R235). Subtracts format-slot elements. -/
  | fsub (f : Fields)
  /-- FMUL (R235). Multiplies format-slot elements. -/
  | fmul (f : Fields)
  /-- FFMA (R235). Fused multiply-add with a single rounding. -/
  | ffma (f : Fields)
  /-- FMIN (R237). Minimum with NaN-avoiding semantics. -/
  | fmin (f : Fields)
  /-- FMAX (R237). Maximum with NaN-avoiding semantics. -/
  | fmax (f : Fields)
  /-- FCMP (R238). Compares elements and writes truth values. -/
  | fcmp (f : Fields)
  /-- FCLASS (R238). Tests each element's class against a mask. -/
  | fclass (f : Fields)
  /-- FRND (R239). Rounds each element to an integral value under a rounding mode. -/
  | frnd (f : Fields)
  /-- FSCALE (R235). Multiplies each element by a power of two. -/
  | fscale (f : Fields)
  /-- FDOT (R240). Forms an exact dot product of packed elements plus an accumulator and rounds once. -/
  | fdot (f : Fields)
  /-- FCVT (R241). Converts elements between slots. -/
  | fcvt (f : Fields)
  /-- FCVTS (R242). Converts elements with a per-channel scale and saturation, and optionally updates an mx register. -/
  | fcvts (f : Fields)
  /-- F2I (R241). Converts elements into an integer slot. -/
  | f2i (f : Fields)
  /-- I2F (R241). Converts elements from an integer slot. -/
  | i2f (f : Fields)
  /-- FPACK (R243). Converts two registers of a wide slot into one group of a narrow register. -/
  | fpack (f : Fields)
  /-- FUNPACK (R243). Converts one group of a narrow register into a register pair of a wide slot. -/
  | funpack (f : Fields)
  /-- RAND (R246). Writes counter-based random draws, raw or as unit values, and advances the draw index. -/
  | rand (f : Fields)
  /-- FRCP (R244). Correctly rounded reciprocal. -/
  | frcp (f : Fields)
  /-- FRSQ (R244). Correctly rounded reciprocal square root. -/
  | frsq (f : Fields)
  /-- FSQRT (R244). Variable-latency square root. -/
  | fsqrt (f : Fields)
  /-- FDIV (R244). Variable-latency divide. -/
  | fdiv (f : Fields)
  /-- FEXP2 (R244). Base-2 exponential. -/
  | fexp2 (f : Fields)
  /-- FLOG2 (R244). Base-2 logarithm. -/
  | flog2 (f : Fields)
  /-- FSIN (R244). Sine. -/
  | fsin (f : Fields)
  /-- FCOS (R244). Cosine. -/
  | fcos (f : Fields)
  /-- FTANH (R244). Hyperbolic tangent. -/
  | ftanh (f : Fields)
  /-- VOTE (R249). Votes across the valid lanes of the tile. -/
  | vote (f : Fields)
  /-- SHFL (R248). Reads a value from another lane of the tile and writes the read's validity. -/
  | shfl (f : Fields)
  /-- REDUX (R250). Reduces over the valid lanes of the tile. -/
  | redux (f : Fields)
  /-- SCAN (R250). Inclusive or exclusive prefix over the valid lanes. -/
  | scan (f : Fields)
  /-- MATCH (R249). Writes the mask of valid lanes that hold an equal value. -/
  | matchL (f : Fields)
  /-- SDEF (R255). Defines a stream descriptor from k registers and resets its position. -/
  | sdef (f : Fields)
  /-- SSEEK (R255). Sets a stream's position. -/
  | sseek (f : Fields)
  /-- SPOS (R255). Reads a stream's position. -/
  | spos (f : Fields)
  /-- SFLAG (R255). Waits for a stream's accesses and writes an end or overrun flag. -/
  | sflag (f : Fields)
  /-- CHAIN (R258). Runs a stored program of up to eight element steps over n stream elements. -/
  | chain (f : Fields)
  /-- LD (R265). Global load, weak or scoped. -/
  | ld (f : Fields)
  /-- ST (R265). Global store, weak or scoped. -/
  | st (f : Fields)
  /-- LDK (R266). Loads once for the warp into a k register. -/
  | ldk (f : Fields)
  /-- LDPK (R267). Packed load of slot elements from a bit address. -/
  | ldpk (f : Fields)
  /-- STPK (R267). Packed bit-masked store of slot elements. -/
  | stpk (f : Fields)
  /-- PREF (R268). Starts a fill of a line into the cache levels that its hint allocates in. -/
  | pref (f : Fields)
  /-- STPAIR (R269). Writes or adds to an element and its transposed twin as one pair update. -/
  | stpair (f : Fields)
  /-- LDS (R270). Loads from the scratchpad. -/
  | lds (f : Fields)
  /-- STS (R270). Stores to the scratchpad. -/
  | sts (f : Fields)
  /-- LDQ (R271). Loads from a quad-group member's scratchpad. -/
  | ldq (f : Fields)
  /-- STQ (R271). Stores to a quad-group member's scratchpad. -/
  | stq (f : Fields)
  /-- LDMC (R272). Loads global data and multicasts it to the scratchpads of the members named in a mask. -/
  | ldmc (f : Fields)
  /-- ATOM (R274). Integer atomic that returns the old value. -/
  | atom (f : Fields)
  /-- ATOMF (R275). Binary32 atomic that returns the old value. -/
  | atomf (f : Fields)
  /-- LR (R276). Load-reserved on a granule, taking the warp's hold. -/
  | lr (f : Fields)
  /-- SC (R276). Store-conditional that succeeds while the lane's reservation lasts. -/
  | sc (f : Fields)
  /-- RED (R274). Integer reduction without a result. -/
  | red (f : Fields)
  /-- REDF (R275). Binary32 reduction without a result. -/
  | redf (f : Fields)
  /-- LR_HOLD_EXPIRY (R277). The warp's LR hold on a granule ends when a lane issues its seventeenth instruction after the LR without an SC. -/
  | lrHoldExpiry (granule : Nat)
  /-- FENCE (R279). Waits until earlier accesses are visible at the scope, writing back and dropping L1 contents for wide scopes. -/
  | fence (f : Fields)
  /-- BIND (R283). Writes a valid region-table entry binding a region to a synchronisation object. -/
  | bind (f : Fields)
  /-- UNBIND (R283). Clears a region-table entry. -/
  | unbind (f : Fields)
  /-- ACQ (R162). Reads SEQ of an object and drops L1 copies of the bound regions. -/
  | acq (f : Fields)
  /-- ACQ_GE (R280). Acquires once SEQ reaches a given value, and otherwise leaves the entry waiting at the ACQ. -/
  | acqGe (f : Fields)
  /-- ACQ_GE_WAKE (R280). A change of SEQ(o) makes a waiting ACQ.ge entry ready again. -/
  | acqGeWake (wg warp : Nat)
  /-- REL (R161). Makes the writes to the bound regions visible at the scope and adds the number of active lanes to SEQ. -/
  | rel (f : Fields)
  /-- BAR (R282). Barrier arrival followed at once by the wait. -/
  | bar (f : Fields)
  /-- BARA (R282). Barrier arrival; the lanes continue. -/
  | bara (f : Fields)
  /-- BARW (R282). Parks the lanes until the phase in which they arrived completes. -/
  | barw (f : Fields)
  /-- RRMODE_OFF (R284). Turns record or replay off for a region once admitted requests have drained. -/
  | rrmodeOff (f : Fields)
  /-- RRMODE_REC (R284). Puts a region in record mode with a new log. -/
  | rrmodeRec (f : Fields)
  /-- RRMODE_PLAY (R284). Puts a region in replay mode over an existing log. -/
  | rrmodePlay (f : Fields)
  /-- ORDGATE (R285). Reads the position of a region's order gate. -/
  | ordgate (f : Fields)
  /-- CARVE (R287). Moves free ways between the cache and the scratchpad share and writes the resulting share. -/
  | carve (f : Fields)
  /-- CWB (R288). Writes back the L1 lines of a range. -/
  | cwb (f : Fields)
  /-- CINV (R288). Writes back and invalidates the L1 lines of a range. -/
  | cinv (f : Fields)
  /-- CINV_I (R288). Invalidates a range in the instruction cache of every core of the package. -/
  | cinvI (f : Fields)
  /-- MXACQ (R299). Acquires the core's matrix engine, clearing its per-core state and allocating an engine context. -/
  | mxacq (f : Fields)
  /-- MXREL (R300). Marks the engine for release once the workgroup's commands on it complete. -/
  | mxrel (f : Fields)
  /-- ENGINE_RELEASE (R300). Ownership ends and the engine context returns to the pool once every command of the releasing workgroup has completed. -/
  | engineRelease (core : Nat)
  /-- TDESC (R295). Writes a tile descriptor from eight k registers. -/
  | tdesc (f : Fields)
  /-- TMASK_SET (R296). Writes a row or column edge predicate from k registers. -/
  | tmaskSet (f : Fields)
  /-- TMASK_FIRST (R296). Sets the first n bits of an edge predicate. -/
  | tmaskFirst (f : Fields)
  /-- GDECL (R76). Declares the signer count of a signing register. -/
  | gdecl (f : Fields)
  /-- TAMAX (R314). Reads a max-magnitude register, after waiting for drains when .sync is given. -/
  | tamax (f : Fields)
  /-- TSCUPD (R315). Derives new scales from an mx register into a run of sc registers. -/
  | tscupd (f : Fields)
  /-- TMMA (R306). Issues a tile matrix multiply-accumulate into accumulator memory as one command. -/
  | tmma (f : Fields)
  /-- TMMAB (R306). Issues a block-scaled 4-bit tile multiply as one command. -/
  | tmmab (f : Fields)
  /-- TACT (R310). Issues an element-wise activation over a tile. -/
  | tact (f : Fields)
  /-- TEW (R310). Issues an element-wise add, subtract or multiply of two tiles. -/
  | tew (f : Fields)
  /-- TRED (R310). Issues a row or column sum or maximum. -/
  | tred (f : Fields)
  /-- TTRANS (R310). Issues a tile transpose. -/
  | ttrans (f : Fields)
  /-- TSCL (R310). Issues a scaling of a tile by a row or column vector. -/
  | tscl (f : Fields)
  /-- TCVT (R312). Issues a tile conversion, plain or scaled, with optional mx updates. -/
  | tcvt (f : Fields)
  /-- TZERO (R310). Issues a fill of a tile with +0. -/
  | tzero (f : Fields)
  /-- TACCLD (R310). Issues a copy of a scratchpad tile into accumulator memory. -/
  | taccld (f : Fields)
  /-- TACCST (R310). Issues a rounding of an accumulator tile into a scratchpad tile. -/
  | taccst (f : Fields)
  /-- TDRAIN (R313). Issues the application of -eta times an accumulator gradient to global weights as FP32 reductions, optionally paired. -/
  | tdrain (f : Fields)
  /-- TCOPY (R319). Issues a linear copy command on a copy context. -/
  | tcopy (f : Fields)
  /-- TCOPY_TILE (R319). Issues a tile-form copy of elements and scale words between descriptors. -/
  | tcopyTile (f : Fields)
  /-- TGATHER (R320). Issues a gather of indexed rows into the scratchpad. -/
  | tgather (f : Fields)
  /-- TSCATTER (R320). Issues a scatter of scratchpad rows to indexed global rows. -/
  | tscatter (f : Fields)
  /-- TCOLL (R321). Issues a pod collective on a group, numbered by the group's acceptance count. -/
  | tcoll (f : Fields)
  /-- HWAIT (R322). Parks the lanes until a handle's command completes, then observes the completion. -/
  | hwait (f : Fields)
  /-- HTEST (R322). Tests whether a handle's command is complete. -/
  | htest (f : Fields)
  /-- HCANCEL (R323). Requests cancellation of a command. -/
  | hcancel (f : Fields)
  /-- HSLEEP (R324). Parks the lanes until the promised completion cycle of a copy, gather or scatter command. -/
  | hsleep (f : Fields)
  /-- HSTAT (R325). Reads a command's completion word or its promised cycle. -/
  | hstat (f : Fields)
  /-- RECBEGIN (R333). Begins a record: sets ACT and the Caddy parameters, and writes the Caddy header when the command runs. -/
  | recbegin (f : Fields)
  /-- RECEND (R334). Ends logging and writes the header counters. -/
  | recend (f : Fields)
  /-- RECMARK (R334). Appends a mark entry to the log. -/
  | recmark (f : Fields)
  /-- REVERSE (R342). Walks the log back to a mark, resolving operands and applying each entry's adjoint to the gradients. -/
  | reverse (f : Fields)
  /-- LOGQ (R335). Waits for earlier matrix commands and reads a field of the record state. -/
  | logq (f : Fields)
  /-- TRAP (R351). Enters the supervisor with a software trap code. -/
  | trap (f : Fields)
  /-- ERET (R352). Restores the state from the frame, returns to mode P and resumes the lanes at RPC. -/
  | eret (f : Fields)
  /-- MFS (R350). Reads a system register. -/
  | mfs (f : Fields)
  /-- MTS_WCR (R87). Writes the warp control register; applies from the warp's next issue cycle. -/
  | mtsWcr (f : Fields)
  /-- MTS_XFLAGS_CLEAR (R350). Clears sticky exception flags by write-1-to-clear. -/
  | mtsXflagsClear (f : Fields)
  /-- MTS_FMT (R92). Writes the workgroup's working copy of a format slot word. -/
  | mtsFmt (f : Fields)
  /-- MTS_AMR (R92). Writes the workgroup's working copy of amr. -/
  | mtsAmr (f : Fields)
  /-- MTS_SC (R124). Writes a scale register after the earlier commands that read scales complete. -/
  | mtsSc (f : Fields)
  /-- MTS_MX (R91). Writes a max-magnitude register of the owned engine. -/
  | mtsMx (f : Fields)
  /-- CYCRD (R353). Reads one 64-bit sample of cyc. -/
  | cycrd (f : Fields)
  /-- LAUNCH (R354). Releases at .pkg, reads a launch record and enqueues it on a device launch queue, writing its identifier or 0. -/
  | launch (f : Fields)
  /-- TLBI (R355). Invalidates the translations of a range for an ASID and waits for the acknowledgement. -/
  | tlbi (f : Fields)
  /-- TLBI_ACKNOWLEDGE (R149). After TLB removal, L1 write-back and drain of accesses translated through removed entries, the invalidation is acknowledged. -/
  | tlbiAcknowledge (wg warp : Nat)
  /-- SCANGO (R357). Asks Kettle firmware to scan a core and writes the acceptance status. -/
  | scango (f : Fields)
  /-- SCANPOLL (R358). Reads a core's scan state, elapsed count and first failing chain. -/
  | scanpoll (f : Fields)
  /-- SCANSTOP (R358). Aborts a running scan. -/
  | scanstop (f : Fields)
  /-- CORERET (R359). Retires a core whose last scan failed and writes the new logical core count. -/
  | coreret (f : Fields)
  /-- HALT (R360). From mode S, ends the workgroup with a code, cancelling its commands and writing an error record. -/
  | halt (f : Fields)
  /-- ICACHE_FILL (R191). The instruction cache expands a bundle into canonical words, checks it and marks it malformed or fetch-failed. -/
  | icacheFill (core asid va : Nat)
  /-- VARIABLE_LATENCY_COMPLETION (R88). A class V operation writes its destination or finishes reading its sources, and its wait token drops by one. -/
  | variableLatencyCompletion (wg warp idx : Nat)
  /-- FAIRNESS_OVERDUE (R45). An entry's fairness counter reaches F and the entry becomes overdue for issue. -/
  | fairnessOverdue (wg warp pc : Nat)
  /-- SLEEP_WAKE (R228). cyc reaches the wake cycle and the sleeping lanes are released together. -/
  | sleepWake (wg warp wake : Nat)
  /-- HSLEEP_WAKE (R324). The promised cycle arrives; a lane whose command is complete observes completion, and one whose command is not traps on the missed promise. -/
  | hsleepWake (wg warp wake : Nat)
  /-- INFUSER_COMMAND_START (R305). The Infuser begins a staged command once the running one finishes, logging it first when it is marked. -/
  | infuserCommandStart (core : Nat)
  /-- NATIVE_STEP_COMPLETE (R305). The Infuser completes a 32x32 native output tile and advances STEP. -/
  | nativeStepComplete (core : Nat)
  /-- ENGINE_COMMAND_COMPLETION (R302). A command completes, writes its completion word, advances the timeline counter and releases lanes blocked on its handle. -/
  | engineCommandCompletion (ctx : Nat)
  /-- REPORTED_TRAP_DELIVERY (R498). An engine-reported class 0x09 condition traps in the chosen warp at its next issue cycle with an entry. -/
  | reportedTrapDelivery (wg warp : Nat)
  /-- ATOMIC_UNIT_OPERATION (R141). An L2 atomic unit performs an atomic, reduction, reservation or pair update on a line, gated and logged in record or replay regions. -/
  | atomicUnitOperation (idx : Nat)
  /-- REPLAY_DIVERGENCE (R484). When the group of the gate's chunk has ended or the gate has been idle 420,000 counts, Kettle firmware fails the launch. -/
  | replayDivergence (ctx entry : Nat)
  /-- PAGE_WALK_COMPLETE (R148). The die walker finishes a coalesced walk and answers every requester, or ends it in a page or malformed-entry fault. -/
  | pageWalkComplete (asid va : Nat)
  /-- REMOTE_TIMEOUT (R475). A part not accepted within 2 ms is dropped with all held parts, and the instruction or command fails. -/
  | remoteTimeout (wg warp : Nat)
  /-- YIELD_REQUEST (R368). A yield bind record asks every warp of a workgroup to stop at its safe points. -/
  | yieldRequest (core : Nat)
  /-- WORKGROUP_SAVE (R94). Once every warp of the unit has stopped, spills, clears reservations and writes the workgroup image, then frees the core. -/
  | workgroupSave (wg : Nat)
  /-- SAFE_POINT_OVERDUE (R462). The first 210,000-count yield budget expires; Kettle firmware writes a record and allows a second budget. -/
  | safePointOverdue (wg : Nat)
  /-- SAFE_POINT_SECOND_BUDGET (R462). The second budget expires; workgroups not stopped are ended and those stopped are saved. -/
  | safePointSecondBudget (wg : Nat)
  /-- BIND_CREATE (R368). After the dependence test, the dispatch unit drops the L1 and creates the workgroup's warps on the core. -/
  | bindCreate (core : Nat)
  /-- BIND_RESUME (R368). Reads and checks a workgroup image and restores it on the core. -/
  | bindResume (core : Nat)
  /-- BIND_WITHDRAW_CORE (R368). Completes earlier records for a core and stops it taking new create and resume records. -/
  | bindWithdrawCore (core : Nat)
  /-- BIND_RETURN_CORE (R368). Lets a core take create and resume records again. -/
  | bindReturnCore (core : Nat)
  /-- WORKGROUP_RETIRE (R37). Once all threads have exited and all commands have completed, frees the resources, writes back and sets the completion bit. -/
  | workgroupRetire (wg : Nat)
  /-- LAUNCH_RECORD_TAKE (R365). Kettle firmware takes a queued record into the launch table and checks it. -/
  | launchRecordTake (ctx queue : Nat)
  /-- WORKGROUP_PLACEMENT (R373). Kettle firmware chooses the next workgroup and core by priority and order and writes bind records, pre-empting lower work if needed. -/
  | workgroupPlacement (lslot : Nat)
  /-- LAUNCH_FINISH (R366). After the last completion bit, writes STATE 2 or 3, and ends STRICT consumers of a failed producer. -/
  | launchFinish (lslot : Nat)
  /-- DETERMINISTIC_MERGE (R175). At a synchronisation point, workgroup i merges its buffered writes and reductions after lower workgroups, with conflict and pre-image checks. -/
  | deterministicMerge (wg : Nat)
  /-- BUFFER_FULL_RELEASE (R177). A workgroup held on a full write buffer is released, merges, and continues with direct writes. -/
  | bufferFullRelease (wg : Nat)
  /-- CORE_RENUMBER (R18). Kettle firmware drains the cores above a retired core, renumbers the logical map and lowers N. -/
  | coreRenumber (core : Nat)
  /-- SCAN_COMPLETE (R535). A scan ends after 420,000 counts and compares its signature; the core passes and returns to service, or fails and stays out. -/
  | scanComplete (core : Nat)
  /-- SCAN_ABORT (R357). A need of higher priority, or a supply change, aborts the scan; the core is reset and returns to service. -/
  | scanAbort (core : Nat)
  /-- IPADDR_DAD_COMPLETE (R379). Duplicate address detection ends, putting the address in effect or marking it duplicate. -/
  | ipaddrDadComplete (dup : Bool)
  /-- MAILBOX_ACK_TIMER (R382). 2 µs after an unacknowledged applied frame, the device sends an ACK carrying E. -/
  | mailboxAckTimer (sess : Nat)
  /-- PROVE_TIMEOUT (R519). A PROVE not received within 1 s of its CHALLENGE ends the handshake. -/
  | proveTimeout (idx : Nat)
  /-- ELECTION_WINDOW_CLOSE (R521). At the end of the 1 s window, the highest-ranked claimant becomes owner. -/
  | electionWindowClose
  /-- OWNERSHIP_LAPSE (R521). Ownership lapses after 10 s without an applied frame from an owner session. -/
  | ownershipLapse
  /-- LOAD (R394). Load request OPC 1: checks a container, copies the chosen sections to the code area and writes the result. -/
  | load (ctx : Nat)
  /-- UNLOAD (R397). Load request OPC 2: removes a load's sections unless a launch uses them. -/
  | unload (ctx : Nat)
  /-- INSTALL_SUPERVISOR (R398). Load request OPC 3: sets the context's TVEC to a loaded kernel. -/
  | installSupervisor (ctx : Nat)
  /-- SET_SAVE_POOL (R399). Load request OPC 4: sets the context's save pool. -/
  | setSavePool (ctx : Nat)
  /-- SUPPLY_LEVEL_RECOVERY (R507). After 1 ms above a threshold, the supply level rises by one and the clock speeds up. -/
  | supplyLevelRecovery
  /-- HOLD_ENTRY (R508). After 50 µs below 45.9 V or 20 ms at a reduced level, issue, engines and the mailbox pause and HBM self-refreshes. -/
  | holdEntry
  /-- LINK_RETRAIN_COMPLETE (R512). Retraining ends, possibly at reduced width or with the port disabled, and held transactions are replayed. -/
  | linkRetrainComplete (link lanes : Nat)
  /-- ERROR_EVENT_COUNT (R514). Kettle firmware counts an event against a structure instance and acts when the count reaches THR. -/
  | errorEventCount (kind inst : Nat)
  /-- ERROR_WINDOW_CLOSE (R514). An instance's counting window closes and its count returns to zero. -/
  | errorWindowClose (kind inst : Nat)
  /-- CNT_WRITE (R514). A write to CNTk sets the threshold and window for windows opened afterwards; zero fields change nothing. -/
  | cntWrite (k value : Nat)
  /-- STREQ_WRITE (R516). Requests the full self-test at the next reset. -/
  | streqWrite (value : Nat)
  /-- MAP_COMMIT (R518). A write of 1 to MAPCMD checks the signed map image in MAPBUF. -/
  | mapCommit
  /-- MAP_APPLY (R518). Once no deterministic launch runs, scans the added cores and applies the new in-service mask. -/
  | mapApply
  /-- HUB_REGISTER_WRITE (R506). A level-M write to a hub register without behaviour of its own, such as MAPBUF. -/
  | hubRegisterWrite (off : Nat) (data : List Byte)
  /-- DEVICE_RESET (R522). The boot ROM verifies the firmware, extends MEAS and starts the basic or full self-test. -/
  | deviceReset
  /-- WRITE_PERFORMED_AT_L2 (R152). A weak store's dirty bytes, a scoped store or an engine write reach the owning L2 and enter the byte's coherence order. -/
  | writePerformedAtL2 (core line : Nat)
  /-- SOFT_ERROR (R478). A soft error in a structure is corrected, or poisons its granule. -/
  | softError (e : SoftErr)
  /-- LINK_RETRAIN (R511). A link whose replay fails 16 times or that loses lock holds its traffic and retrains. -/
  | linkRetrain (link : Nat)
  /-- HOST_LINK_UP (R378). The host port trains at 8 or 4 lanes and runs duplicate address detection for its link-local address. -/
  | hostLinkUp (up : LinkUp)
  /-- NEIGHBOUR_DISCOVERY (R379). The host port answers an IPv6 neighbour discovery packet. -/
  | neighbourDiscovery (peer : Nat) (pk : Packet)
  /-- ICMPV6_ECHO (R379). The host port answers an ICMPv6 echo request. -/
  | icmpv6Echo (peer : Nat) (pk : Packet)
  /-- HELLO (R519). A host opens a session handshake and the device answers with CHALLENGE and an attestation signature. -/
  | hello (fr : Frame)
  /-- PROVE (R519). The host proves its key; the device opens the session, possibly creating the context, and answers OPENED. -/
  | prove (fr : Frame)
  /-- CLAIM (R521). Asks for ownership within or after the election window. -/
  | claim (fr : Frame)
  /-- HANDOVER (R520). The owner moves ownership to another slot with an open session. -/
  | handover (fr : Frame)
  /-- CLOSE (R520). Closes a session and optionally ends the context. -/
  | close (fr : Frame)
  /-- WRITE (R381). A host WRITE frame is applied at the ordering point to the translated range. -/
  | write (fr : Frame)
  /-- READ (R381). A host READ frame reads a range and returns it in READRESP. -/
  | read (fr : Frame)
  /-- RELEASE (R171). A host release frame adds 1 to SEQ of an object after every earlier frame. -/
  | release (fr : Frame)
  /-- LAUNCH_FRAME (R381). A host LAUNCH frame enqueues a launch record on the context's host queue. -/
  | launchFrame (fr : Frame)
  /-- MGMT_READ (R386). An MGMT frame reads a management register and answers with MGMTRESP. -/
  | mgmtRead (fr : Frame)
  /-- MGMT_WRITE (R386). An MGMT frame from the owner writes a management register that has no behaviour of its own (IPADDR). -/
  | mgmtWrite (fr : Frame)
  /-- MGMT_WRITE_PKGID (R386). Sets the package id, which takes effect at the next UALink bring-up. -/
  | mgmtWritePkgid (fr : Frame)
  /-- MGMT_WRITE_PODID (R386). Sets the pod id in the non-volatile store, only while no context exists. -/
  | mgmtWritePodid (fr : Frame)
  /-- MGMT_WRITE_IPCTL (R379). Puts IPADDR in effect by starting duplicate address detection. -/
  | mgmtWriteIpctl (fr : Frame)
  /-- MGMT_WRITE_GROUP (R321). Writes a collective group word, resetting its acceptance count and ending incomplete collectives with CODE 0x07. -/
  | mgmtWriteGroup (fr : Frame)
  /-- MALFORMED_FRAME (R383). A host frame that fails its CRC, length or session test is dropped, and a request of unknown TYPE or with a nonzero reserved field consumes its SEQ and is answered with STAT 0x04. -/
  | malformedFrame (fr : Frame)
  /-- SUPPLY_DROOP (R507). The sampled input falls below a level threshold and the arithmetic clock is stretched to the lower frequency. -/
  | supplyDroop (level : Nat)
  /-- POWER_FAIL (R508). After 1 ms below 30 V, a power-fail record is written and all work is lost. -/
  | powerFail
  /-- HOLD_EXIT (R509). After 10 ms stable, the package resumes and extends promises, wakes and budgets by H. -/
  | holdExit (cycles : Nat)
  /-- TAMPER_ALARM (R526). The enclosure switch opens while the device is powered, and the device acts by the tamper policy. -/
  | tamperAlarm
  /-- GLITCH_ALARM (R526). An unexplained supply or clock excursion triggers action by the glitch policy. -/
  | glitchAlarm
  /-- SHOCK_SENSOR_LATCH (R516). The unpowered shock and tilt sensor latches its flag when acceleration exceeds 40 g or the module is inverted. -/
  | shockSensorLatch
  /-- END_TO_END_CRC_MISMATCH (R475). A transaction whose end-to-end CRC fails at the receiver is sent again; after 3 retries the part is dropped or the returned data is poisoned. -/
  | endToEndCrcMismatch (what : CrcTarget) (n : Nat)
  /-- UALINK_REMOTE_REQUEST (R388). A request from another package arrives and is performed by this package's L2, or answered busy during hold. -/
  | ualinkRemoteRequest (req : RemoteReq)
  /-- COLLECTIVE_COMPLETE (R321). Once every member has issued its TCOLL with the same number, the collective computes and completes on every member. -/
  | collectiveComplete (group : Nat) (remote : List CollPart)
  /-- QPF_TRANSLATION_COMPLETE (R406). Background translation of a QPF kernel ends: NSECT and FORM 2 are written and swaps begin, or FORM 3 on failure or a CRC mismatch. -/
  | qpfTranslationComplete (ctx load kix : Nat) (res : QpfResult)
  /-- SELF_TEST_COMPLETE (R516). The self-test ends: failing cores are retired or HELD is set, flags are cleared, and sessions may open. -/
  | selfTestComplete (failedCores : List Nat) (otherFail : Bool)
  deriving DecidableEq, Repr

end Sys2Proof
end

