-- ==== Sys2Proof/Machine/Encoding.lean ====
section
/-!
DEFINITION. The encoding checks (R442, R443 reasons 0x02 and 0x05 to 0x0A, R445 step 4, R452): what a canonical
word must satisfy, for each instruction, whatever the registers hold.  A word with a failing check is an
instruction that traps when it issues; WellFormed.lean says which instructions have none.
-/

namespace Sys2Proof

/-- The field a check is about (R444, FLD). -/
inductive Fld where
  | whole | d | a | b | c | imm | fs | st | bundle | value | arch | slot | desc
  deriving DecidableEq, Repr

/-- The FLD code of R444. -/
def Fld.code : Fld → Nat
  | .whole => 0 | .d => 1 | .a => 2 | .b => 3 | .c => 4 | .imm => 5 | .fs => 6 | .st => 7
  | .bundle => 8 | .value => 9 | .arch => 10 | .slot => 11 | .desc => 12

/-- What an instruction requires of its destination code (R82, R443 reasons 0x05, 0x07, 0x08). -/
inductive Dst where
  /-- not used: zero -/
  | unused
  /-- any writable code, 32 bits -/
  | reg
  /-- any writable code, 64 bits: an even `v` or `k` pair, an `h` or a predicate -/
  | reg64
  /-- an even `v` or `k` pair and nothing else -/
  | pair
  /-- any even code: two registers (R243, R267) -/
  | even
  /-- `p0` to `p7` -/
  | pred
  /-- zero or `h0` to `h7` -/
  | hOrZero
  /-- a `v` or `k` register: a mask -/
  | mask
  /-- the destination of an n-byte load (R264) -/
  | load (n : Nat)
  /-- a `k` destination of an n-byte load (R266) -/
  | loadK (n : Nat)
  /-- an even pair, or 112 (R280) -/
  | pairOr112
  /-- exactly 112 (R219) -/
  | is112
  deriving DecidableEq, Repr

/-- What an instruction requires of a source code. -/
inductive Src where
  /-- not used: zero -/
  | unused
  /-- a 32-bit source -/
  | reg
  /-- a 64-bit source -/
  | reg64
  /-- any even code: two registers (R267) -/
  | even
  /-- a predicate -/
  | pred
  /-- an `h` register -/
  | handle
  /-- a `k` code that is a multiple of 4 (R255) -/
  | kQuad
  /-- 64, 72, 80 or 88 (R295) -/
  | kOct
  /-- a global address (R262), XH as given -/
  | addr (xh : Bool)
  /-- a global address in `k` registers (R266) -/
  | addrK (xh : Bool)
  /-- the data of an n-byte store (R264) -/
  | store (n : Nat)
  deriving DecidableEq, Repr

/-- The IMM layout (R188): MI with the modifier bits it accepts, M with the bits it accepts, I, Z. -/
inductive Lay where
  | immI
  | immMI (mods : Nat)
  | immM (allowed : Nat)
  | immZ
  deriving DecidableEq, Repr

/-- What the encoding checks of one instruction look at. -/
structure Shape where
  d : Dst := .unused
  a : Src := .unused
  b : Src := .unused
  c : Src := .unused
  lay : Lay := .immZ
  /-- FS names a slot -/
  fs : Bool := false
  /-- further checks: (it fails, reason, field) -/
  extra : List (Bool × Nat × Fld) := []
  deriving DecidableEq, Repr

/-- The access size of SZ (R261); 0 for a reserved code. -/
def szBytes (sz : Nat) : Nat :=
  if sz = 0 then 4 else if sz = 1 then 8 else if sz = 2 then 16 else if sz = 3 then 1 else if sz = 4 then 2 else 0

def Fields.immN (f : Fields) : Nat := f.imm.toNat
/-- SZ, IMM[27:25] (R261) -/
def Fields.sz (f : Fields) : Nat := bits f.immN 25 3
/-- SX, IMM[24] (R261) -/
def Fields.sx (f : Fields) : Bool := bitB f.immN 24
/-- HINT, IMM[23:21] (R261) -/
def Fields.hint (f : Fields) : Nat := bits f.immN 21 3
/-- XH, IMM[20] (R261) -/
def Fields.xh (f : Fields) : Bool := bitB f.immN 20
/-- SCO, IMM[19:17] (R261) -/
def Fields.sco (f : Fields) : Nat := bits f.immN 17 3
/-- the modifier W, IMM[27] (R209) -/
def Fields.mW (f : Fields) : Bool := bitB f.immN 27
/-- the modifier U, IMM[26] (R209) -/
def Fields.mU (f : Fields) : Bool := bitB f.immN 26
/-- the modifier SAT, IMM[25] (R209) -/
def Fields.mSat (f : Fields) : Bool := bitB f.immN 25
/-- the modifier field X, IMM[24:20] (R209, R247) -/
def Fields.mX (f : Fields) : Nat := bits f.immN 20 5
/-- GRP, IMM[27:24] (R232) -/
def Fields.grp (f : Fields) : Nat := bits f.immN 24 4
/-- X3, IMM[23:21] (R232) -/
def Fields.x3 (f : Fields) : Nat := bits f.immN 21 3

/-- Operand code classes (R81). -/
def isV (c : Nat) : Bool := c < 64
def isK (c : Nat) : Bool := 64 ≤ c && c < 96
def isVK (c : Nat) : Bool := c < 96
def isS (c : Nat) : Bool := 96 ≤ c && c < 112
def isP (c : Nat) : Bool := 112 ≤ c && c < 120
def isH (c : Nat) : Bool := 120 ≤ c && c < 128
def isSpecial (c : Nat) : Bool := 128 ≤ c && c < 192

/-- An odd code where a 64-bit operand is named: an odd `v`, `k`, `s` or special code (R82); a predicate, an `h` register, a
constant and the immediate are 64 bits by themselves (R208).  [DEDUCED; log entry 10] -/
def oddPair (c : Nat) : Bool := c % 2 = 1 && (c < 112 || isSpecial c)

/-- A code cannot take or give the n bytes of an access (R264, R291): an `h` register takes 8 bytes only, a predicate 4 bytes
only, a stream at most 4, 8 bytes need an even pair and 16 a multiple of 4. -/
def badData (n c : Nat) : Bool :=
  if isH c then n ≠ 8
  else if isS c then 8 ≤ n
  else if isP c then n ≠ 4
  else if n = 8 then oddPair c
  else if n = 16 then !(isVK c && c % 4 = 0)
  else false

/-- The reasons a destination code fails (R443), in the order of R445. -/
def Dst.fails (q : Dst) (c : Nat) : List Nat :=
  match q with
  | .unused => if c = 0 then [] else [5]
  | .is112 => if c = 112 then [] else [5]
  | _ =>
    (if 128 ≤ c then [7] else []) ++
    (match q with
     | .unused | .is112 | .reg => []
     | .reg64 => if oddPair c then [8] else []
     | .pair => if isVK c && c % 2 = 0 then [] else [8]
     | .even => if c % 2 = 0 then [] else [8]
     | .pred => if isP c then [] else [8]
     | .hOrZero => if c = 0 || isH c then [] else [8]
     | .mask => if isVK c then [] else [8]
     | .load n => if badData n c then [8] else []
     | .loadK n => if isK c && !badData n c then [] else [8]
     | .pairOr112 => if c = 112 || (isVK c && c % 2 = 0) then [] else [8])

/-- The reasons a source code fails; `lit` says that the layout admits code 255 (R188). -/
def Src.fails (q : Src) (lit : Bool) (c : Nat) : List Nat :=
  match q with
  | .unused => if c = 0 then [] else [5]
  | _ =>
    (if c = 255 && !lit then [6] else []) ++
    (match q with
     | .unused | .reg => []
     | .reg64 => if oddPair c then [8] else []
     | .even => if c % 2 = 0 then [] else [8]
     | .pred => if isP c then [] else [8]
     | .handle => if isH c then [] else [8]
     | .kQuad => if isK c && c % 4 = 0 then [] else [8]
     | .kOct => if c = 64 || c = 72 || c = 80 || c = 88 then [] else [8]
     | .addr xh => if xh then (if isVK c && c % 4 = 0 then [] else [8]) else if oddPair c then [8] else []
     | .addrK xh => if isK c && c % (if xh then 4 else 2) = 0 then [] else [8]
     | .store n => if badData n c then [8] else []) ++
    (if 176 ≤ c && c < 192 then [9] else [])

/-- The source is used and holds code 255. -/
def Src.usesImm (q : Src) (c : Nat) : Bool := q ≠ .unused && c = 255

/-- IMM holds a bit that the form does not accept (R187, R188). -/
def Shape.immBad (q : Shape) (f : Fields) : Bool :=
  let lit := q.a.usesImm f.a.toNat || q.b.usesImm f.b.toNat || q.c.usesImm f.c.toNat
  match q.lay with
  | .immI => false
  | .immMI mods => (f.immN &&& (2 ^ 28 - 1 - (mods + if lit then 2 ^ 20 - 1 else 0))) ≠ 0
  | .immM allowed => (f.immN &&& (2 ^ 28 - 1 - allowed)) ≠ 0
  | .immZ => f.immN ≠ 0

/-- The layout admits code 255 as a source (R188). -/
def Lay.admitsLit : Lay → Bool
  | .immI | .immMI _ => true
  | .immM _ | .immZ => false

/-- Every failing check, in the order of the fields D, A, B, C, IMM, FS.
[DEDUCED; log entry 11: the order of the fields within one reason] -/
def Shape.failures (q : Shape) (f : Fields) : List (Nat × Fld) :=
  let lit := q.lay.admitsLit
  (q.d.fails f.d.toNat).map (·, .d) ++
  (q.a.fails lit f.a.toNat).map (·, .a) ++
  (q.b.fails lit f.b.toNat).map (·, .b) ++
  (q.c.fails lit f.c.toNat).map (·, .c) ++
  (if q.immBad f then [(5, .imm)] else []) ++
  (if !q.fs && f.fs ≠ 0 then [(5, .fs)] else []) ++
  (q.extra.filter (·.1)).map (fun e => (e.2.1, e.2.2))

/-- The first failing check in the order of R445: the lowest reason, and within it the first field. -/
def firstFailure (fs : List (Nat × Fld)) : Option (Nat × Fld) :=
  [5, 6, 7, 8, 9, 10].findSome? (fun r => fs.find? (·.1 = r))

/-- Modifier masks of R209. -/
def mskW : Nat := 2 ^ 27
def mskU : Nat := 2 ^ 26
def mskSat : Nat := 2 ^ 25
def mskX : Nat := 31 * 2 ^ 20
/-- GRP and X3 of R232. -/
def mskGrp : Nat := 15 * 2 ^ 24
def mskX3 : Nat := 7 * 2 ^ 21

/-- a wide source of the given width -/
def wide (w : Bool) : Src := if w then .reg64 else .reg
/-- a wide destination -/
def wideD (w : Bool) : Dst := if w then .reg64 else .reg

/-- A plain integer instruction (R211): D, and a, b wide. -/
def shInt (f : Fields) (mods : Nat) : Shape :=
  { d := wideD f.mW, a := wide f.mW, b := wide f.mW, lay := .immMI mods }

/-- A rejoin instruction (R230). -/
def shRj (d : Dst) : Shape := { d := d, lay := .immMI (15 * 2 ^ 20) }

/-- A slot instruction (R232) with the named modifier bits and operands. -/
def shF (mods : Nat) (a b c : Src) : Shape :=
  { d := .reg, a := a, b := b, c := c, lay := .immMI mods, fs := true }

/-- The checks of SZ and HINT common to OP 0x20 to 0x22 (R261, R452). -/
def szExtra (f : Fields) : List (Bool × Nat × Fld) := [(5 ≤ f.sz, 10, .imm)]
def hintExtra (f : Fields) : List (Bool × Nat × Fld) := [(5 ≤ f.hint, 10, .imm)]
/-- SX with a size other than 1 or 2 bytes (R291). -/
def sxExtra (f : Fields) : List (Bool × Nat × Fld) := [(f.sx && !(f.sz = 3 || f.sz = 4), 5, .imm)]

/-- The field masks of R261. -/
def mSZ : Nat := 7 * 2 ^ 25
def mSX : Nat := 2 ^ 24
def mHINT : Nat := 7 * 2 ^ 21
def mXH : Nat := 2 ^ 20
def mSCO : Nat := 7 * 2 ^ 17
def mOFF : Nat := 2 ^ 17 - 1

/-- AOP, SPC and QP of R273. -/
def Fields.aop (f : Fields) : Nat := bits f.immN 21 4
def Fields.spc (f : Fields) : Nat := bits f.immN 15 2
def Fields.qp13 (f : Fields) : Nat := bits f.immN 13 2

/-- The shape of an atomic (R273). -/
def shAtom (f : Fields) (d : Dst) (b c : Src) (maxAop : Nat) (only32 : Bool) : Shape :=
  { d := d, a := if f.spc = 0 then .addr f.xh else .reg, b := b, c := c
    lay := .immM (2 ^ 28 - 1)
    extra := [ (f.spc ≠ 0 && f.xh, 5, .imm), (f.spc ≠ 2 && f.qp13 ≠ 0, 5, .imm),
               ((if only32 then f.sz ≠ 0 else 2 ≤ f.sz), 10, .imm), (maxAop < f.aop, 10, .imm),
               (f.spc = 3, 10, .imm)] }

/-- LR and SC (R276). -/
def shLrSc (f : Fields) (d : Dst) (b : Src) : Shape :=
  { d := d, a := .addr f.xh, b := b, lay := .immM (2 ^ 28 - 1)
    extra := [(f.spc ≠ 0 || f.aop ≠ 0 || f.qp13 ≠ 0, 5, .imm), (2 ≤ f.sz, 10, .imm)] }

/-- MD, MA, MB, SE, OPX of R303. -/
def Fields.md (f : Fields) : Nat := bits f.immN 24 4
def Fields.ma (f : Fields) : Nat := bits f.immN 20 4
def Fields.mb (f : Fields) : Nat := bits f.immN 16 4
def Fields.sg (f : Fields) : Nat := bits f.immN 13 3
def Fields.se (f : Fields) : Bool := bitB f.immN 12
def Fields.rp (f : Fields) : Nat := bits f.immN 10 2
def Fields.cp (f : Fields) : Nat := bits f.immN 8 2
def Fields.opx (f : Fields) : Nat := bits f.immN 0 8
/-- MD and MA of TCOPY's tile form (R318). -/
def Fields.cmd (f : Fields) : Nat := bits f.immN 16 4
def Fields.cma (f : Fields) : Nat := bits f.immN 12 4

/-- A tile operation (R303, R310): the OPX bits it accepts, whether it has an MA, an MB and an A operand. -/
def shTile (opx : Nat) (ma mb a : Bool) (extra : List (Bool × Nat × Fld) := []) : Shape :=
  { d := .hOrZero, a := if a then .reg else .unused
    lay := .immM (15 * 2 ^ 24 + (if ma then 15 * 2 ^ 20 else 0) + (if mb then 15 * 2 ^ 16 else 0) + 255 * 2 ^ 8 + opx)
    extra := extra }

/-- The system register number of MFS and MTS (R350). -/
def Fields.sr (f : Fields) : Nat := bits f.immN 0 12

/-- A system register is 64 bits wide (R350). -/
def srWide (n : Nat) : Bool := n = 0x10 || n = 0x300 || n = 0x304 || n = 0x306
/-- The system register can be read (R350). -/
def srReadable (n : Nat) : Bool :=
  n = 0 || n = 1 || (8 ≤ n && n < 16) || n = 0x10 || n = 0x40 || n = 0x41 || (0x100 ≤ n && n < 0x208)
  || n = 0x300 || n = 0x302 || n = 0x304 || n = 0x306
/-- The system register can be written (R350). -/
def srWritable (n : Nat) : Bool :=
  n = 0 || n = 1 || (8 ≤ n && n < 16) || n = 0x10 || (0x100 ≤ n && n < 0x208)

/-- The shape of an MTS (R349, R350). -/
def shMts (f : Fields) : Shape :=
  { a := wide f.mW, lay := .immM (mskW + 4095)
    extra := [(!srWritable f.sr || f.mW ≠ srWide f.sr, 10, .imm)] }

/-- The shape of every instruction of the opcode grid (R200) by its own description; events have none. -/
def shape : Instr → Option Shape
  -- OP 0x00 (R222)
  | .nop _ => some {}
  | .bra _ => some { lay := .immM (2 ^ 28 - 1) }
  | .brx _ => some { a := .reg }
  | .call _ => some { lay := .immM (2 ^ 28 - 1) }
  | .callx _ => some { a := .reg, lay := .immM (3 * 2 ^ 26) }
  | .ret _ => some {}
  | .exit _ => some {}
  | .yield _ => some {}
  | .sleep _ => some { a := .reg, lay := .immMI 0 }
  | .partset _ => some { a := .reg, lay := .immMI 0 }
  | .partget _ => some { d := .reg }
  -- OP 0x01 (R230)
  | .rjopen _ => some (shRj .unused)
  | .rjopenMask _ => some { a := .reg, lay := .immMI (31 * 2 ^ 20) }
  | .rjjoin _ => some (shRj .unused)
  | .rjquit _ => some (shRj .unused)
  | .rjwait _ => some (shRj .unused)
  | .rjtest _ => some (shRj .pred)
  | .rjmask _ => some (shRj .reg)
  | .rjclose _ => some (shRj .unused)
  | .orphanedSetTrap .. => none
  -- OP 0x02 (R211 to R214)
  | .iadd f => some (shInt f (mskW + mskU + mskSat))
  | .isum3 f => some { shInt f (mskW + mskU + mskSat) with c := wide f.mW }
  | .isub f => some (shInt f (mskW + mskU + mskSat))
  | .ineg f => some { shInt f (mskW + mskSat) with b := .unused }
  | .iabs f => some { shInt f (mskW + mskSat) with b := .unused }
  | .imin f => some (shInt f (mskW + mskU))
  | .imax f => some (shInt f (mskW + mskU))
  | .isat f => some { shInt f (mskW + mskU) with b := .reg }
  | .icmp f => some { shInt f (mskW + mskU + mskX) with
      d := .reg
      c := if bits f.mX 3 2 = 0 then .unused else .pred
      extra := [(6 ≤ bits f.mX 0 3 || bits f.mX 3 2 = 3, 10, .imm)] }
  | .sel f => some { shInt f mskW with c := .pred }
  | .lea f => some { shInt f (mskW + mskU + mskX) with b := .reg }
  -- OP 0x03
  | .imul f => some (shInt f (mskW + mskU + mskSat))
  | .imulh f => some (shInt f (mskW + mskU))
  | .imad f => some { shInt f (mskW + mskU + mskSat) with c := wide f.mW }
  | .imadw _ => some { d := .reg64, a := .reg, b := .reg, c := .reg64, lay := .immMI (mskU + mskSat) }
  | .idiv f => some (shInt f (mskW + mskU))
  | .irem f => some (shInt f (mskW + mskU))
  -- OP 0x04 (R217 to R219)
  | .and f => some (shInt f mskW)
  | .or f => some (shInt f mskW)
  | .xor f => some (shInt f mskW)
  | .not f => some { shInt f mskW with b := .unused }
  | .blut _ => some { d := .reg, a := .reg, b := .reg, c := .reg, lay := .immMI (255 * 2 ^ 20) }
  | .plut _ => some { d := .pred, a := .pred, b := .pred, c := .pred, lay := .immM (255 * 2 ^ 20) }
  | .pmovGet _ => some { d := .reg, lay := .immM 0 }
  | .pmovSet _ => some { d := .is112, a := .reg, lay := .immM (255 * 2 ^ 20) }
  | .mov f => some { shInt f mskW with b := .unused }
  | .movi _ => some { d := .reg, lay := .immI }
  | .movk f => some { shInt f (mskW + 3 * 2 ^ 20) with
      b := .reg, extra := [(!f.mW && 2 ≤ bits f.mX 0 2, 10, .imm)] }
  -- OP 0x05 (R220, R221)
  | .shl f => some { shInt f mskW with b := .reg }
  | .shr f => some { shInt f mskW with b := .reg }
  | .sar f => some { shInt f mskW with b := .reg }
  | .fshl f => some { shInt f mskW with c := .reg }
  | .fshr f => some { shInt f mskW with c := .reg }
  | .bfe f => some { shInt f (mskW + mskU) with b := .reg }
  | .bfi f => some { shInt f mskW with b := .reg, c := wide f.mW }
  | .brev f => some { shInt f mskW with b := .unused }
  | .popc f => some { shInt f mskW with d := .reg, b := .unused }
  | .clz f => some { shInt f mskW with d := .reg, b := .unused }
  | .ctz f => some { shInt f mskW with d := .reg, b := .unused }
  | .sext f => some { shInt f mskW with b := .reg }
  | .zext f => some { shInt f mskW with b := .reg }
  -- OP 0x10 (R235 to R240)
  | .fadd _ => some (shF mskGrp .reg .reg .unused)
  | .fsub _ => some (shF mskGrp .reg .reg .unused)
  | .fmul _ => some (shF mskGrp .reg .reg .unused)
  | .ffma _ => some (shF mskGrp .reg .reg .reg)
  | .fmin _ => some (shF mskGrp .reg .reg .unused)
  | .fmax _ => some (shF mskGrp .reg .reg .unused)
  | .fcmp f => some { shF (mskGrp + mskX3) .reg .reg .unused with
      extra := [(!isP f.d.toNat && f.grp ≠ 0, 5, .imm)] }
  | .fclass f => some { shF mskGrp .reg .reg .unused with
      extra := [(!isP f.d.toNat && f.grp ≠ 0, 5, .imm)] }
  | .frnd f => some { shF (mskGrp + mskX3) .reg .unused .unused with extra := [(6 ≤ f.x3, 10, .imm)] }
  | .fscale _ => some (shF mskGrp .reg .reg .unused)
  | .fdot _ => some (shF mskX3 .reg .reg .reg)
  -- OP 0x11 (R241 to R243, R246)
  | .fcvt _ => some (shF (mskGrp + mskX3) .reg .unused .unused)
  | .fcvts _ => some { d := .reg, a := .reg, b := .reg, fs := true
                       lay := .immM (mskGrp + mskX3 + 2 ^ 20 + 7 * 2 ^ 17) }
  | .f2i _ => some (shF (mskGrp + mskX3) .reg .unused .unused)
  | .i2f _ => some (shF (mskGrp + mskX3) .reg .unused .unused)
  | .fpack _ => some (shF (mskGrp + mskX3) .reg .reg .unused)
  | .funpack _ => some { shF (mskGrp + mskX3) .reg .unused .unused with d := .even }
  | .rand f => some { shF mskX3 .unused .unused .unused with
      extra := [(f.x3 = 0 && f.fs ≠ 0, 5, .fs), (2 ≤ f.x3, 10, .imm)] }
  -- OP 0x12 (R244)
  | .frcp _ => some (shF mskGrp .reg .unused .unused)
  | .frsq _ => some (shF mskGrp .reg .unused .unused)
  | .fsqrt _ => some (shF mskGrp .reg .unused .unused)
  | .fdiv _ => some (shF mskGrp .reg .reg .unused)
  | .fexp2 _ => some (shF mskGrp .reg .unused .unused)
  | .flog2 _ => some (shF mskGrp .reg .unused .unused)
  | .fsin _ => some (shF mskGrp .reg .unused .unused)
  | .fcos _ => some (shF mskGrp .reg .unused .unused)
  | .ftanh _ => some (shF mskGrp .reg .unused .unused)
  -- OP 0x13 (R247 to R250)
  | .vote f => some { d := if bits f.mX 0 2 = 3 then .mask else .reg, a := .reg
                      lay := .immMI (7 * 2 ^ 25 + 3 * 2 ^ 20) }
  | .shfl f => some { d := wideD (bitB f.mX 2), a := wide (bitB f.mX 2), b := .reg
                      lay := .immMI (7 * 2 ^ 25 + 7 * 2 ^ 20) }
  | .redux f =>
      let op := bits f.mX 0 3
      let w := bitB f.mX 4
      some { d := wideD (w && op < 6), a := wide (w && op < 6), fs := true, lay := .immMI (255 * 2 ^ 20)
             extra := [((op < 6 && f.fs ≠ 0) || (6 ≤ op && w) || (3 ≤ op && bitB f.mX 3), 10, .imm)] }
  | .scan f =>
      let op := bits f.mX 0 3
      some { d := .reg, a := .reg, fs := true, lay := .immMI (255 * 2 ^ 20)
             extra := [((op < 6 && f.fs ≠ 0) || (3 ≤ op && bitB f.mX 3) || op = 7, 10, .imm)] }
  | .matchL f => some { d := .mask, a := wide (bitB f.mX 0), lay := .immMI (7 * 2 ^ 25 + 2 ^ 20) }
  -- OP 0x14 (R255, R258)
  | .sdef _ => some { a := .kQuad, lay := .immMI (15 * 2 ^ 20) }
  | .sseek _ => some { a := .reg64, lay := .immMI (15 * 2 ^ 20) }
  | .spos _ => some { d := .pair, lay := .immMI (15 * 2 ^ 20) }
  | .sflag f => some { d := .pred, lay := .immMI (63 * 2 ^ 20), extra := [(bits f.immN 24 2 = 3, 10, .imm)] }
  | .chain _ => some { a := .reg64, b := .reg, lay := .immMI 0 }
  -- OP 0x20 (R265 to R269)
  | .ld f => some { d := .load (szBytes f.sz), a := .addr f.xh, lay := .immM (2 ^ 28 - 1)
                    extra := sxExtra f ++ szExtra f ++ hintExtra f }
  | .st f => some { a := .addr f.xh, b := .store (szBytes f.sz), lay := .immM (2 ^ 28 - 1 - mSX)
                    extra := szExtra f ++ hintExtra f }
  | .ldk f => some { d := .loadK (szBytes f.sz), a := .addrK f.xh, lay := .immM (2 ^ 28 - 1 - mSCO)
                     extra := sxExtra f ++ szExtra f ++ hintExtra f }
  | .ldpk f => some { d := if f.sx then .even else .reg, a := .addr f.xh, b := .reg, fs := true
                      lay := .immM (mSX + mHINT + mXH + mOFF), extra := hintExtra f }
  | .stpk f => some { a := .addr f.xh, b := .reg, c := if f.sx then .even else .reg, fs := true
                      lay := .immM (mSX + mHINT + mXH + mOFF), extra := hintExtra f }
  | .pref f => some { a := .addr f.xh, lay := .immM (mHINT + mXH + mOFF), extra := hintExtra f }
  | .stpair f => some { a := .addr f.xh, b := .store (szBytes f.sz), c := .addr f.xh
                        lay := .immM (2 ^ 28 - 1 - mHINT)
                        extra := [(f.sx && f.sz ≠ 0, 5, .imm),
                                  (f.sz = 2 || f.sz = 3 || 5 ≤ f.sz, 10, .imm)] }
  -- OP 0x21 (R270 to R272)
  | .lds f => some { d := .load (szBytes f.sz), a := .reg, lay := .immM (mSZ + mSX + mOFF)
                     extra := sxExtra f ++ szExtra f }
  | .sts f => some { a := .reg, b := .store (szBytes f.sz), lay := .immM (mSZ + mOFF), extra := szExtra f }
  | .ldq f => some { d := .load (szBytes f.sz), a := .reg, lay := .immM (mSZ + mSX + 7 * 2 ^ 18 + mOFF)
                     extra := sxExtra f ++ szExtra f }
  | .stq f => some { a := .reg, b := .store (szBytes f.sz), lay := .immM (mSZ + 7 * 2 ^ 18 + mOFF)
                     extra := szExtra f }
  | .ldmc f => some { a := .addr false, b := .reg, lay := .immM (mSZ + mHINT + 15 * 2 ^ 17 + mOFF)
                      extra := [(bits f.immN 17 4 = 0, 5, .imm), (3 ≤ f.sz, 10, .imm), (5 ≤ f.hint, 10, .imm)] }
  -- OP 0x22 (R273 to R276)
  | .atom f => some (shAtom f (.load (szBytes f.sz)) (.store (szBytes f.sz))
                     (if f.aop = 9 then .store (szBytes f.sz) else .unused) 9 false)
  | .atomf f => some (shAtom f (.load 4) (.store 4) .unused 2 true)
  | .lr f => some (shLrSc f (.load (szBytes f.sz)) .unused)
  | .sc f => some (shLrSc f .reg (.store (szBytes f.sz)))
  | .red f => some (shAtom f .unused (.store (szBytes f.sz)) .unused 8 false)
  | .redf f => some (shAtom f .unused (.store 4) .unused 2 true)
  | .lrHoldExpiry .. => none
  -- OP 0x23 (R278)
  | .fence f => some { lay := .immM mSCO, extra := [(f.sco = 0, 10, .imm)] }
  | .bind f => some { a := .addr (bitB f.immN 19), b := .reg64, c := .addr (bitB f.immN 19)
                      lay := .immM (255 * 2 ^ 20 + 2 ^ 19) }
  | .unbind _ => some { lay := .immM (255 * 2 ^ 20) }
  | .acq f => some { d := .pairOr112, a := .addr f.xh, lay := .immM (mXH + mSCO + mOFF)
                     extra := [(f.sco = 0, 10, .imm)] }
  | .acqGe f => some { d := .pairOr112, a := .addr f.xh, b := .reg64, lay := .immM (2 ^ 24 + mXH + mSCO + mOFF)
                       extra := [(f.sco = 0, 10, .imm)] }
  | .acqGeWake .. => none
  | .rel f => some { a := .addr f.xh, lay := .immM (mXH + mSCO + mOFF), extra := [(f.sco = 0, 10, .imm)] }
  | .bar f => some { lay := .immM (15 * 2 ^ 20 + mSCO), extra := [(f.sco < 3, 10, .imm)] }
  | .bara f => some { lay := .immM (15 * 2 ^ 20 + mSCO), extra := [(f.sco < 3, 10, .imm)] }
  | .barw f => some { lay := .immM (15 * 2 ^ 20 + mSCO), extra := [(f.sco < 3, 10, .imm)] }
  | .rrmodeOff f => some { lay := .immM (255 * 2 ^ 20 + 3 * 2 ^ 18)
                           extra := [(bits f.immN 18 2 = 3, 10, .imm)] }
  | .rrmodeRec f => some { a := .reg, b := .addr (bitB f.immN 17), c := .reg
                           lay := .immM (255 * 2 ^ 20 + 7 * 2 ^ 17) }
  | .rrmodePlay f => some { a := .reg, b := .addr (bitB f.immN 17), c := .reg
                            lay := .immM (255 * 2 ^ 20 + 7 * 2 ^ 17) }
  | .ordgate _ => some { d := .pair, lay := .immM (255 * 2 ^ 20) }
  -- OP 0x24 (R286)
  | .carve _ => some { d := .reg, a := .reg }
  | .cwb f => some (let all := bitB f.immN 27
      { a := if all then .unused else .addr f.xh, b := if all then .unused else .reg64
        lay := .immM (2 ^ 27 + (if all then 0 else mXH + mOFF)) })
  | .cinv f => some (let all := bitB f.immN 27
      { a := if all then .unused else .addr f.xh, b := if all then .unused else .reg64
        lay := .immM (2 ^ 27 + (if all then 0 else mXH + mOFF)) })
  | .cinvI f => some (let all := bitB f.immN 27
      { a := if all then .unused else .addr f.xh, b := if all then .unused else .reg64
        lay := .immM (2 ^ 27 + 2 ^ 26 + (if all then 0 else mXH + mOFF)) })
  -- OP 0x30 (R295, R296, R299, R300, R314 to R316)
  | .mxacq _ => some { d := .pred }
  | .mxrel _ => some {}
  | .engineRelease .. => none
  | .tdesc _ => some { a := .kOct, lay := .immM (15 * 2 ^ 20) }
  | .tmaskSet f => some { a := .kOct, lay := .immM (7 * 2 ^ 24 + 3 * 2 ^ 20)
                          extra := [(2 ≤ bits f.immN 25 2, 10, .imm)] }
  | .tmaskFirst _ => some { a := .reg, lay := .immM (7 * 2 ^ 24 + 3 * 2 ^ 20) }
  | .gdecl _ => some { a := .reg, lay := .immMI (7 * 2 ^ 20) }
  | .tamax _ => some { d := .reg, lay := .immM (15 * 2 ^ 20) }
  | .tscupd _ => some { a := .reg, b := .reg, fs := true, lay := .immM (255 * 2 ^ 20) }
  -- OP 0x31 (R303, R307, R310, R313)
  | .tmma _ => some (shTile 0xF8 true true false)
  | .tmmab _ => some (shTile 0xF8 true true false)
  | .tact f => some (shTile 7 true false false [(4 < bits f.immN 0 3, 10, .imm)])
  | .tew f => some (shTile 3 true true false [(bits f.immN 0 2 = 3, 10, .imm)])
  | .tred _ => some (shTile 3 true false false)
  | .ttrans _ => some (shTile 0 true false false)
  | .tscl _ => some (shTile 1 true true false)
  | .tcvt f => some (shTile 0x3F true false (bitB f.immN 0))
  | .tzero _ => some (shTile 0 false false false)
  | .taccld _ => some (shTile 0 true false false)
  | .taccst _ => some (shTile 0 true false false)
  | .tdrain _ => some (shTile 0x3F true false true)
  -- OP 0x32 (R318)
  | .tcopy f =>
      let xh := bitB f.immN 24
      some { d := .hOrZero, a := if bitB f.immN 26 then .reg else .addr xh
             b := if bitB f.immN 25 then .reg else .addr xh, c := .reg
             lay := .immM (7 * 2 ^ 24 + 7 * 2 ^ 21) }
  | .tcopyTile _ => some { d := .hOrZero
                           lay := .immM (2 ^ 27 + 7 * 2 ^ 21 + 15 * 2 ^ 16 + 15 * 2 ^ 12 + 2 ^ 11) }
  | .tgather f => some { d := .hOrZero, a := .reg, b := .addr (bitB f.immN 24), c := .reg
                         lay := .immM (127 * 2 ^ 21 + 4095 * 2 ^ 8)
                         extra := [(4 ≤ bits f.immN 21 3, 10, .imm)] }
  | .tscatter f => some { d := .hOrZero, a := .reg, b := .addr (bitB f.immN 24), c := .reg
                          lay := .immM (127 * 2 ^ 21 + 4095 * 2 ^ 8)
                          extra := [(4 ≤ bits f.immN 21 3, 10, .imm)] }
  | .tcoll f => some { d := .hOrZero, a := .addr false, b := .addr false, c := .reg
                       lay := .immM (7 * 2 ^ 25 + 7 * 2 ^ 21 + 255 * 2 ^ 12)
                       extra := [(5 ≤ bits f.immN 25 3 || 2 ≤ bits f.immN 21 3, 10, .imm)] }
  -- OP 0x33 (R322)
  | .hwait _ => some { a := .handle }
  | .htest _ => some { d := .pred, a := .handle }
  | .hcancel _ => some { a := .handle }
  | .hsleep _ => some { a := .handle }
  | .hstat _ => some { d := .pair, a := .handle, lay := .immM (2 ^ 20) }
  -- OP 0x38 (R332)
  | .recbegin f => some { d := .hOrZero, a := .addr (bitB f.immN 24), b := .reg, c := .reg
                          lay := .immM (2 ^ 27 + 2 ^ 24 + 65535) }
  | .recend _ => some { d := .hOrZero, lay := .immM 0 }
  | .recmark _ => some { d := .hOrZero, a := .reg, lay := .immM 0 }
  | .reverse _ => some { d := .hOrZero, a := .reg, b := .reg, lay := .immM 0 }
  | .logq f => some { d := .pair, lay := .immM (7 * 2 ^ 20), extra := [(6 ≤ bits f.immN 20 3, 10, .imm)] }
  -- OP 0x3C (R349)
  | .trap _ => some { lay := .immM 65535 }
  | .eret _ => some {}
  | .mfs f => some { d := if f.mW then .pair else .reg, lay := .immM (mskW + 4095)
                     extra := [(!srReadable f.sr || f.mW ≠ srWide f.sr, 10, .imm)] }
  | .mtsWcr f => some (shMts f)
  | .mtsXflagsClear f => some (shMts f)
  | .mtsFmt f => some (shMts f)
  | .mtsAmr f => some (shMts f)
  | .mtsSc f => some (shMts f)
  | .mtsMx f => some (shMts f)
  | .cycrd _ => some { d := .pair }
  | .launch f => some { d := .pair, a := .addr (bitB f.immN 24), lay := .immM (2 ^ 24 + 3 * 2 ^ 20) }
  | .tlbi f => some (let all := bitB f.immN 27
      { a := if all then .unused else .addr (bitB f.immN 24), b := if all then .unused else .reg64
        c := if bitB f.immN 26 then .reg else .unused
        lay := .immM (2 ^ 27 + 2 ^ 26 + (if all then 0 else 2 ^ 24)) })
  | .tlbiAcknowledge .. => none
  -- OP 0x3D
  | .scango _ => some { d := .reg, a := .reg, lay := .immM (2 ^ 27) }
  | .scanpoll _ => some { d := .pair, a := .reg }
  | .scanstop _ => some { d := .reg, a := .reg }
  | .coreret _ => some { d := .reg, a := .reg }
  | .halt _ => some { a := .reg }
  -- events of the device
  | .icacheFill .. => none
  | .variableLatencyCompletion .. => none
  | .fairnessOverdue .. => none
  | .sleepWake .. => none
  | .hsleepWake .. => none
  | .infuserCommandStart .. => none
  | .nativeStepComplete .. => none
  | .engineCommandCompletion .. => none
  | .collectiveComplete .. => none
  | .reportedTrapDelivery .. => none
  | .atomicUnitOperation .. => none
  | .replayDivergence .. => none
  | .pageWalkComplete .. => none
  | .remoteTimeout .. => none
  | .ualinkRemoteRequest .. => none
  | .yieldRequest .. => none
  | .workgroupSave .. => none
  | .safePointOverdue .. => none
  | .safePointSecondBudget .. => none
  | .bindCreate .. => none
  | .bindResume .. => none
  | .bindWithdrawCore .. => none
  | .bindReturnCore .. => none
  | .workgroupRetire .. => none
  | .launchRecordTake .. => none
  | .workgroupPlacement .. => none
  | .launchFinish .. => none
  | .deterministicMerge .. => none
  | .bufferFullRelease .. => none
  | .coreRenumber .. => none
  | .scanComplete .. => none
  | .scanAbort .. => none
  | .write .. => none
  | .read .. => none
  | .release .. => none
  | .launchFrame .. => none
  | .mgmtRead .. => none
  | .mgmtWrite .. => none
  | .mgmtWritePkgid .. => none
  | .mgmtWritePodid .. => none
  | .mgmtWriteIpctl .. => none
  | .mgmtWriteGroup .. => none
  | .ipaddrDadComplete .. => none
  | .mailboxAckTimer .. => none
  | .neighbourDiscovery .. => none
  | .icmpv6Echo .. => none
  | .hostLinkUp .. => none
  | .hello .. => none
  | .prove .. => none
  | .proveTimeout .. => none
  | .claim .. => none
  | .handover .. => none
  | .close .. => none
  | .electionWindowClose .. => none
  | .ownershipLapse .. => none
  | .load .. => none
  | .unload .. => none
  | .installSupervisor .. => none
  | .setSavePool .. => none
  | .qpfTranslationComplete .. => none
  | .supplyDroop .. => none
  | .supplyLevelRecovery .. => none
  | .holdEntry .. => none
  | .holdExit .. => none
  | .powerFail .. => none
  | .linkRetrain .. => none
  | .linkRetrainComplete .. => none
  | .softError .. => none
  | .errorEventCount .. => none
  | .errorWindowClose .. => none
  | .cntWrite .. => none
  | .streqWrite .. => none
  | .mapCommit .. => none
  | .mapApply .. => none
  | .hubRegisterWrite .. => none
  | .deviceReset .. => none
  | .selfTestComplete .. => none
  | .tamperAlarm .. => none
  | .glitchAlarm .. => none
  | .malformedFrame .. => none
  | .writePerformedAtL2 .. => none
  | .endToEndCrcMismatch .. => none
  | .shockSensorLatch .. => none

/-- The fields an instruction carries; events carry none. -/
def Instr.fields : Instr → Option Fields
  | .nop f => some f
  | .bra f => some f
  | .brx f => some f
  | .call f => some f
  | .callx f => some f
  | .ret f => some f
  | .exit f => some f
  | .yield f => some f
  | .sleep f => some f
  | .partset f => some f
  | .partget f => some f
  | .rjopen f => some f
  | .rjopenMask f => some f
  | .rjjoin f => some f
  | .rjquit f => some f
  | .rjwait f => some f
  | .rjtest f => some f
  | .rjmask f => some f
  | .rjclose f => some f
  | .orphanedSetTrap .. => none
  | .iadd f => some f
  | .isum3 f => some f
  | .isub f => some f
  | .ineg f => some f
  | .iabs f => some f
  | .imin f => some f
  | .imax f => some f
  | .isat f => some f
  | .icmp f => some f
  | .sel f => some f
  | .lea f => some f
  | .imul f => some f
  | .imulh f => some f
  | .imad f => some f
  | .imadw f => some f
  | .idiv f => some f
  | .irem f => some f
  | .and f => some f
  | .or f => some f
  | .xor f => some f
  | .not f => some f
  | .blut f => some f
  | .plut f => some f
  | .pmovGet f => some f
  | .pmovSet f => some f
  | .mov f => some f
  | .movi f => some f
  | .movk f => some f
  | .shl f => some f
  | .shr f => some f
  | .sar f => some f
  | .fshl f => some f
  | .fshr f => some f
  | .bfe f => some f
  | .bfi f => some f
  | .brev f => some f
  | .popc f => some f
  | .clz f => some f
  | .ctz f => some f
  | .sext f => some f
  | .zext f => some f
  | .fadd f => some f
  | .fsub f => some f
  | .fmul f => some f
  | .ffma f => some f
  | .fmin f => some f
  | .fmax f => some f
  | .fcmp f => some f
  | .fclass f => some f
  | .frnd f => some f
  | .fscale f => some f
  | .fdot f => some f
  | .fcvt f => some f
  | .fcvts f => some f
  | .f2i f => some f
  | .i2f f => some f
  | .fpack f => some f
  | .funpack f => some f
  | .rand f => some f
  | .frcp f => some f
  | .frsq f => some f
  | .fsqrt f => some f
  | .fdiv f => some f
  | .fexp2 f => some f
  | .flog2 f => some f
  | .fsin f => some f
  | .fcos f => some f
  | .ftanh f => some f
  | .vote f => some f
  | .shfl f => some f
  | .redux f => some f
  | .scan f => some f
  | .matchL f => some f
  | .sdef f => some f
  | .sseek f => some f
  | .spos f => some f
  | .sflag f => some f
  | .chain f => some f
  | .ld f => some f
  | .st f => some f
  | .ldk f => some f
  | .ldpk f => some f
  | .stpk f => some f
  | .pref f => some f
  | .stpair f => some f
  | .lds f => some f
  | .sts f => some f
  | .ldq f => some f
  | .stq f => some f
  | .ldmc f => some f
  | .atom f => some f
  | .atomf f => some f
  | .lr f => some f
  | .sc f => some f
  | .red f => some f
  | .redf f => some f
  | .lrHoldExpiry .. => none
  | .fence f => some f
  | .bind f => some f
  | .unbind f => some f
  | .acq f => some f
  | .acqGe f => some f
  | .acqGeWake .. => none
  | .rel f => some f
  | .bar f => some f
  | .bara f => some f
  | .barw f => some f
  | .rrmodeOff f => some f
  | .rrmodeRec f => some f
  | .rrmodePlay f => some f
  | .ordgate f => some f
  | .carve f => some f
  | .cwb f => some f
  | .cinv f => some f
  | .cinvI f => some f
  | .mxacq f => some f
  | .mxrel f => some f
  | .engineRelease .. => none
  | .tdesc f => some f
  | .tmaskSet f => some f
  | .tmaskFirst f => some f
  | .gdecl f => some f
  | .tamax f => some f
  | .tscupd f => some f
  | .tmma f => some f
  | .tmmab f => some f
  | .tact f => some f
  | .tew f => some f
  | .tred f => some f
  | .ttrans f => some f
  | .tscl f => some f
  | .tcvt f => some f
  | .tzero f => some f
  | .taccld f => some f
  | .taccst f => some f
  | .tdrain f => some f
  | .tcopy f => some f
  | .tcopyTile f => some f
  | .tgather f => some f
  | .tscatter f => some f
  | .tcoll f => some f
  | .hwait f => some f
  | .htest f => some f
  | .hcancel f => some f
  | .hsleep f => some f
  | .hstat f => some f
  | .recbegin f => some f
  | .recend f => some f
  | .recmark f => some f
  | .reverse f => some f
  | .logq f => some f
  | .trap f => some f
  | .eret f => some f
  | .mfs f => some f
  | .mtsWcr f => some f
  | .mtsXflagsClear f => some f
  | .mtsFmt f => some f
  | .mtsAmr f => some f
  | .mtsSc f => some f
  | .mtsMx f => some f
  | .cycrd f => some f
  | .launch f => some f
  | .tlbi f => some f
  | .tlbiAcknowledge .. => none
  | .scango f => some f
  | .scanpoll f => some f
  | .scanstop f => some f
  | .coreret f => some f
  | .halt f => some f
  | .icacheFill .. => none
  | .variableLatencyCompletion .. => none
  | .fairnessOverdue .. => none
  | .sleepWake .. => none
  | .hsleepWake .. => none
  | .infuserCommandStart .. => none
  | .nativeStepComplete .. => none
  | .engineCommandCompletion .. => none
  | .collectiveComplete .. => none
  | .reportedTrapDelivery .. => none
  | .atomicUnitOperation .. => none
  | .replayDivergence .. => none
  | .pageWalkComplete .. => none
  | .remoteTimeout .. => none
  | .ualinkRemoteRequest .. => none
  | .yieldRequest .. => none
  | .workgroupSave .. => none
  | .safePointOverdue .. => none
  | .safePointSecondBudget .. => none
  | .bindCreate .. => none
  | .bindResume .. => none
  | .bindWithdrawCore .. => none
  | .bindReturnCore .. => none
  | .workgroupRetire .. => none
  | .launchRecordTake .. => none
  | .workgroupPlacement .. => none
  | .launchFinish .. => none
  | .deterministicMerge .. => none
  | .bufferFullRelease .. => none
  | .coreRenumber .. => none
  | .scanComplete .. => none
  | .scanAbort .. => none
  | .write .. => none
  | .read .. => none
  | .release .. => none
  | .launchFrame .. => none
  | .mgmtRead .. => none
  | .mgmtWrite .. => none
  | .mgmtWritePkgid .. => none
  | .mgmtWritePodid .. => none
  | .mgmtWriteIpctl .. => none
  | .mgmtWriteGroup .. => none
  | .ipaddrDadComplete .. => none
  | .mailboxAckTimer .. => none
  | .neighbourDiscovery .. => none
  | .icmpv6Echo .. => none
  | .hostLinkUp .. => none
  | .hello .. => none
  | .prove .. => none
  | .proveTimeout .. => none
  | .claim .. => none
  | .handover .. => none
  | .close .. => none
  | .electionWindowClose .. => none
  | .ownershipLapse .. => none
  | .load .. => none
  | .unload .. => none
  | .installSupervisor .. => none
  | .setSavePool .. => none
  | .qpfTranslationComplete .. => none
  | .supplyDroop .. => none
  | .supplyLevelRecovery .. => none
  | .holdEntry .. => none
  | .holdExit .. => none
  | .powerFail .. => none
  | .linkRetrain .. => none
  | .linkRetrainComplete .. => none
  | .softError .. => none
  | .errorEventCount .. => none
  | .errorWindowClose .. => none
  | .cntWrite .. => none
  | .streqWrite .. => none
  | .mapCommit .. => none
  | .mapApply .. => none
  | .hubRegisterWrite .. => none
  | .deviceReset .. => none
  | .selfTestComplete .. => none
  | .tamperAlarm .. => none
  | .glitchAlarm .. => none
  | .malformedFrame .. => none
  | .writePerformedAtL2 .. => none
  | .endToEndCrcMismatch .. => none
  | .shockSensorLatch .. => none

/-- The first encoding check that an instruction fails (R445 steps 2 and 4 without privilege and declarations):
ST = 7 first, then reasons 0x05 to 0x0A. -/
def encodingFailure (i : Instr) : Option (Nat × Fld) :=
  match shape i, i.fields with
  | some q, some f => if f.st = 7 then some (2, .st) else firstFailure (q.failures f)
  | _, _ => none

/-- The privilege level an instruction requires (R348, R349, R350): 0 P, 1 S, 2 M. -/
def privLevel : Instr → Nat
  | .eret _ | .halt _ => 1
  | .mfs f => if f.sr = 0x300 || f.sr = 0x302 || f.sr = 0x304 || f.sr = 0x306 then 1 else 0
  | .tlbi f => if bitB f.immN 26 then 2 else 1
  | .scango _ | .scanpoll _ | .scanstop _ | .coreret _ => 2
  | .nop .. => 0
  | .bra .. => 0
  | .brx .. => 0
  | .call .. => 0
  | .callx .. => 0
  | .ret .. => 0
  | .exit .. => 0
  | .yield .. => 0
  | .sleep .. => 0
  | .partset .. => 0
  | .partget .. => 0
  | .rjopen .. => 0
  | .rjopenMask .. => 0
  | .rjjoin .. => 0
  | .rjquit .. => 0
  | .rjwait .. => 0
  | .rjtest .. => 0
  | .rjmask .. => 0
  | .rjclose .. => 0
  | .orphanedSetTrap .. => 0
  | .iadd .. => 0
  | .isum3 .. => 0
  | .isub .. => 0
  | .ineg .. => 0
  | .iabs .. => 0
  | .imin .. => 0
  | .imax .. => 0
  | .isat .. => 0
  | .icmp .. => 0
  | .sel .. => 0
  | .lea .. => 0
  | .imul .. => 0
  | .imulh .. => 0
  | .imad .. => 0
  | .imadw .. => 0
  | .idiv .. => 0
  | .irem .. => 0
  | .and .. => 0
  | .or .. => 0
  | .xor .. => 0
  | .not .. => 0
  | .blut .. => 0
  | .plut .. => 0
  | .pmovGet .. => 0
  | .pmovSet .. => 0
  | .mov .. => 0
  | .movi .. => 0
  | .movk .. => 0
  | .shl .. => 0
  | .shr .. => 0
  | .sar .. => 0
  | .fshl .. => 0
  | .fshr .. => 0
  | .bfe .. => 0
  | .bfi .. => 0
  | .brev .. => 0
  | .popc .. => 0
  | .clz .. => 0
  | .ctz .. => 0
  | .sext .. => 0
  | .zext .. => 0
  | .fadd .. => 0
  | .fsub .. => 0
  | .fmul .. => 0
  | .ffma .. => 0
  | .fmin .. => 0
  | .fmax .. => 0
  | .fcmp .. => 0
  | .fclass .. => 0
  | .frnd .. => 0
  | .fscale .. => 0
  | .fdot .. => 0
  | .fcvt .. => 0
  | .fcvts .. => 0
  | .f2i .. => 0
  | .i2f .. => 0
  | .fpack .. => 0
  | .funpack .. => 0
  | .rand .. => 0
  | .frcp .. => 0
  | .frsq .. => 0
  | .fsqrt .. => 0
  | .fdiv .. => 0
  | .fexp2 .. => 0
  | .flog2 .. => 0
  | .fsin .. => 0
  | .fcos .. => 0
  | .ftanh .. => 0
  | .vote .. => 0
  | .shfl .. => 0
  | .redux .. => 0
  | .scan .. => 0
  | .matchL .. => 0
  | .sdef .. => 0
  | .sseek .. => 0
  | .spos .. => 0
  | .sflag .. => 0
  | .chain .. => 0
  | .ld .. => 0
  | .st .. => 0
  | .ldk .. => 0
  | .ldpk .. => 0
  | .stpk .. => 0
  | .pref .. => 0
  | .stpair .. => 0
  | .lds .. => 0
  | .sts .. => 0
  | .ldq .. => 0
  | .stq .. => 0
  | .ldmc .. => 0
  | .atom .. => 0
  | .atomf .. => 0
  | .lr .. => 0
  | .sc .. => 0
  | .red .. => 0
  | .redf .. => 0
  | .lrHoldExpiry .. => 0
  | .fence .. => 0
  | .bind .. => 0
  | .unbind .. => 0
  | .acq .. => 0
  | .acqGe .. => 0
  | .acqGeWake .. => 0
  | .rel .. => 0
  | .bar .. => 0
  | .bara .. => 0
  | .barw .. => 0
  | .rrmodeOff .. => 0
  | .rrmodeRec .. => 0
  | .rrmodePlay .. => 0
  | .ordgate .. => 0
  | .carve .. => 0
  | .cwb .. => 0
  | .cinv .. => 0
  | .cinvI .. => 0
  | .mxacq .. => 0
  | .mxrel .. => 0
  | .engineRelease .. => 0
  | .tdesc .. => 0
  | .tmaskSet .. => 0
  | .tmaskFirst .. => 0
  | .gdecl .. => 0
  | .tamax .. => 0
  | .tscupd .. => 0
  | .tmma .. => 0
  | .tmmab .. => 0
  | .tact .. => 0
  | .tew .. => 0
  | .tred .. => 0
  | .ttrans .. => 0
  | .tscl .. => 0
  | .tcvt .. => 0
  | .tzero .. => 0
  | .taccld .. => 0
  | .taccst .. => 0
  | .tdrain .. => 0
  | .tcopy .. => 0
  | .tcopyTile .. => 0
  | .tgather .. => 0
  | .tscatter .. => 0
  | .tcoll .. => 0
  | .hwait .. => 0
  | .htest .. => 0
  | .hcancel .. => 0
  | .hsleep .. => 0
  | .hstat .. => 0
  | .recbegin .. => 0
  | .recend .. => 0
  | .recmark .. => 0
  | .reverse .. => 0
  | .logq .. => 0
  | .trap .. => 0
  | .mtsWcr .. => 0
  | .mtsXflagsClear .. => 0
  | .mtsFmt .. => 0
  | .mtsAmr .. => 0
  | .mtsSc .. => 0
  | .mtsMx .. => 0
  | .cycrd .. => 0
  | .launch .. => 0
  | .tlbiAcknowledge .. => 0
  | .icacheFill .. => 0
  | .variableLatencyCompletion .. => 0
  | .fairnessOverdue .. => 0
  | .sleepWake .. => 0
  | .hsleepWake .. => 0
  | .infuserCommandStart .. => 0
  | .nativeStepComplete .. => 0
  | .engineCommandCompletion .. => 0
  | .collectiveComplete .. => 0
  | .reportedTrapDelivery .. => 0
  | .atomicUnitOperation .. => 0
  | .replayDivergence .. => 0
  | .pageWalkComplete .. => 0
  | .remoteTimeout .. => 0
  | .ualinkRemoteRequest .. => 0
  | .yieldRequest .. => 0
  | .workgroupSave .. => 0
  | .safePointOverdue .. => 0
  | .safePointSecondBudget .. => 0
  | .bindCreate .. => 0
  | .bindResume .. => 0
  | .bindWithdrawCore .. => 0
  | .bindReturnCore .. => 0
  | .workgroupRetire .. => 0
  | .launchRecordTake .. => 0
  | .workgroupPlacement .. => 0
  | .launchFinish .. => 0
  | .deterministicMerge .. => 0
  | .bufferFullRelease .. => 0
  | .coreRenumber .. => 0
  | .scanComplete .. => 0
  | .scanAbort .. => 0
  | .write .. => 0
  | .read .. => 0
  | .release .. => 0
  | .launchFrame .. => 0
  | .mgmtRead .. => 0
  | .mgmtWrite .. => 0
  | .mgmtWritePkgid .. => 0
  | .mgmtWritePodid .. => 0
  | .mgmtWriteIpctl .. => 0
  | .mgmtWriteGroup .. => 0
  | .ipaddrDadComplete .. => 0
  | .mailboxAckTimer .. => 0
  | .neighbourDiscovery .. => 0
  | .icmpv6Echo .. => 0
  | .hostLinkUp .. => 0
  | .hello .. => 0
  | .prove .. => 0
  | .proveTimeout .. => 0
  | .claim .. => 0
  | .handover .. => 0
  | .close .. => 0
  | .electionWindowClose .. => 0
  | .ownershipLapse .. => 0
  | .load .. => 0
  | .unload .. => 0
  | .installSupervisor .. => 0
  | .setSavePool .. => 0
  | .qpfTranslationComplete .. => 0
  | .supplyDroop .. => 0
  | .supplyLevelRecovery .. => 0
  | .holdEntry .. => 0
  | .holdExit .. => 0
  | .powerFail .. => 0
  | .linkRetrain .. => 0
  | .linkRetrainComplete .. => 0
  | .softError .. => 0
  | .errorEventCount .. => 0
  | .errorWindowClose .. => 0
  | .cntWrite .. => 0
  | .streqWrite .. => 0
  | .mapCommit .. => 0
  | .mapApply .. => 0
  | .hubRegisterWrite .. => 0
  | .deviceReset .. => 0
  | .selfTestComplete .. => 0
  | .tamperAlarm .. => 0
  | .glitchAlarm .. => 0
  | .malformedFrame .. => 0
  | .writePerformedAtL2 .. => 0
  | .endToEndCrcMismatch .. => 0
  | .shockSensorLatch .. => 0

/-- OP and FN of an instruction in the grid of R200. -/
def opFn : Instr → Option (Nat × Nat)
  | .nop _ => some (0x00, 0)
  | .bra _ => some (0x00, 1)
  | .brx _ => some (0x00, 2)
  | .call _ => some (0x00, 3)
  | .callx _ => some (0x00, 4)
  | .ret _ => some (0x00, 5)
  | .exit _ => some (0x00, 6)
  | .yield _ => some (0x00, 7)
  | .sleep _ => some (0x00, 8)
  | .partset _ => some (0x00, 9)
  | .partget _ => some (0x00, 10)
  | .rjopen _ => some (0x01, 0)
  | .rjopenMask _ => some (0x01, 0)
  | .rjjoin _ => some (0x01, 1)
  | .rjquit _ => some (0x01, 2)
  | .rjwait _ => some (0x01, 3)
  | .rjtest _ => some (0x01, 4)
  | .rjmask _ => some (0x01, 5)
  | .rjclose _ => some (0x01, 6)
  | .orphanedSetTrap .. => none
  | .iadd _ => some (0x02, 0)
  | .isum3 _ => some (0x02, 1)
  | .isub _ => some (0x02, 2)
  | .ineg _ => some (0x02, 3)
  | .iabs _ => some (0x02, 4)
  | .imin _ => some (0x02, 5)
  | .imax _ => some (0x02, 6)
  | .isat _ => some (0x02, 7)
  | .icmp _ => some (0x02, 8)
  | .sel _ => some (0x02, 9)
  | .lea _ => some (0x02, 10)
  | .imul _ => some (0x03, 0)
  | .imulh _ => some (0x03, 1)
  | .imad _ => some (0x03, 2)
  | .imadw _ => some (0x03, 3)
  | .idiv _ => some (0x03, 4)
  | .irem _ => some (0x03, 5)
  | .and _ => some (0x04, 0)
  | .or _ => some (0x04, 1)
  | .xor _ => some (0x04, 2)
  | .not _ => some (0x04, 3)
  | .blut _ => some (0x04, 4)
  | .plut _ => some (0x04, 5)
  | .pmovGet _ => some (0x04, 6)
  | .pmovSet _ => some (0x04, 6)
  | .mov _ => some (0x04, 7)
  | .movi _ => some (0x04, 8)
  | .movk _ => some (0x04, 9)
  | .shl _ => some (0x05, 0)
  | .shr _ => some (0x05, 1)
  | .sar _ => some (0x05, 2)
  | .fshl _ => some (0x05, 3)
  | .fshr _ => some (0x05, 4)
  | .bfe _ => some (0x05, 5)
  | .bfi _ => some (0x05, 6)
  | .brev _ => some (0x05, 7)
  | .popc _ => some (0x05, 8)
  | .clz _ => some (0x05, 9)
  | .ctz _ => some (0x05, 10)
  | .sext _ => some (0x05, 11)
  | .zext _ => some (0x05, 12)
  | .fadd _ => some (0x10, 0)
  | .fsub _ => some (0x10, 1)
  | .fmul _ => some (0x10, 2)
  | .ffma _ => some (0x10, 3)
  | .fmin _ => some (0x10, 4)
  | .fmax _ => some (0x10, 5)
  | .fcmp _ => some (0x10, 6)
  | .fclass _ => some (0x10, 7)
  | .frnd _ => some (0x10, 8)
  | .fscale _ => some (0x10, 9)
  | .fdot _ => some (0x10, 10)
  | .fcvt _ => some (0x11, 0)
  | .fcvts _ => some (0x11, 1)
  | .f2i _ => some (0x11, 2)
  | .i2f _ => some (0x11, 3)
  | .fpack _ => some (0x11, 4)
  | .funpack _ => some (0x11, 5)
  | .rand _ => some (0x11, 6)
  | .frcp _ => some (0x12, 0)
  | .frsq _ => some (0x12, 1)
  | .fsqrt _ => some (0x12, 2)
  | .fdiv _ => some (0x12, 3)
  | .fexp2 _ => some (0x12, 4)
  | .flog2 _ => some (0x12, 5)
  | .fsin _ => some (0x12, 6)
  | .fcos _ => some (0x12, 7)
  | .ftanh _ => some (0x12, 8)
  | .vote _ => some (0x13, 0)
  | .shfl _ => some (0x13, 1)
  | .redux _ => some (0x13, 2)
  | .scan _ => some (0x13, 3)
  | .matchL _ => some (0x13, 4)
  | .sdef _ => some (0x14, 0)
  | .sseek _ => some (0x14, 1)
  | .spos _ => some (0x14, 2)
  | .sflag _ => some (0x14, 3)
  | .chain _ => some (0x14, 4)
  | .ld _ => some (0x20, 0)
  | .st _ => some (0x20, 1)
  | .ldk _ => some (0x20, 2)
  | .ldpk _ => some (0x20, 3)
  | .stpk _ => some (0x20, 4)
  | .pref _ => some (0x20, 5)
  | .stpair _ => some (0x20, 6)
  | .lds _ => some (0x21, 0)
  | .sts _ => some (0x21, 1)
  | .ldq _ => some (0x21, 2)
  | .stq _ => some (0x21, 3)
  | .ldmc _ => some (0x21, 4)
  | .atom _ => some (0x22, 0)
  | .atomf _ => some (0x22, 1)
  | .lr _ => some (0x22, 2)
  | .sc _ => some (0x22, 3)
  | .red _ => some (0x22, 4)
  | .redf _ => some (0x22, 5)
  | .lrHoldExpiry .. => none
  | .fence _ => some (0x23, 0)
  | .bind _ => some (0x23, 1)
  | .unbind _ => some (0x23, 2)
  | .acq _ => some (0x23, 3)
  | .acqGe _ => some (0x23, 3)
  | .acqGeWake .. => none
  | .rel _ => some (0x23, 4)
  | .bar _ => some (0x23, 5)
  | .bara _ => some (0x23, 6)
  | .barw _ => some (0x23, 7)
  | .rrmodeOff _ => some (0x23, 8)
  | .rrmodeRec _ => some (0x23, 8)
  | .rrmodePlay _ => some (0x23, 8)
  | .ordgate _ => some (0x23, 9)
  | .carve _ => some (0x24, 0)
  | .cwb _ => some (0x24, 1)
  | .cinv _ => some (0x24, 2)
  | .cinvI _ => some (0x24, 2)
  | .mxacq _ => some (0x30, 0)
  | .mxrel _ => some (0x30, 1)
  | .engineRelease .. => none
  | .tdesc _ => some (0x30, 2)
  | .tmaskSet _ => some (0x30, 3)
  | .tmaskFirst _ => some (0x30, 3)
  | .gdecl _ => some (0x30, 4)
  | .tamax _ => some (0x30, 5)
  | .tscupd _ => some (0x30, 6)
  | .tmma _ => some (0x31, 0)
  | .tmmab _ => some (0x31, 1)
  | .tact _ => some (0x31, 2)
  | .tew _ => some (0x31, 3)
  | .tred _ => some (0x31, 4)
  | .ttrans _ => some (0x31, 5)
  | .tscl _ => some (0x31, 6)
  | .tcvt _ => some (0x31, 7)
  | .tzero _ => some (0x31, 8)
  | .taccld _ => some (0x31, 9)
  | .taccst _ => some (0x31, 10)
  | .tdrain _ => some (0x31, 11)
  | .tcopy _ => some (0x32, 0)
  | .tcopyTile _ => some (0x32, 0)
  | .tgather _ => some (0x32, 1)
  | .tscatter _ => some (0x32, 2)
  | .tcoll _ => some (0x32, 3)
  | .hwait _ => some (0x33, 0)
  | .htest _ => some (0x33, 1)
  | .hcancel _ => some (0x33, 2)
  | .hsleep _ => some (0x33, 3)
  | .hstat _ => some (0x33, 4)
  | .recbegin _ => some (0x38, 0)
  | .recend _ => some (0x38, 1)
  | .recmark _ => some (0x38, 2)
  | .reverse _ => some (0x38, 3)
  | .logq _ => some (0x38, 4)
  | .trap _ => some (0x3C, 0)
  | .eret _ => some (0x3C, 1)
  | .mfs _ => some (0x3C, 2)
  | .mtsWcr _ => some (0x3C, 3)
  | .mtsXflagsClear _ => some (0x3C, 3)
  | .mtsFmt _ => some (0x3C, 3)
  | .mtsAmr _ => some (0x3C, 3)
  | .mtsSc _ => some (0x3C, 3)
  | .mtsMx _ => some (0x3C, 3)
  | .cycrd _ => some (0x3C, 4)
  | .launch _ => some (0x3C, 5)
  | .tlbi _ => some (0x3C, 6)
  | .tlbiAcknowledge .. => none
  | .scango _ => some (0x3D, 0)
  | .scanpoll _ => some (0x3D, 1)
  | .scanstop _ => some (0x3D, 2)
  | .coreret _ => some (0x3D, 3)
  | .halt _ => some (0x3D, 4)
  | .icacheFill .. => none
  | .variableLatencyCompletion .. => none
  | .fairnessOverdue .. => none
  | .sleepWake .. => none
  | .hsleepWake .. => none
  | .infuserCommandStart .. => none
  | .nativeStepComplete .. => none
  | .engineCommandCompletion .. => none
  | .collectiveComplete .. => none
  | .reportedTrapDelivery .. => none
  | .atomicUnitOperation .. => none
  | .replayDivergence .. => none
  | .pageWalkComplete .. => none
  | .remoteTimeout .. => none
  | .ualinkRemoteRequest .. => none
  | .yieldRequest .. => none
  | .workgroupSave .. => none
  | .safePointOverdue .. => none
  | .safePointSecondBudget .. => none
  | .bindCreate .. => none
  | .bindResume .. => none
  | .bindWithdrawCore .. => none
  | .bindReturnCore .. => none
  | .workgroupRetire .. => none
  | .launchRecordTake .. => none
  | .workgroupPlacement .. => none
  | .launchFinish .. => none
  | .deterministicMerge .. => none
  | .bufferFullRelease .. => none
  | .coreRenumber .. => none
  | .scanComplete .. => none
  | .scanAbort .. => none
  | .write .. => none
  | .read .. => none
  | .release .. => none
  | .launchFrame .. => none
  | .mgmtRead .. => none
  | .mgmtWrite .. => none
  | .mgmtWritePkgid .. => none
  | .mgmtWritePodid .. => none
  | .mgmtWriteIpctl .. => none
  | .mgmtWriteGroup .. => none
  | .ipaddrDadComplete .. => none
  | .mailboxAckTimer .. => none
  | .neighbourDiscovery .. => none
  | .icmpv6Echo .. => none
  | .hostLinkUp .. => none
  | .hello .. => none
  | .prove .. => none
  | .proveTimeout .. => none
  | .claim .. => none
  | .handover .. => none
  | .close .. => none
  | .electionWindowClose .. => none
  | .ownershipLapse .. => none
  | .load .. => none
  | .unload .. => none
  | .installSupervisor .. => none
  | .setSavePool .. => none
  | .qpfTranslationComplete .. => none
  | .supplyDroop .. => none
  | .supplyLevelRecovery .. => none
  | .holdEntry .. => none
  | .holdExit .. => none
  | .powerFail .. => none
  | .linkRetrain .. => none
  | .linkRetrainComplete .. => none
  | .softError .. => none
  | .errorEventCount .. => none
  | .errorWindowClose .. => none
  | .cntWrite .. => none
  | .streqWrite .. => none
  | .mapCommit .. => none
  | .mapApply .. => none
  | .hubRegisterWrite .. => none
  | .deviceReset .. => none
  | .selfTestComplete .. => none
  | .tamperAlarm .. => none
  | .glitchAlarm .. => none
  | .malformedFrame .. => none
  | .writePerformedAtL2 .. => none
  | .endToEndCrcMismatch .. => none
  | .shockSensorLatch .. => none
end Sys2Proof
end

