-- ==== Sys2Proof/WellFormed.lean ====
section
/-!
DEFINITION. Well-formed instructions: those that no encoding check of R443 refuses (the checks themselves stand in
Machine/Encoding.lean).  An event of the device is well formed as it stands.
-/

namespace Sys2Proof

/-- No encoding check refuses the instruction. -/
abbrev WellFormed (i : Instr) : Prop := encodingFailure i = none

/-- The same, as a Boolean. -/
def wellFormed (i : Instr) : Bool := (encodingFailure i).isNone

end Sys2Proof
end

