-- ==== Sys2Proof/Decode.lean ====
section
/-!
DEFINITION. The decoder, total on any bytes: a stored form (R190) to its canonical word, a canonical word (R186) to
an instruction or a refusal by name (R200, R448), a bundle's control word (R191, R192); and after it the encoder,
from the same tables.
-/

namespace Sys2Proof

/-- Why bytes are no instruction. -/
inductive DecodeErr where
  /-- fewer bytes than the length code says -/
  | truncated
  /-- OP and FN name no instruction (R200): reason 0x01 when issued -/
  | reservedOpFn (op fn : Nat)
  deriving DecidableEq, Repr

/-- The length in bytes that a length code names (R190). -/
def formLength (code : Nat) : Nat :=
  if code = 0 then 4 else if code = 1 then 6 else if code = 2 then 8 else 12

/-- The canonical word of the stored form at the head of the bytes, and its length (R190). -/
def expandForm (bs : List Byte) : Option (CWord × Nat) :=
  match bs with
  | [] => none
  | b :: _ =>
    let n := formLength (b.toNat % 4)
    if bs.length < n then none
    else some (BitVec.ofNat 96 (ofLE (bs.take n) / 4), n)

/-- OP and FN of a canonical word (R186). -/
def wordOp (w : CWord) : Nat := bits w.toNat 0 8
def wordFn (w : CWord) : Nat := bits w.toNat 8 4

/-- The other fields of a canonical word (R186). -/
def fieldsOf (w : CWord) : Fields where
  stall := w.extractLsb' 12 4
  gp := w.extractLsb' 16 3
  gn := w.getLsbD 19
  d := w.extractLsb' 20 8
  a := w.extractLsb' 28 8
  b := w.extractLsb' 36 8
  fs := w.extractLsb' 44 3
  sp := w.getLsbD 47
  st := w.extractLsb' 48 3
  wm := w.extractLsb' 51 6
  c := w.extractLsb' 57 8
  y := w.getLsbD 65
  imm := w.extractLsb' 66 28

/-- OP 0x00 of the grid (R200). -/
def selectOp00 (fn : Nat) (f : Fields) : Option Instr :=
  match fn with
  | 0 => some (.nop f)
  | 1 => some (.bra f)
  | 2 => some (.brx f)
  | 3 => some (.call f)
  | 4 => some (.callx f)
  | 5 => some (.ret f)
  | 6 => some (.exit f)
  | 7 => some (.yield f)
  | 8 => some (.sleep f)
  | 9 => some (.partset f)
  | 10 => some (.partget f)
  | _ => none

/-- OP 0x01 of the grid (R200). -/
def selectOp01 (fn : Nat) (f : Fields) : Option Instr :=
  match fn with
  | 0 => some (if bitB f.immN 24 then .rjopenMask f else .rjopen f)
  | 1 => some (.rjjoin f)
  | 2 => some (.rjquit f)
  | 3 => some (.rjwait f)
  | 4 => some (.rjtest f)
  | 5 => some (.rjmask f)
  | 6 => some (.rjclose f)
  | _ => none

/-- OP 0x02 of the grid (R200). -/
def selectOp02 (fn : Nat) (f : Fields) : Option Instr :=
  match fn with
  | 0 => some (.iadd f)
  | 1 => some (.isum3 f)
  | 2 => some (.isub f)
  | 3 => some (.ineg f)
  | 4 => some (.iabs f)
  | 5 => some (.imin f)
  | 6 => some (.imax f)
  | 7 => some (.isat f)
  | 8 => some (.icmp f)
  | 9 => some (.sel f)
  | 10 => some (.lea f)
  | _ => none

/-- OP 0x03 of the grid (R200). -/
def selectOp03 (fn : Nat) (f : Fields) : Option Instr :=
  match fn with
  | 0 => some (.imul f)
  | 1 => some (.imulh f)
  | 2 => some (.imad f)
  | 3 => some (.imadw f)
  | 4 => some (.idiv f)
  | 5 => some (.irem f)
  | _ => none

/-- OP 0x04 of the grid (R200). -/
def selectOp04 (fn : Nat) (f : Fields) : Option Instr :=
  match fn with
  | 0 => some (.and f)
  | 1 => some (.or f)
  | 2 => some (.xor f)
  | 3 => some (.not f)
  | 4 => some (.blut f)
  | 5 => some (.plut f)
  | 6 => some (if bitB f.immN 20 then .pmovSet f else .pmovGet f)
  | 7 => some (.mov f)
  | 8 => some (.movi f)
  | 9 => some (.movk f)
  | _ => none

/-- OP 0x05 of the grid (R200). -/
def selectOp05 (fn : Nat) (f : Fields) : Option Instr :=
  match fn with
  | 0 => some (.shl f)
  | 1 => some (.shr f)
  | 2 => some (.sar f)
  | 3 => some (.fshl f)
  | 4 => some (.fshr f)
  | 5 => some (.bfe f)
  | 6 => some (.bfi f)
  | 7 => some (.brev f)
  | 8 => some (.popc f)
  | 9 => some (.clz f)
  | 10 => some (.ctz f)
  | 11 => some (.sext f)
  | 12 => some (.zext f)
  | _ => none

/-- OP 0x10 of the grid (R200). -/
def selectOp10 (fn : Nat) (f : Fields) : Option Instr :=
  match fn with
  | 0 => some (.fadd f)
  | 1 => some (.fsub f)
  | 2 => some (.fmul f)
  | 3 => some (.ffma f)
  | 4 => some (.fmin f)
  | 5 => some (.fmax f)
  | 6 => some (.fcmp f)
  | 7 => some (.fclass f)
  | 8 => some (.frnd f)
  | 9 => some (.fscale f)
  | 10 => some (.fdot f)
  | _ => none

/-- OP 0x11 of the grid (R200). -/
def selectOp11 (fn : Nat) (f : Fields) : Option Instr :=
  match fn with
  | 0 => some (.fcvt f)
  | 1 => some (.fcvts f)
  | 2 => some (.f2i f)
  | 3 => some (.i2f f)
  | 4 => some (.fpack f)
  | 5 => some (.funpack f)
  | 6 => some (.rand f)
  | _ => none

/-- OP 0x12 of the grid (R200). -/
def selectOp12 (fn : Nat) (f : Fields) : Option Instr :=
  match fn with
  | 0 => some (.frcp f)
  | 1 => some (.frsq f)
  | 2 => some (.fsqrt f)
  | 3 => some (.fdiv f)
  | 4 => some (.fexp2 f)
  | 5 => some (.flog2 f)
  | 6 => some (.fsin f)
  | 7 => some (.fcos f)
  | 8 => some (.ftanh f)
  | _ => none

/-- OP 0x13 of the grid (R200). -/
def selectOp13 (fn : Nat) (f : Fields) : Option Instr :=
  match fn with
  | 0 => some (.vote f)
  | 1 => some (.shfl f)
  | 2 => some (.redux f)
  | 3 => some (.scan f)
  | 4 => some (.matchL f)
  | _ => none

/-- OP 0x14 of the grid (R200). -/
def selectOp14 (fn : Nat) (f : Fields) : Option Instr :=
  match fn with
  | 0 => some (.sdef f)
  | 1 => some (.sseek f)
  | 2 => some (.spos f)
  | 3 => some (.sflag f)
  | 4 => some (.chain f)
  | _ => none

/-- OP 0x20 of the grid (R200). -/
def selectOp20 (fn : Nat) (f : Fields) : Option Instr :=
  match fn with
  | 0 => some (.ld f)
  | 1 => some (.st f)
  | 2 => some (.ldk f)
  | 3 => some (.ldpk f)
  | 4 => some (.stpk f)
  | 5 => some (.pref f)
  | 6 => some (.stpair f)
  | _ => none

/-- OP 0x21 of the grid (R200). -/
def selectOp21 (fn : Nat) (f : Fields) : Option Instr :=
  match fn with
  | 0 => some (.lds f)
  | 1 => some (.sts f)
  | 2 => some (.ldq f)
  | 3 => some (.stq f)
  | 4 => some (.ldmc f)
  | _ => none

/-- OP 0x22 of the grid (R200). -/
def selectOp22 (fn : Nat) (f : Fields) : Option Instr :=
  match fn with
  | 0 => some (.atom f)
  | 1 => some (.atomf f)
  | 2 => some (.lr f)
  | 3 => some (.sc f)
  | 4 => some (.red f)
  | 5 => some (.redf f)
  | _ => none

/-- OP 0x23 of the grid (R200). -/
def selectOp23 (fn : Nat) (f : Fields) : Option Instr :=
  match fn with
  | 0 => some (.fence f)
  | 1 => some (.bind f)
  | 2 => some (.unbind f)
  | 3 => some (if bitB f.immN 24 then .acqGe f else .acq f)
  | 4 => some (.rel f)
  | 5 => some (.bar f)
  | 6 => some (.bara f)
  | 7 => some (.barw f)
  | 8 => some (if bits f.immN 18 2 = 1 then .rrmodeRec f else if bits f.immN 18 2 = 2 then .rrmodePlay f else .rrmodeOff f)
  | 9 => some (.ordgate f)
  | _ => none

/-- OP 0x24 of the grid (R200). -/
def selectOp24 (fn : Nat) (f : Fields) : Option Instr :=
  match fn with
  | 0 => some (.carve f)
  | 1 => some (.cwb f)
  | 2 => some (if bitB f.immN 26 then .cinvI f else .cinv f)
  | _ => none

/-- OP 0x30 of the grid (R200). -/
def selectOp30 (fn : Nat) (f : Fields) : Option Instr :=
  match fn with
  | 0 => some (.mxacq f)
  | 1 => some (.mxrel f)
  | 2 => some (.tdesc f)
  | 3 => some (if bits f.immN 25 2 = 1 then .tmaskFirst f else .tmaskSet f)
  | 4 => some (.gdecl f)
  | 5 => some (.tamax f)
  | 6 => some (.tscupd f)
  | _ => none

/-- OP 0x31 of the grid (R200). -/
def selectOp31 (fn : Nat) (f : Fields) : Option Instr :=
  match fn with
  | 0 => some (.tmma f)
  | 1 => some (.tmmab f)
  | 2 => some (.tact f)
  | 3 => some (.tew f)
  | 4 => some (.tred f)
  | 5 => some (.ttrans f)
  | 6 => some (.tscl f)
  | 7 => some (.tcvt f)
  | 8 => some (.tzero f)
  | 9 => some (.taccld f)
  | 10 => some (.taccst f)
  | 11 => some (.tdrain f)
  | _ => none

/-- OP 0x32 of the grid (R200). -/
def selectOp32 (fn : Nat) (f : Fields) : Option Instr :=
  match fn with
  | 0 => some (if bitB f.immN 27 then .tcopyTile f else .tcopy f)
  | 1 => some (.tgather f)
  | 2 => some (.tscatter f)
  | 3 => some (.tcoll f)
  | _ => none

/-- OP 0x33 of the grid (R200). -/
def selectOp33 (fn : Nat) (f : Fields) : Option Instr :=
  match fn with
  | 0 => some (.hwait f)
  | 1 => some (.htest f)
  | 2 => some (.hcancel f)
  | 3 => some (.hsleep f)
  | 4 => some (.hstat f)
  | _ => none

/-- OP 0x38 of the grid (R200). -/
def selectOp38 (fn : Nat) (f : Fields) : Option Instr :=
  match fn with
  | 0 => some (.recbegin f)
  | 1 => some (.recend f)
  | 2 => some (.recmark f)
  | 3 => some (.reverse f)
  | 4 => some (.logq f)
  | _ => none

/-- OP 0x3C of the grid (R200). -/
def selectOp3C (fn : Nat) (f : Fields) : Option Instr :=
  match fn with
  | 0 => some (.trap f)
  | 1 => some (.eret f)
  | 2 => some (.mfs f)
  | 3 => some (if f.sr = 1 then .mtsXflagsClear f else if 8 ≤ f.sr ∧ f.sr < 16 then .mtsFmt f else if f.sr = 16 then .mtsAmr f
      else if 0x100 ≤ f.sr ∧ f.sr < 0x200 then .mtsSc f else if 0x200 ≤ f.sr ∧ f.sr < 0x208 then .mtsMx f else .mtsWcr f)
  | 4 => some (.cycrd f)
  | 5 => some (.launch f)
  | 6 => some (.tlbi f)
  | _ => none

/-- OP 0x3D of the grid (R200). -/
def selectOp3D (fn : Nat) (f : Fields) : Option Instr :=
  match fn with
  | 0 => some (.scango f)
  | 1 => some (.scanpoll f)
  | 2 => some (.scanstop f)
  | 3 => some (.coreret f)
  | 4 => some (.halt f)
  | _ => none

/-- The instruction that OP and FN select (R200); none for a reserved pair. -/
def selectInstr (op fn : Nat) (f : Fields) : Option Instr :=
  match op with
  | 0x00 => selectOp00 fn f
  | 0x01 => selectOp01 fn f
  | 0x02 => selectOp02 fn f
  | 0x03 => selectOp03 fn f
  | 0x04 => selectOp04 fn f
  | 0x05 => selectOp05 fn f
  | 0x10 => selectOp10 fn f
  | 0x11 => selectOp11 fn f
  | 0x12 => selectOp12 fn f
  | 0x13 => selectOp13 fn f
  | 0x14 => selectOp14 fn f
  | 0x20 => selectOp20 fn f
  | 0x21 => selectOp21 fn f
  | 0x22 => selectOp22 fn f
  | 0x23 => selectOp23 fn f
  | 0x24 => selectOp24 fn f
  | 0x30 => selectOp30 fn f
  | 0x31 => selectOp31 fn f
  | 0x32 => selectOp32 fn f
  | 0x33 => selectOp33 fn f
  | 0x38 => selectOp38 fn f
  | 0x3C => selectOp3C fn f
  | 0x3D => selectOp3D fn f
  | _ => none

/-- The instruction of a canonical word. -/
def decodeWord (w : CWord) : Except DecodeErr Instr :=
  match selectInstr (wordOp w) (wordFn w) (fieldsOf w) with
  | some i => .ok i
  | none => .error (.reservedOpFn (wordOp w) (wordFn w))

/-- The instruction at the head of the bytes, and the length of its stored form. -/
def decodeBytes (bs : List Byte) : Except DecodeErr (Instr × Nat) :=
  match expandForm bs with
  | none => .error .truncated
  | some (w, n) =>
    match decodeWord w with
    | .ok i => .ok (i, n)
    | .error e => .error e

/-! ### Bundles (R191, R192) -/

/-- NI of a bundle control word. -/
def bundleNI (cw : Nat) : Nat := bits cw 0 4
/-- LSI of a bundle control word. -/
def bundleLSI (cw : Nat) : Nat := bits cw 8 8

/-- The offsets in its bundle at which the stored forms of a bundle start, following the length codes; none when a
form does not end at or before byte 63. -/
def formOffsets (bundle : List Byte) : Nat → Nat → Option (List Nat)
  | 0, _ => some []
  | n + 1, off =>
    let len := formLength (leAt bundle off 1 % 4)
    if 64 < off + len then none
    else (formOffsets bundle n (off + len)).map (off :: ·)

/-- The check of R191: the offsets of the bundle's instructions, or none when the bundle is malformed. -/
def bundleForms (bundle : List Byte) : Option (List Nat) :=
  let cw := leAt bundle 0 4
  if bundleNI cw = 0 || bits cw 4 4 ≠ 0 || bits cw 16 16 ≠ 0 then none
  else formOffsets bundle (bundleNI cw) 4

/-- The PC of the instruction after the one at offset `off` of the bundle at `base` (R39, R192): the next form of
the bundle, or the first instruction of the next bundle. -/
def nextInBundle (bundle : List Byte) (base off : Nat) : Nat :=
  match bundleForms bundle with
  | none => base + 68
  | some fs =>
    match fs.find? (fun o => off < o) with
    | some o => base + o
    | none => base + 68

/-! ### The encoder -/

/-- The canonical word with these fields (R186). -/
def wordOf (op fn : Nat) (f : Fields) : CWord :=
  (0 : BitVec 2) ++ f.imm ++ BitVec.ofBool f.y ++ f.c ++ f.wm ++ f.st ++ BitVec.ofBool f.sp ++ f.fs ++ f.b ++ f.a
    ++ f.d ++ BitVec.ofBool f.gn ++ f.gp ++ f.stall ++ BitVec.ofNat 4 fn ++ BitVec.ofNat 8 op

/-- The sub-field that tells the rows of one OP and FN apart has the value of this row (R219, R230, R261, R278,
R286, R296, R318, R350).  An MTS of a number that names no writable register is a use of MTS as such, with the
illegal use of R350. -/
def Instr.rowOk : Instr → Bool
  | .nop _ => true
  | .bra _ => true
  | .brx _ => true
  | .call _ => true
  | .callx _ => true
  | .ret _ => true
  | .exit _ => true
  | .yield _ => true
  | .sleep _ => true
  | .partset _ => true
  | .partget _ => true
  | .rjopen f => !bitB f.immN 24
  | .rjopenMask f => bitB f.immN 24
  | .rjjoin _ => true
  | .rjquit _ => true
  | .rjwait _ => true
  | .rjtest _ => true
  | .rjmask _ => true
  | .rjclose _ => true
  | .orphanedSetTrap .. => true
  | .iadd _ => true
  | .isum3 _ => true
  | .isub _ => true
  | .ineg _ => true
  | .iabs _ => true
  | .imin _ => true
  | .imax _ => true
  | .isat _ => true
  | .icmp _ => true
  | .sel _ => true
  | .lea _ => true
  | .imul _ => true
  | .imulh _ => true
  | .imad _ => true
  | .imadw _ => true
  | .idiv _ => true
  | .irem _ => true
  | .and _ => true
  | .or _ => true
  | .xor _ => true
  | .not _ => true
  | .blut _ => true
  | .plut _ => true
  | .pmovGet f => !bitB f.immN 20
  | .pmovSet f => bitB f.immN 20
  | .mov _ => true
  | .movi _ => true
  | .movk _ => true
  | .shl _ => true
  | .shr _ => true
  | .sar _ => true
  | .fshl _ => true
  | .fshr _ => true
  | .bfe _ => true
  | .bfi _ => true
  | .brev _ => true
  | .popc _ => true
  | .clz _ => true
  | .ctz _ => true
  | .sext _ => true
  | .zext _ => true
  | .fadd _ => true
  | .fsub _ => true
  | .fmul _ => true
  | .ffma _ => true
  | .fmin _ => true
  | .fmax _ => true
  | .fcmp _ => true
  | .fclass _ => true
  | .frnd _ => true
  | .fscale _ => true
  | .fdot _ => true
  | .fcvt _ => true
  | .fcvts _ => true
  | .f2i _ => true
  | .i2f _ => true
  | .fpack _ => true
  | .funpack _ => true
  | .rand _ => true
  | .frcp _ => true
  | .frsq _ => true
  | .fsqrt _ => true
  | .fdiv _ => true
  | .fexp2 _ => true
  | .flog2 _ => true
  | .fsin _ => true
  | .fcos _ => true
  | .ftanh _ => true
  | .vote _ => true
  | .shfl _ => true
  | .redux _ => true
  | .scan _ => true
  | .matchL _ => true
  | .sdef _ => true
  | .sseek _ => true
  | .spos _ => true
  | .sflag _ => true
  | .chain _ => true
  | .ld _ => true
  | .st _ => true
  | .ldk _ => true
  | .ldpk _ => true
  | .stpk _ => true
  | .pref _ => true
  | .stpair _ => true
  | .lds _ => true
  | .sts _ => true
  | .ldq _ => true
  | .stq _ => true
  | .ldmc _ => true
  | .atom _ => true
  | .atomf _ => true
  | .lr _ => true
  | .sc _ => true
  | .red _ => true
  | .redf _ => true
  | .lrHoldExpiry .. => true
  | .fence _ => true
  | .bind _ => true
  | .unbind _ => true
  | .acq f => !bitB f.immN 24
  | .acqGe f => bitB f.immN 24
  | .acqGeWake .. => true
  | .rel _ => true
  | .bar _ => true
  | .bara _ => true
  | .barw _ => true
  | .rrmodeOff f => bits f.immN 18 2 = 0 || bits f.immN 18 2 = 3
  | .rrmodeRec f => bits f.immN 18 2 = 1
  | .rrmodePlay f => bits f.immN 18 2 = 2
  | .ordgate _ => true
  | .carve _ => true
  | .cwb _ => true
  | .cinv f => !bitB f.immN 26
  | .cinvI f => bitB f.immN 26
  | .mxacq _ => true
  | .mxrel _ => true
  | .engineRelease .. => true
  | .tdesc _ => true
  | .tmaskSet f => bits f.immN 25 2 ≠ 1
  | .tmaskFirst f => bits f.immN 25 2 = 1
  | .gdecl _ => true
  | .tamax _ => true
  | .tscupd _ => true
  | .tmma _ => true
  | .tmmab _ => true
  | .tact _ => true
  | .tew _ => true
  | .tred _ => true
  | .ttrans _ => true
  | .tscl _ => true
  | .tcvt _ => true
  | .tzero _ => true
  | .taccld _ => true
  | .taccst _ => true
  | .tdrain _ => true
  | .tcopy f => !bitB f.immN 27
  | .tcopyTile f => bitB f.immN 27
  | .tgather _ => true
  | .tscatter _ => true
  | .tcoll _ => true
  | .hwait _ => true
  | .htest _ => true
  | .hcancel _ => true
  | .hsleep _ => true
  | .hstat _ => true
  | .recbegin _ => true
  | .recend _ => true
  | .recmark _ => true
  | .reverse _ => true
  | .logq _ => true
  | .trap _ => true
  | .eret _ => true
  | .mfs _ => true
  | .mtsWcr f => !(f.sr = 1 || (8 ≤ f.sr && f.sr < 16) || f.sr = 16 || (0x100 ≤ f.sr && f.sr < 0x208))
  | .mtsXflagsClear f => f.sr = 1
  | .mtsFmt f => 8 ≤ f.sr && f.sr < 16
  | .mtsAmr f => f.sr = 16
  | .mtsSc f => 0x100 ≤ f.sr && f.sr < 0x200
  | .mtsMx f => 0x200 ≤ f.sr && f.sr < 0x208
  | .cycrd _ => true
  | .launch _ => true
  | .tlbi _ => true
  | .tlbiAcknowledge .. => true
  | .scango _ => true
  | .scanpoll _ => true
  | .scanstop _ => true
  | .coreret _ => true
  | .halt _ => true
  | .icacheFill .. => true
  | .variableLatencyCompletion .. => true
  | .fairnessOverdue .. => true
  | .sleepWake .. => true
  | .hsleepWake .. => true
  | .infuserCommandStart .. => true
  | .nativeStepComplete .. => true
  | .engineCommandCompletion .. => true
  | .collectiveComplete .. => true
  | .reportedTrapDelivery .. => true
  | .atomicUnitOperation .. => true
  | .replayDivergence .. => true
  | .pageWalkComplete .. => true
  | .remoteTimeout .. => true
  | .ualinkRemoteRequest .. => true
  | .yieldRequest .. => true
  | .workgroupSave .. => true
  | .safePointOverdue .. => true
  | .safePointSecondBudget .. => true
  | .bindCreate .. => true
  | .bindResume .. => true
  | .bindWithdrawCore .. => true
  | .bindReturnCore .. => true
  | .workgroupRetire .. => true
  | .launchRecordTake .. => true
  | .workgroupPlacement .. => true
  | .launchFinish .. => true
  | .deterministicMerge .. => true
  | .bufferFullRelease .. => true
  | .coreRenumber .. => true
  | .scanComplete .. => true
  | .scanAbort .. => true
  | .write .. => true
  | .read .. => true
  | .release .. => true
  | .launchFrame .. => true
  | .mgmtRead .. => true
  | .mgmtWrite .. => true
  | .mgmtWritePkgid .. => true
  | .mgmtWritePodid .. => true
  | .mgmtWriteIpctl .. => true
  | .mgmtWriteGroup .. => true
  | .ipaddrDadComplete .. => true
  | .mailboxAckTimer .. => true
  | .neighbourDiscovery .. => true
  | .icmpv6Echo .. => true
  | .hostLinkUp .. => true
  | .hello .. => true
  | .prove .. => true
  | .proveTimeout .. => true
  | .claim .. => true
  | .handover .. => true
  | .close .. => true
  | .electionWindowClose .. => true
  | .ownershipLapse .. => true
  | .load .. => true
  | .unload .. => true
  | .installSupervisor .. => true
  | .setSavePool .. => true
  | .qpfTranslationComplete .. => true
  | .supplyDroop .. => true
  | .supplyLevelRecovery .. => true
  | .holdEntry .. => true
  | .holdExit .. => true
  | .powerFail .. => true
  | .linkRetrain .. => true
  | .linkRetrainComplete .. => true
  | .softError .. => true
  | .errorEventCount .. => true
  | .errorWindowClose .. => true
  | .cntWrite .. => true
  | .streqWrite .. => true
  | .mapCommit .. => true
  | .mapApply .. => true
  | .hubRegisterWrite .. => true
  | .deviceReset .. => true
  | .selfTestComplete .. => true
  | .tamperAlarm .. => true
  | .glitchAlarm .. => true
  | .malformedFrame .. => true
  | .writePerformedAtL2 .. => true
  | .endToEndCrcMismatch .. => true
  | .shockSensorLatch .. => true

/-- The canonical word of an instruction: none for an event, and none for an instruction whose distinguishing
sub-field holds another row's value. -/
def encodeWord (i : Instr) : Option CWord :=
  match opFn i, i.fields with
  | some (op, fn), some f => if i.rowOk then some (wordOf op fn f) else none
  | _, _ => none

/-- The stored length codes in ascending length, with the highest carried bit (R190). -/
def formCode (w : CWord) : Nat :=
  if w.toNat < 2 ^ 30 then 0 else if w.toNat < 2 ^ 46 then 1 else if w.toNat < 2 ^ 62 then 2 else 3

/-- The shortest stored form of a canonical word (R190, R205). -/
def storeForm (w : CWord) : List Byte :=
  let code := formCode w
  toLE (formLength code) (w.toNat * 4 + code)

/-- The stored bytes of an instruction, in its shortest form. -/
def encode (i : Instr) : Option (List Byte) := (encodeWord i).map storeForm

/-- The instruction that the decoder reads from an instruction of `nbits` bits whose bits are `w`, the higher bits
zero up to the longest stored form. -/
def decodeTableWord (nbits w : Nat) : Option Instr :=
  match decodeBytes (toLE 12 (w % 2 ^ nbits)) with
  | .ok (i, _) => some i
  | .error _ => none

end Sys2Proof
end

