-- ==== Sys2Proof/Machine/Real.lean ====
section
/-!
DEFINITION. Exact positive reals as far as rounding needs them (R110, R244): a magnitude is a rational, a square root of
one, or one of the functions of R244 at a rational, and what rounding asks of it is ⌊x·2^p⌋, whether that is all of
x·2^p, and ⌊log2 x⌋.  The functions are irrational wherever they stand as a magnitude of their own, so enclosures that
shrink decide every such question; they are refined until both ends agree (see log entry 45 for the depth).
-/

namespace Sys2Proof

/-- ⌊√x⌋, one bit of the root at a time from bit `i - 1` down. -/
def isqrtFrom (x : Nat) : Nat → Nat → Nat
  | 0, r => r
  | i + 1, r => let t := r + 2 ^ i; isqrtFrom x i (if t * t ≤ x then t else r)

/-- ⌊√x⌋. -/
def isqrt (x : Nat) : Nat := isqrtFrom x (x.log2 / 2 + 1) 0

/-- ⌊n·2^p / d⌋ and whether it is exact. -/
def ratFloor (n d : Nat) (p : Int) : Nat × Bool :=
  if 0 ≤ p then (n * 2 ^ p.toNat / d, n * 2 ^ p.toNat % d = 0)
  else (n / (d * 2 ^ (-p).toNat), n % (d * 2 ^ (-p).toNat) = 0)

/-- ⌊log2 (n/d)⌋ for n, d > 0. -/
def ratLog (n d : Nat) : Int :=
  let k : Int := (n.log2 : Int) - (d.log2 : Int)
  let fits : Bool := if 0 ≤ k then d * 2 ^ k.toNat ≤ n else d ≤ n * 2 ^ (-k).toNat
  if fits then k else k - 1

/-- A positive magnitude. -/
inductive Mag where
  /-- n / d -/
  | rat (n d : Nat)
  /-- √(n / d) -/
  | root (n d : Nat)
  /-- 2^k -/
  | pow2 (k : Int)
  /-- 2^(fl + a/d) with 0 < a < d -/
  | exp2 (fl : Int) (a d : Nat)
  /-- |log2 (n / d)|, n / d no power of two -/
  | log2 (n d : Nat)
  /-- |sin (n / d)|, n > 0 -/
  | sin (n d : Nat)
  /-- |cos (n / d)|, n > 0 -/
  | cos (n d : Nat)
  /-- tanh (n / d), n > 0 -/
  | tanh (n d : Nat)
  /-- |x|·σ(t) for x = ±n/d, n > 0: `.gelu` or `.silu` of R311 -/
  | act (gelu neg : Bool) (n d : Nat)
  /-- |a/ad + b/bd·F(x)| for x = ±n/d, n > 0, b ≠ 0, F the derivative of `.gelu` or `.silu` (R341) -/
  | grad (gelu neg : Bool) (n d : Nat) (a : Int) (ad : Nat) (b : Int) (bd : Nat)
  deriving DecidableEq, Repr

/-! ### Enclosures: pairs (lo, hi) with lo < x·2^P < hi -/

/-- Σ over k of ±1/((2k+1)·q^(2k+1)), at scale 2^P, term by term rounded down, with the number of terms: atan(1/q) where
`alt`, atanh(1/q) otherwise. -/
def invSeries (P q : Nat) (alt : Bool) : Int × Int :=
  let n := P / 3 + 2
  let ts : List (Nat × Nat) := (List.range n).map (fun k => (k, 2 ^ P / (q ^ (2 * k + 1) * (2 * k + 1))))
  let s : Int := ts.foldl (fun (s : Int) e => if alt && e.1 % 2 = 1 then s - (e.2 : Int) else s + (e.2 : Int)) 0
  (s - (n + 2 : Nat), s + (n + 2 : Nat))

/-- ln 2 = 2·atanh(1/3). -/
def ln2Enc (P : Nat) : Nat × Nat := let e := invSeries P 3 false; ((2 * e.1).toNat, (2 * e.2).toNat)

/-- π = 16·atan(1/5) − 4·atan(1/239). -/
def piEnc (P : Nat) : Nat × Nat :=
  let a := invSeries P 5 true
  let b := invSeries P 239 true
  ((16 * a.1 - 4 * b.2).toNat, (16 * a.2 - 4 * b.1).toNat)

/-- e^t for t in (tlo, thi) at scale 2^P, 0 ≤ t < 1, by its series. -/
def expEnc (P tlo thi : Nat) : Nat × Nat :=
  let n := P / 4 + 16
  let r := (List.range n).foldl (fun (acc : (Nat × Nat) × (Nat × Nat)) k =>
    let t := (acc.1.1 * tlo / ((k + 1) * 2 ^ P), acc.1.2 * thi / ((k + 1) * 2 ^ P) + 1)
    (t, (acc.2.1 + t.1, acc.2.2 + t.2))) ((2 ^ P, 2 ^ P), (2 ^ P, 2 ^ P))
  (r.2.1, r.2.2 + r.1.2 + 1)

/-- The terms r^k / k! of r = R/2^P, 0 ≤ r ≤ 1, each rounded down, added with the signs of the sine (`odd`) or the
cosine; the error is below one unit for each term and one for the tail. -/
def sinCosSeries (P R : Nat) (odd : Bool) : Int × Nat :=
  let n := P / 4 + 16
  let r := (List.range n).foldl (fun (acc : Nat × Int) k =>
    let t := acc.1 * R / ((k + 1) * 2 ^ P)
    let use := ((k + 1) % 2 = 1) = odd
    let neg : Bool := (k + 1) / 2 % 2 = 1
    (t, if use then (if neg then acc.2 - (t : Int) else acc.2 + (t : Int)) else acc.2))
    (2 ^ P, if odd then (0 : Int) else (2 ^ P : Nat))
  (r.2, 2 * n + 2)

/-- sin or cos of n/d as a signed enclosure at scale 2^P. -/
def trigEnc (P n d : Nat) (isSin : Bool) : Int × Int :=
  -- quarter turns are removed at a precision that leaves P bits
  let big := (n / d).log2 + 4
  let pi := piEnc (P + big)
  let x := n * 2 ^ (P + big) / d
  let h := pi.1 / 2 + 1
  let q := (2 * x + h) / (2 * h)
  -- r = x − q·π/2 lies within (q·width + 2) of this, at the finer scale
  let r : Int := (x : Int) - (q : Int) * (pi.1 : Int) / 2
  let err := (q * (pi.2 - pi.1 + 2)) / 2 ^ big + 4
  let R : Nat := r.natAbs / 2 ^ big
  let neg : Bool := r < 0
  let k := if isSin then q % 4 else (q + 1) % 4
  let useSin : Bool := k % 2 = 0
  let s := sinCosSeries P R useSin
  let v : Int := if useSin && neg then -s.1 else s.1
  let v : Int := if 2 ≤ k then -v else v
  (v - (s.2 + err : Nat), v + (s.2 + err : Nat))

/-- log2 (n/d) as a signed enclosure at scale 2^P. -/
def log2Enc (P n d : Nat) : Int × Int :=
  let k := ratLog n d
  -- m = n/d / 2^k in [1, 2)
  let mn := if k < 0 then n * 2 ^ (-k).toNat else n
  let md := if k < 0 then d else d * 2 ^ k.toNat
  let z := (mn - md) * 2 ^ P / (mn + md)
  let cnt := P / 3 + 2
  let zz := z * z / 2 ^ P
  let r := (List.range cnt).foldl (fun (acc : Nat × Nat) j =>
    (acc.1 * zz / 2 ^ P, acc.2 + acc.1 / (2 * j + 1))) (z, 0)
  -- each term falls short by at most 3 units, the tail by one
  let lnLo := 2 * r.2
  let lnHi := 2 * (r.2 + 3 * cnt + 4)
  let l2 := ln2Enc P
  let kk : Int := k * (2 ^ P : Nat)
  (kk + ((lnLo * 2 ^ P / l2.2 : Nat) : Int) - 1, kk + ((lnHi * 2 ^ P / l2.1 : Nat) : Int) + 2)

/-- tanh (n/d) at scale 2^P: with u = e^(−2x), (1 − u)/(1 + u). -/
def tanhEnc (P n d : Nat) : Nat × Nat :=
  if d * (P + 2) ≤ n then (2 ^ P - 1, 2 ^ P)
  else
    let j := (2 * n / d).log2 + 1
    let t := 2 * n * 2 ^ P / (d * 2 ^ j)
    let e := expEnc P t (t + 1)
    let sq := (List.range j).foldl (fun (u : Nat × Nat) _ => (u.1 * u.1 / 2 ^ P, min (2 ^ P) (u.2 * u.2 / 2 ^ P + 1)))
      (2 ^ (2 * P) / e.2, min (2 ^ P) (2 ^ (2 * P) / e.1 + 1))
    ((2 ^ P - sq.2) * 2 ^ P / (2 ^ P + sq.2), (2 ^ P - sq.1) * 2 ^ P / (2 ^ P + sq.1) + 1)

/-- e^(−t) for t in (tlo, thi) at scale 2^P, 0 ≤ t. -/
def expNegEnc (P tlo thi : Nat) : Nat × Nat :=
  if (P + 2) * 2 ^ P ≤ tlo then (0, 1)
  else
    let j := (thi / 2 ^ P).log2 + 1
    let e := expEnc P (tlo / 2 ^ j) (thi / 2 ^ j + 1)
    (List.range j).foldl (fun (u : Nat × Nat) _ => (u.1 * u.1 / 2 ^ P, min (2 ^ P) (u.2 * u.2 / 2 ^ P + 1)))
      (2 ^ (2 * P) / e.2, min (2 ^ P) (2 ^ (2 * P) / e.1 + 1))

/-- 2·√(2/π) at scale 2^P. -/
def geluCoef (P : Nat) : Nat × Nat :=
  let pi := piEnc P
  (isqrt (8 * 2 ^ (3 * P) / pi.2), isqrt (8 * 2 ^ (3 * P) / pi.1) + 1)

/-- |t| of R311, where the function is x·σ(t): |x| for `.silu`, 2·√(2/π)·(|x| + 0.044715·|x|³) for `.gelu`; as a
rational factor of 1 or of the coefficient. -/
def actArg (gelu : Bool) (n d : Nat) : Nat × Nat :=
  if gelu then (n * (1000000 * d * d + 44715 * n * n), 1000000 * d * d * d) else (n, d)

/-- u = e^(−|t|) at scale 2^P; far out only 0 < u < 2^(−P) is said. -/
def actExp (P : Nat) (gelu : Bool) (n d : Nat) : Nat × Nat :=
  let r := actArg gelu n d
  if r.2 * (P + 2) ≤ r.1 then (0, 1)
  else if gelu then
    let Q := P + r.1 / r.2 + 8
    let c := geluCoef Q
    let e := expNegEnc Q (c.1 * r.1 / r.2) (c.2 * r.1 / r.2 + 1)
    (e.1 / 2 ^ (Q - P), e.2 / 2 ^ (Q - P) + 1)
  else expNegEnc P (r.1 * 2 ^ P / r.2) (r.1 * 2 ^ P / r.2 + 1)

/-- 1/(1 + u) and u/(1 + u) at scale 2^P. -/
def sigmaEnc (P : Nat) (u : Nat × Nat) : (Nat × Nat) × (Nat × Nat) :=
  ((2 ^ (2 * P) / (2 ^ P + u.2), 2 ^ (2 * P) / (2 ^ P + u.1) + 1),
   (u.1 * 2 ^ P / (2 ^ P + u.1), u.2 * 2 ^ P / (2 ^ P + u.2) + 1))

/-- |x|·σ(t) at scale 2^P. -/
def actEnc (P : Nat) (gelu neg : Bool) (n d : Nat) : Nat × Nat :=
  let g := sigmaEnc P (actExp P gelu n d)
  let w := if neg then g.2 else g.1
  (n * w.1 / d, n * w.2 / d + 1)

/-- F(x) = σ(t) + x·σ(t)·(1 − σ(t))·t′, signed, at scale 2^P: far out it lies just above 1, or just below 0. -/
def actGradEnc (P : Nat) (gelu neg : Bool) (n d : Nat) : Int × Int :=
  let r := actArg gelu n d
  if r.2 * (P + 2) ≤ r.1 then (if neg then (-1, 0) else ((2 ^ P : Nat), (2 ^ P + 1 : Nat)))
  else
    let g := sigmaEnc P (actExp P gelu n d)
    let c : Nat × Nat := if gelu then geluCoef P else (2 ^ P, 2 ^ P)
    -- |x|·t′ over its coefficient
    let k : Nat × Nat := if gelu then (n * (1000000 * d * d + 3 * 44715 * n * n), 1000000 * d * d * d) else (n, d)
    let lo := g.1.1 * g.2.1 * c.1 * k.1 / (k.2 * 2 ^ (2 * P))
    let hi := g.1.2 * g.2.2 * c.2 * k.1 / (k.2 * 2 ^ (2 * P)) + 1
    if neg then ((g.2.1 : Int) - hi, (g.2.2 : Int) - lo) else ((g.1.1 + lo : Nat), (g.1.2 + hi : Nat))

/-- a/ad + b/bd·F(x), signed, at scale 2^P. -/
def gradEnc (P : Nat) (gelu neg : Bool) (n d : Nat) (a : Int) (ad : Nat) (b : Int) (bd : Nat) : Int × Int :=
  let f := actGradEnc P gelu neg n d
  let A : Int := a * (2 ^ P : Nat)
  let lo : Int := if 0 ≤ b then b * f.1 else b * f.2
  let hi : Int := if 0 ≤ b then b * f.2 else b * f.1
  (Int.fdiv (A * bd + lo * ad) (ad * bd), Int.fdiv (A * bd + hi * ad) (ad * bd) + 1)

/-- 2^(a/d) at scale 2^P, 0 < a < d. -/
def exp2Enc (P a d : Nat) : Nat × Nat :=
  let l := ln2Enc P
  expEnc P (l.1 * a / d) (l.2 * a / d + 1)

/-- The magnitude of a signed enclosure. -/
def absEnc (e : Int × Int) : Nat × Nat :=
  if 0 ≤ e.1 then (e.1.toNat, e.2.toNat)
  else if e.2 ≤ 0 then ((-e.2).toNat, (-e.1).toNat)
  else (0, max e.2.toNat (-e.1).toNat)

/-- The enclosure of an irrational magnitude at scale 2^P; for `exp2`, of 2^(a/d) alone. -/
def Mag.enc (m : Mag) (P : Nat) : Nat × Nat :=
  match m with
  | .rat n d => (n * 2 ^ P / d, n * 2 ^ P / d + 1)
  | .root n d => (isqrt (n * 4 ^ P / d), isqrt (n * 4 ^ P / d) + 1)
  | .pow2 _ => (0, 1)
  | .exp2 _ a d => exp2Enc P a d
  | .log2 n d => absEnc (log2Enc P n d)
  | .sin n d => absEnc (trigEnc P n d true)
  | .cos n d => absEnc (trigEnc P n d false)
  | .tanh n d => tanhEnc P n d
  | .act gelu neg n d => actEnc P gelu neg n d
  | .grad gelu neg n d a ad b bd => absEnc (gradEnc P gelu neg n d a ad b bd)

/-- Refine until the two ends agree on ⌊x·2^p⌋ (R244). [UNVERIFIED depth; log entry 45] -/
def floorLadder (m : Mag) (p : Int) : Nat → Nat → Nat
  | 0, P => (m.enc P).1 / 2 ^ ((P : Int) - p).toNat
  | f + 1, P =>
    let e := m.enc P
    let k := ((P : Int) - p).toNat
    if e.1 / 2 ^ k = (e.2 - 1) / 2 ^ k then e.1 / 2 ^ k else floorLadder m p f (2 * P)

/-- Refine until the two ends agree on ⌊log2 x⌋. [UNVERIFIED depth; log entry 45] -/
def logLadder (m : Mag) : Nat → Nat → Int
  | 0, P => (((m.enc P).1.log2 : Nat) : Int) - P
  | f + 1, P =>
    let e := m.enc P
    if 0 < e.1 && e.1.log2 = (e.2 - 1).log2 then ((e.1.log2 : Nat) : Int) - P else logLadder m f (2 * P)

/-- ⌊x·2^p⌋ and whether that is all of it. -/
def Mag.floorAt (m : Mag) (p : Int) : Nat × Bool :=
  match m with
  | .rat n d => ratFloor n d p
  | .root n d =>
    let f := ratFloor n d (2 * p)
    let r := isqrt f.1
    (r, f.2 && r * r = f.1)
  | .pow2 k => if 0 ≤ k + p then (2 ^ (k + p).toNat, true) else (0, false)
  | .exp2 fl _ _ =>
    let q := fl + p
    if q < 0 then (0, false) else (floorLadder m q 16 (q.toNat + 32), false)
  | _ => (floorLadder m p 16 (p.toNat + 48), false)

/-- ⌊log2 x⌋ for a nonzero magnitude. -/
def Mag.log (m : Mag) : Int :=
  match m with
  | .rat n d => ratLog n d
  | .root n d => ratLog n d / 2
  | .pow2 k => k
  | .exp2 fl _ _ => fl
  | _ => logLadder m 16 48

/-- The magnitude is zero. -/
def Mag.isZero (m : Mag) : Bool :=
  match m with
  | .rat n _ => n = 0
  | .root n _ => n = 0
  | _ => false

/-- The sine or cosine of n/d is negative; it is never zero for a rational n/d > 0. -/
def trigNeg (n d : Nat) (isSin : Bool) : Nat → Nat → Bool
  | 0, P => (trigEnc P n d isSin).1 < 0
  | f + 1, P =>
    let e := trigEnc P n d isSin
    if 0 < e.1 then false else if e.2 < 0 then true else trigNeg n d isSin f (2 * P)

/-- a/ad + b/bd·F(x) is negative; it is never zero where F(x) is irrational. -/
def gradNeg (gelu neg : Bool) (n d : Nat) (a : Int) (ad : Nat) (b : Int) (bd : Nat) : Nat → Nat → Bool
  | 0, P => (gradEnc P gelu neg n d a ad b bd).1 < 0
  | f + 1, P =>
    let e := gradEnc P gelu neg n d a ad b bd
    if 0 < e.1 then false else if e.2 < 0 then true else gradNeg gelu neg n d a ad b bd f (2 * P)

end Sys2Proof
end

