-- ==== Sys2Proof/Machine/Flags.lean ====
section
/-!
DEFINITION. Format slots and every flag the arithmetic computes (R101 to R127): the value of a code, rounding with its
exception flags, NaN codes, conversion, scaling, the random generator, block-scaled products, and new scales.
-/

namespace Sys2Proof

/-! ### Exception flags (R114), in the bit order of `%xflags` -/

def flInexact : Nat := 1
def flUnderflow : Nat := 2
def flOverflow : Nat := 4
def flDivZero : Nat := 8
def flInvalid : Nat := 16

/-! ### Slots (R101, R108) -/

/-- A format slot: its format word with its byte of `amr`. -/
structure Slot where
  /-- sign bit present -/
  S : Nat
  E : Nat
  M : Nat
  /-- bias, signed -/
  B : Int
  INF : Nat
  NAN : Nat
  /-- rndN, subN, satN, nanN (R108) -/
  rnd : Nat
  sub : Nat
  sat : Bool
  keepNan : Bool
  deriving DecidableEq, Repr

/-- The slot of a format word and an `amr` byte; reserved bits are ignored (R3). -/
def Slot.of (word amrByte : Nat) : Slot :=
  { S := bitN word 0, E := bits word 1 4, M := bits word 5 5, B := signed 12 (bits word 10 12),
    INF := bits word 22 2, NAN := bits word 24 2,
    rnd := bits amrByte 0 3, sub := bits amrByte 3 2, sat := bitB amrByte 5, keepNan := bitB amrByte 6 }

/-- binary32 with nearest-even, gradual subnormals, no saturation, canonical NaNs (R104 slot 0). -/
def f32 : Slot := Slot.of 0x0141FEF1 0

/-- Code width W (R102). -/
def Slot.W (n : Slot) : Nat := n.S + n.E + n.M

/-- The word is valid (R102). -/
def Slot.valid (n : Slot) : Bool :=
  2 ≤ n.W && n.W ≤ 32 &&
  (if n.E = 0 then n.INF = 0 && (n.NAN = 0 || (n.NAN = 3 && n.S = 1))
   else n.E ≤ 11 &&
    ((n.INF = 0 && (n.NAN = 0 || (n.NAN = 1 && 1 ≤ n.M) || n.NAN = 2 || (n.NAN = 3 && n.S = 1))) ||
     (n.INF = 1 && n.NAN = 1 && 1 ≤ n.M)))

/-- rndN is not reserved (R109). -/
def Slot.rndOk (n : Slot) : Bool := n.rnd < 6

/-- Elements in a register (R107). -/
def Slot.L (n : Slot) : Nat := if n.W ≤ 16 && 0 < n.W then 32 / n.W else 1

/-- Element `i` of a register (R107). -/
def elem (reg i : Nat) (n : Slot) : Nat := bits reg (i * n.W) n.W

/-- The elements of a register. -/
def elems (reg : Nat) (n : Slot) : List Nat := (List.range n.L).map (fun i => elem reg i n)

/-- `pack` (R107): element `i` at bit `i·W`. -/
def packE : List Nat → Nat → Nat
  | [], _ => 0
  | e :: es, w => e % 2 ^ w + packE es w * 2 ^ w

/-- The largest exponent code. -/
def Slot.emax (n : Slot) : Nat := 2 ^ n.E - 1

/-- The sign bit of a code. -/
def Slot.signBit (n : Slot) : Nat := 2 ^ (n.W - 1)

/-- The magnitude part of the code of maxfinite for E ≥ 1 (R102). -/
def Slot.topCode (n : Slot) : Nat :=
  if n.INF = 1 then n.emax * 2 ^ n.M - 1
  else if n.NAN = 1 then n.emax * 2 ^ n.M
  else if n.NAN = 2 then 2 ^ (n.E + n.M) - 2
  else 2 ^ (n.E + n.M) - 1

/-- The largest magnitudes of a positive and of a negative finite code with E = 0 (R102). -/
def Slot.intMax (n : Slot) : Nat := if n.S = 1 then 2 ^ (n.W - 1) - 1 else 2 ^ n.W - 1
def Slot.intMin (n : Slot) : Nat := if n.S = 1 then (if n.NAN = 3 then 2 ^ (n.W - 1) - 1 else 2 ^ (n.W - 1)) else 0

/-- ±big of R111: the code of maxfinite or of minfinite. -/
def Slot.big (n : Slot) (neg : Bool) : Nat :=
  if n.E = 0 then (if neg then wrap n.W (-(n.intMin : Int)) else n.intMax)
  else if neg then (if n.S = 1 then n.topCode + n.signBit else 0) else n.topCode

/-- The code of ±∞ in a slot with INF = 01. -/
def Slot.infCode (n : Slot) (neg : Bool) : Nat :=
  n.emax * 2 ^ n.M + (if neg && n.S = 1 then n.signBit else 0)

/-! ### Values (R105, R106) -/

/-- What a NaN operand hands on (R106): its sign, its mantissa with its width, and whether its slot has NAN = 01. -/
structure NanSrc where
  neg : Bool
  m : Nat
  ms : Nat
  is01 : Bool
  deriving DecidableEq, Repr

/-- An exact value: a NaN, taken from an operand or not, an infinity, or a real with a sign even when zero. -/
inductive Val where
  | nan (src : Option NanSrc)
  | inf (neg : Bool)
  | num (neg : Bool) (m : Mag)
  deriving DecidableEq, Repr

/-- ±m·2^e. -/
def Val.dyadic (neg : Bool) (m : Nat) (e : Int) : Val :=
  .num neg (if 0 ≤ e then .rat (m * 2 ^ e.toNat) 1 else .rat m (2 ^ (-e).toNat))

/-- A signed rational; zero is +0. -/
def Val.ofRat (x : Int) (d : Nat) : Val := .num (x < 0) (.rat x.natAbs d)

def Val.isNan : Val → Bool
  | .nan _ => true
  | _ => false
def Val.isInf : Val → Bool
  | .inf _ => true
  | _ => false
def Val.isZero : Val → Bool
  | .num _ m => m.isZero
  | _ => false
/-- The sign; a NaN counts as positive. -/
def Val.neg : Val → Bool
  | .nan _ => false
  | .inf s => s
  | .num s _ => s

/-- `decode` (R105, R112). -/
def decodeVal (c : Nat) (n : Slot) : Val :=
  let c := c % 2 ^ n.W
  if n.E = 0 then
    if n.S = 1 && n.NAN = 3 && c = n.signBit then .nan (some ⟨false, 0, 0, false⟩)
    else
      let i : Int := if n.S = 1 then signed n.W c else (c : Int)
      .dyadic (i < 0) i.natAbs (-n.B)
  else
    let s : Bool := n.S = 1 && bitB c (n.W - 1)
    let e := bits c n.M n.E
    let m := bits c 0 n.M
    if n.NAN = 3 && s && e = 0 && m = 0 then .nan (some ⟨false, 0, 0, false⟩)
    else if n.NAN = 1 && e = n.emax && m ≠ 0 then .nan (some ⟨s, m, n.M, true⟩)
    else if n.NAN = 2 && e = n.emax && m = 2 ^ n.M - 1 then .nan (some ⟨s, m, n.M, false⟩)
    else if n.INF = 1 && e = n.emax && m = 0 then .inf s
    else if e = 0 then
      if m ≠ 0 && (n.sub = 1 || n.sub = 3) then .num s (.rat 0 1)
      else .dyadic s m (1 - n.B - n.M)
    else .dyadic s (2 ^ n.M + m) ((e : Int) - n.B - n.M)

/-- `nan_code` (R106), with the flag of a slot that has no NaN. -/
def nanCode (n : Slot) (src : Option NanSrc) : Nat × Nat :=
  let sign (neg : Bool) : Nat := if neg && n.S = 1 then n.signBit else 0
  let taken := if n.keepNan then src else none
  match n.NAN with
  | 0 => (0, flInvalid)
  | 1 =>
    let canon := n.emax * 2 ^ n.M + 2 ^ (n.M - 1)
    match taken with
    | some x =>
      if x.is01 then
        let k := min x.ms n.M
        let m := (x.m >>> (x.ms - k)) <<< (n.M - k)
        (sign x.neg + n.emax * 2 ^ n.M + (if m = 0 then 2 ^ (n.M - 1) else m), 0)
      else (canon, 0)
    | none => (canon, 0)
  | 2 => ((match taken with | some x => sign x.neg | none => 0) + 2 ^ (n.E + n.M) - 1, 0)
  | _ => (n.signBit, 0)

/-- `zero_code` (R110). -/
def zeroCode (n : Slot) (neg : Bool) : Nat :=
  if neg && n.S = 1 && 1 ≤ n.E && n.NAN ≠ 3 then n.signBit else 0

/-! ### Rounding (R110 to R113) -/

/-- Does |x|, scaled by 2^p, go up from its floor `N`?  `u` is the draw of R113. -/
def goesUp (rnd : Nat) (neg : Bool) (m : Mag) (p : Int) (u : Nat) : Bool :=
  let f := m.floorAt p
  if f.2 then false
  else
    let h := m.floorAt (p + 1)
    match rnd with
    | 0 => h.1 % 2 = 1 && (!h.2 || f.1 % 2 = 1)
    | 1 => false
    | 2 => neg
    | 3 => !neg
    | 4 => h.1 % 2 = 1
    | _ =>
      -- stochastic: f is measured from the lower of the two neighbours
      let g := m.floorAt (p + 24)
      let frac := g.1 - f.1 * 2 ^ 24
      if neg then !(u % 2 ^ 24 < 2 ^ 24 - frac - b2n (!g.2)) else u % 2 ^ 24 < frac

/-- A negative value in a slot without a sign bit (R110). -/
def negativeCode (n : Slot) : Nat :=
  if !n.sat && n.NAN ≠ 0 then (nanCode n none).1 else zeroCode n false

/-- R111 for x = ±∞. -/
def infiniteCode (n : Slot) (neg : Bool) : Nat × Nat :=
  if n.S = 0 && neg then (negativeCode n, flInvalid)
  else if n.INF = 1 then (n.infCode neg, 0)
  else if n.sat || n.NAN = 0 then (n.big neg, flInvalid)
  else ((nanCode n none).1, flInvalid)

/-- R111 for an overflow with E ≥ 1. -/
def overflowCode (n : Slot) (neg : Bool) : Nat :=
  if n.sat then n.big neg
  else if n.INF = 1 then
    match n.rnd with
    | 1 => n.big neg
    | 2 => if neg then n.infCode true else n.big false
    | 3 => if neg then n.big true else n.infCode false
    | _ => n.infCode neg
  else if n.NAN ≠ 0 then (nanCode n none).1
  else n.big neg

/-- `round` (R110): the code and the flags.  A tie with M = 0 is decided by the parity of the significand at the lower
neighbour's unit. [DEDUCED; log entry 46] -/
def roundVal (n : Slot) (x : Val) (u : Nat) : Nat × Nat :=
  match x with
  | .nan src => nanCode n src
  | .inf neg => infiniteCode n neg
  | .num neg m =>
    if m.isZero then (zeroCode n neg, 0)
    else if n.E = 0 then
      let f := m.floorAt n.B
      let N := if goesUp n.rnd neg m n.B u then f.1 + 1 else f.1
      let nx := if f.2 then 0 else flInexact
      if n.S = 0 && neg && N ≠ 0 then (negativeCode n, nx ||| flInvalid)
      else if (if neg then n.intMin else n.intMax) < N then
        ((if n.sat then n.big neg else wrap n.W (if neg then -(N : Int) else N)), nx ||| flOverflow)
      else ((if neg then wrap n.W (-(N : Int)) else N), nx)
    else
      let lg := m.log
      let tiny : Bool := lg < 1 - n.B
      if tiny && (n.sub = 1 || n.sub = 2) then (zeroCode n neg, flUnderflow ||| flInexact)
      else
        let e : Int := max (lg + n.B) 1
        let p : Int := n.B + n.M - e
        let f := m.floorAt p
        let N := if goesUp n.rnd neg m p u then f.1 + 1 else f.1
        let fl := if f.2 then 0 else if tiny then flInexact ||| flUnderflow else flInexact
        if n.S = 0 && neg && N ≠ 0 then (negativeCode n, fl ||| flInvalid)
        else
          -- the code of the magnitude, were the exponent unbounded
          let c : Int := (N : Int) + (e - 1) * (2 ^ n.M : Nat)
          if (n.topCode : Int) < c then (overflowCode n neg, fl ||| flOverflow ||| flInexact)
          else if N = 0 then (zeroCode n neg, fl)
          else (c.toNat + (if neg then n.signBit else 0), fl)

/-- Round with another rounding mode or saturation than the slot's own. -/
def Slot.withSat (n : Slot) : Slot := { n with sat := true }
def Slot.withRnd (n : Slot) (r : Nat) : Slot := { n with rnd := r }

/-! ### Exact operations on values (R236, R240) -/

/-- Numerator and denominator of a rational magnitude. -/
def Mag.ratio : Mag → Nat × Nat
  | .rat n d => (n, d)
  | _ => (0, 1)

/-- A value as a signed fraction. -/
def Val.frac : Val → Int × Nat
  | .num neg m => ((if neg then -(m.ratio.1 : Int) else m.ratio.1), m.ratio.2)
  | _ => (0, 1)

/-- The first NaN of a list, as a value. -/
def firstNan (xs : List Val) : Option Val := xs.find? Val.isNan

/-- The product of two values that are not NaN (R236). -/
def mulVal (x y : Val) : Val × Nat :=
  if (x.isInf && y.isZero) || (x.isZero && y.isInf) then (.nan none, flInvalid)
  else if x.isInf || y.isInf then (.inf (x.neg != y.neg), 0)
  else (.num (x.neg != y.neg) (.rat (x.frac.1.natAbs * y.frac.1.natAbs) (x.frac.2 * y.frac.2)), 0)

/-- The exact sum of values that are not NaN (R236): `rdn` says that rndN is 010. -/
def sumVals (rdn : Bool) (xs : List Val) : Val × Nat :=
  let pos := xs.any (fun x => x.isInf && !x.neg)
  let neg := xs.any (fun x => x.isInf && x.neg)
  if pos && neg then (.nan none, flInvalid)
  else if pos then (.inf false, 0)
  else if neg then (.inf true, 0)
  else
    let s := xs.foldl (fun (a : Int × Nat) x => (a.1 * x.frac.2 + x.frac.1 * a.2, a.2 * x.frac.2)) (0, 1)
    if s.1 = 0 then
      (.num (if xs.all (fun x => x.isZero && x.neg) && !xs.isEmpty then true else rdn) (.rat 0 1), 0)
    else (Val.ofRat s.1 s.2, 0)

/-- −x. -/
def Val.negate : Val → Val
  | .nan s => .nan s
  | .inf s => .inf (!s)
  | .num s m => .num (!s) m

/-- a + b, a − b, a·b, a·b + c with the specials of R236; a NaN operand is taken in the order A, B, C. -/
def addVal (rdn : Bool) (a b : Val) : Val × Nat := ((firstNan [a, b]).map (·, 0)).getD (sumVals rdn [a, b])
def subVal (rdn : Bool) (a b : Val) : Val × Nat := ((firstNan [a, b]).map (·, 0)).getD (sumVals rdn [a, b.negate])
def mulVals (a b : Val) : Val × Nat := ((firstNan [a, b]).map (·, 0)).getD (mulVal a b)

/-- a·b + c, exact. -/
def fmaVal (rdn : Bool) (a b c : Val) : Val × Nat :=
  match firstNan [a, b, c] with
  | some x => (x, 0)
  | none =>
    match mulVal a b with
    | (.nan s, f) => (.nan s, f)
    | (p, _) => sumVals rdn [p, c]

/-- c + Σ a_i·b_i (R240): a NaN is taken in the order c, a_0, b_0, a_1 and so on. -/
def dotVal (rdn : Bool) (c : Val) (ps : List (Val × Val)) : Val × Nat :=
  match firstNan (c :: ps.flatMap (fun e => [e.1, e.2])) with
  | some x => (x, 0)
  | none =>
    let ms := ps.map (fun e => mulVal e.1 e.2)
    if ms.any (fun m => m.1.isNan) then (.nan none, flInvalid)
    else sumVals rdn (c :: ms.map (·.1))

/-- a < b, a = b on values that are not NaN; −0 equals +0. -/
def ltVal (a b : Val) : Bool :=
  match a, b with
  | .inf s, .inf t => s && !t
  | .inf s, _ => s
  | _, .inf t => !t
  | _, _ => a.frac.1 * b.frac.2 < b.frac.1 * a.frac.2
def eqVal (a b : Val) : Bool :=
  match a, b with
  | .inf s, .inf t => s = t
  | .inf _, _ => false
  | _, .inf _ => false
  | _, _ => a.frac.1 * b.frac.2 = b.frac.1 * a.frac.2

/-- FMIN and FMAX (R237): −0 below +0; a NaN gives way to the other operand. -/
def minMaxVal (isMax : Bool) (a b : Val) : Val :=
  if a.isNan then (if b.isNan then a else b)
  else if b.isNan then a
  else
    let aLess := ltVal a b || (eqVal a b && a.neg && !b.neg)
    if aLess != isMax then a else b

/-- a·2^k (FSCALE, R235). -/
def scaleVal (a : Val) (k : Int) : Val :=
  match a with
  | .num s (.rat n d) => if n = 0 then a else if 0 ≤ k then .num s (.rat (n * 2 ^ k.toNat) d)
    else .num s (.rat n (d * 2 ^ (-k).toNat))
  | _ => a

/-! ### Functions (R244, R245): the exact value and the flags of special operands -/

/-- 2^x of a signed fraction with d a power of two or not. -/
def exp2Mag (n : Int) (d : Nat) : Mag :=
  let fl := n / (d : Int)
  let a := (n % (d : Int)).toNat
  if a = 0 then .pow2 fl else .exp2 fl a d

/-- n/d is a power of two. -/
def isPow2 (n d : Nat) : Bool :=
  let k := ratLog n d
  if 0 ≤ k then d * 2 ^ k.toNat = n else d = n * 2 ^ (-k).toNat

def rcpVal (a : Val) : Val × Nat :=
  match a with
  | .nan s => (.nan s, 0)
  | .inf s => (.num s (.rat 0 1), 0)
  | .num s (.rat n d) => if n = 0 then (.inf s, flDivZero) else (.num s (.rat d n), 0)
  | .num s m => (.num s m, 0)

def rsqVal (a : Val) : Val × Nat :=
  match a with
  | .nan s => (.nan s, 0)
  | .inf s => if s then (.nan none, flInvalid) else (.num false (.rat 0 1), 0)
  | .num s m =>
    let q := m.ratio
    if q.1 = 0 then (.inf s, flDivZero) else if s then (.nan none, flInvalid) else (.num false (.root q.2 q.1), 0)

def sqrtVal (a : Val) : Val × Nat :=
  match a with
  | .nan s => (.nan s, 0)
  | .inf s => if s then (.nan none, flInvalid) else (.inf false, 0)
  | .num s m =>
    let q := m.ratio
    if q.1 = 0 then (a, 0) else if s then (.nan none, flInvalid) else (.num false (.root q.1 q.2), 0)

def divVal (a b : Val) : Val × Nat :=
  let s := a.neg != b.neg
  match firstNan [a, b] with
  | some x => (x, 0)
  | none =>
    if (a.isZero && b.isZero) || (a.isInf && b.isInf) then (.nan none, flInvalid)
    else if a.isInf then (.inf s, 0)
    else if b.isInf then (.num s (.rat 0 1), 0)
    else if b.isZero then (.inf s, flDivZero)
    else (.num s (.rat (a.frac.1.natAbs * b.frac.2) (a.frac.2 * b.frac.1.natAbs)), 0)

def exp2Val (a : Val) : Val × Nat :=
  match a with
  | .nan s => (.nan s, 0)
  | .inf s => if s then (.num false (.rat 0 1), 0) else (.inf false, 0)
  | .num _ _ => (.num false (exp2Mag a.frac.1 a.frac.2), 0)

def log2Val (a : Val) : Val × Nat :=
  match a with
  | .nan s => (.nan s, 0)
  | .inf s => if s then (.nan none, flInvalid) else (.inf false, 0)
  | .num s m =>
    let q := m.ratio
    if q.1 = 0 then (.inf true, flDivZero)
    else if s then (.nan none, flInvalid)
    else if isPow2 q.1 q.2 then (Val.ofRat (ratLog q.1 q.2) 1, 0)
    else (.num (q.1 < q.2) (.log2 q.1 q.2), 0)

def sinVal (a : Val) : Val × Nat :=
  match a with
  | .nan s => (.nan s, 0)
  | .inf _ => (.nan none, flInvalid)
  | .num s m =>
    let q := m.ratio
    if q.1 = 0 then (a, 0) else (.num (s != trigNeg q.1 q.2 true 16 48) (.sin q.1 q.2), 0)

def cosVal (a : Val) : Val × Nat :=
  match a with
  | .nan s => (.nan s, 0)
  | .inf _ => (.nan none, flInvalid)
  | .num _ m =>
    let q := m.ratio
    if q.1 = 0 then (.num false (.rat 1 1), 0) else (.num (trigNeg q.1 q.2 false 16 48) (.cos q.1 q.2), 0)

def tanhVal (a : Val) : Val × Nat :=
  match a with
  | .nan s => (.nan s, 0)
  | .inf s => (.num s (.rat 1 1), 0)
  | .num s m =>
    let q := m.ratio
    if q.1 = 0 then (a, 0) else (.num s (.tanh q.1 q.2), 0)

/-- `.gelu` and `.silu` of R311: x·σ(t). -/
def sigmoidVal (gelu : Bool) (a : Val) : Val :=
  match a with
  | .nan s => .nan s
  | .inf s => if s then .num true (.rat 0 1) else .inf false
  | .num s m => let q := m.ratio; if q.1 = 0 then a else .num s (.act gelu s q.1 q.2)

/-- g + w·F(x) for the derivative F of `.gelu` or `.silu` (R339, R341), with g and w finite and x finite; zero sums
follow R236. -/
def gradSum (gelu : Bool) (g w x : Val) : Val :=
  let q := x.frac
  if w.isZero then (sumVals false [g, w]).1
  else if q.1 = 0 then (sumVals false [g, (mulVal w (.num false (.rat 1 2))).1]).1
  else
    let n := q.1.natAbs
    .num (gradNeg gelu x.neg n q.2 g.frac.1 g.frac.2 w.frac.1 w.frac.2 16 48)
      (.grad gelu x.neg n q.2 g.frac.1 g.frac.2 w.frac.1 w.frac.2)

/-- FRND (R239): the integer nearest by a mode; zero keeps the sign, NaN and infinities pass. -/
def rndVal (mode : Nat) (a : Val) (u : Nat) : Val :=
  match a with
  | .num s m =>
    let f := m.floorAt 0
    .num s (.rat (if goesUp mode s m 0 u then f.1 + 1 else f.1) 1)
  | _ => a

/-- The class of FCLASS (R238) of a code. -/
def classOf (c : Nat) (n : Slot) : Nat :=
  match decodeVal c n with
  | .nan _ => 8
  | .inf s => if s then 0 else 7
  | .num s m =>
    if m.isZero then (if s then 3 else 4)
    else
      let sub : Bool := 1 ≤ n.E && bits c n.M n.E = 0
      if s then (if sub then 2 else 1) else if sub then 5 else 6

/-! ### Conversion (R115, R116) -/

/-- The code of an identical format and mode (R115): unchanged, but for a subnormal input that is read as zero. -/
def sameCode (c : Nat) (n : Slot) : Nat :=
  match decodeVal c n with
  | .num s m => if m.isZero then zeroCode n s else c % 2 ^ n.W
  | _ => c % 2 ^ n.W

/-- `cvt` (R115). [The sentence on identical slots is taken as it stands; DEDUCED, log entry 47] -/
def cvt (c : Nat) (ns nd : Slot) (u : Nat) : Nat × Nat :=
  if ns = nd then (sameCode c ns, 0) else roundVal nd (decodeVal c ns) u

/-- `scaled` (R116) without its update of an `mx` register. -/
def scaledCode (v : Val) (nd : Slot) (s u : Nat) : Nat × Nat :=
  let x := mulVals v (decodeVal s f32)
  match x.1 with
  | .inf neg => ((nd.withSat).big neg, x.2 ||| flInvalid)
  | y => let r := roundVal nd.withSat y u; (r.1, r.2 ||| x.2)

/-! ### Max-magnitude registers and scales (R125, R127) -/

/-- `amax_update` (R125): the new value of an `mx` register. -/
def amaxUpdate (old : Nat) (v : Val) : Nat :=
  match decodeVal old f32 with
  | .nan _ => old
  | o =>
    match v with
    | .nan _ => 0x7FC00000
    | .inf _ => 0x7F800000
    | .num _ m =>
      let r := (roundVal (f32.withRnd 3) (.num false m) 0).1
      if ltVal o (decodeVal r f32) then r else if eqVal o (decodeVal r f32) && o.neg then r else old

/-- The value maxfinite of a slot. -/
def Slot.maxFinite (n : Slot) : Val := decodeVal (n.big false) { n with sub := 0 }

/-- `next_scale` (R127): the new scale and the flags. -/
def nextScale (m : Nat) (n : Slot) (g old : Nat) : Nat × Nat :=
  match decodeVal m f32 with
  | .nan _ => (old, flInvalid)
  | .inf _ => (old, flInvalid)
  | .num s mag =>
    if mag.isZero then (old, 0)
    else if s then (old, flInvalid)
    else
      let q := mag.ratio
      let x := n.maxFinite.frac
      let k : Int := if x.1 = 0 then -126 else ratLog (x.1.natAbs * q.2) (x.2 * q.1) - g
      let k := clampInt (-126) 127 k
      ((k + 127).toNat * 2 ^ 23, 0)

/-! ### The random generator (R117) -/

/-- `mix` (R117). -/
def mix64 (z : Nat) : Nat :=
  let z := z % 2 ^ 64
  let z := ((z ^^^ (z >>> 31)) * 0x9E6C63D0676A9A99) % 2 ^ 64
  let z := ((z ^^^ (z >>> 29)) * 0xE9D76A1B2C3F4D85) % 2 ^ 64
  z ^^^ (z >>> 32)

/-- `draw` (R117). -/
def draw (seed gid n : Nat) : Nat :=
  let a := mix64 (seed ^^^ 0x6A09E667F3BCC909)
  let b := mix64 (a ^^^ (gid % 2 ^ 64))
  mix64 (b + n) % 2 ^ 32

/-! ### Block-scaled elements (R120 to R123) -/

/-- The integer value q of a 4-bit code under a TYPE (R121). -/
def blockQ (ty c : Nat) : Int :=
  let mag : Nat :=
    match ty with
    | 1 => [0, 1, 2, 3, 4, 6, 8, 12].getD (c % 8) 0
    | 2 => if c % 8 = 0 then 0 else 2 ^ (c % 8 - 1)
    | _ => if bitB c 2 then 4 * 2 ^ (c % 4) else c % 4
  if ty = 0 then signed 4 c else if bitB c 3 then -(mag : Int) else mag

/-- The type offset o (R121). -/
def blockO (ty : Nat) : Int := if ty = 1 then -1 else 0

/-- q·2^e as a value. -/
def Val.ofScaled (q e : Int) : Val := .dyadic (q < 0) q.natAbs e

/-- One segment of `block_dot` (R123): accumulator, scale words, element codes; the new accumulator and flags. -/
def blockStep (acc swA swB : Nat) (ps : List (Nat × Nat)) : Nat × Nat :=
  let ea := bits swA 0 9
  let eb := bits swB 0 9
  let ta := bits swA 9 2
  let tb := bits swB 9 2
  if ea = 511 || eb = 511 then (0x7FC00000, 0)
  else if ea = 0 || eb = 0 then (acc, 0)
  else
    let q := ps.foldl (fun (s : Int) e => s + blockQ ta e.1 * blockQ tb e.2) 0
    let p := roundVal f32 (Val.ofScaled q ((ea : Int) + blockO ta + eb + blockO tb - 512)) 0
    let r := addVal false (decodeVal acc f32) (decodeVal p.1 f32)
    let a := roundVal f32 r.1 0
    (a.1, p.2 ||| r.2 ||| a.2)

/-- The value of one block-scaled element (R121, R122): zero and NaN blocks. -/
def blockVal (c sw : Nat) : Val :=
  if bits sw 0 9 = 511 then .nan none
  else if bits sw 0 9 = 0 then .num false (.rat 0 1)
  else Val.ofScaled (blockQ (bits sw 9 2) c) ((bits sw 0 9 : Int) - 256 + blockO (bits sw 9 2))

end Sys2Proof
end

