-- ==== Sys2Proof/Config.lean ====
section
/-!
DEFINITION. What the spec leaves to the silicon, the vendor and the cryptography: constants with no body, applied to
what they depend on.  No proof can see a value of any of them, so a statement holds whatever they are.
-/

namespace Sys2Proof

/-- SHA-256 of a byte string (R519, R522, R523), taken as a function the spec names and does not define.
[PRESUMED; log entry 40] -/
opaque Config.sha256 (msg : List Byte) : List Byte
/-- The verification of an LMS signature of RFC 8554 (R390, R518, R519, R522): public key, message, signature.
[PRESUMED; log entry 40] -/
opaque Config.lmsVerify (key msg sig : List Byte) : Bool
/-- An attestation signature under the key's one-time index (R523). [PRESUMED; log entry 40] -/
opaque Config.lmsSign (index : Nat) (msg : List Byte) : List Byte
/-- The device nonce of the n-th CHALLENGE (R519), of which the spec says no more. [DESIGN CHOICE; log entry 41] -/
opaque Config.deviceNonce (n : Nat) : List Byte
/-- The first failing scan chain of core `p` in its n-th scan (R357, R358), none when the scan passes: a fact of
the silicon. [DESIGN CHOICE; log entry 42] -/
opaque Config.scanFault (p n : Nat) : Option Nat
/-- The fused policy block of the part (R524): 1,024 bytes whose values the spec does not give.
[DESIGN CHOICE; log entry 43] -/
opaque Config.policyByte (off : Nat) : Byte
/-- The 64 KiB frame at which Kettle firmware places the n-th table or block it allocates (R146, R364, R393, R435):
its own matter. [DESIGN CHOICE; log entry 44] -/
opaque Config.kettlePage (n : Nat) : Nat
/-- The cycles the n-th operation of variable latency takes beyond its least (R196, R244): the spec gives no number.
[DESIGN CHOICE; log entry 50] -/
opaque Config.delay (n : Nat) : Nat
/-- Which line of a full set of an L1 the n-th allocation replaces, among those that can leave (R136: replacement affects timing
only). [DESIGN CHOICE; log entry 129] -/
opaque Config.victim (n : Nat) : Nat
/-- The cycles after which another package accepts the n-th request to it (R388): a fact of that package.
[DESIGN CHOICE; log entry 130] -/
opaque Config.acceptAfter (n : Nat) : Nat

/-- Of a cancelled or failed transfer, the n-th of the run: its i-th aligned 8-byte write was performed (R169, R438 give
any subset). [DESIGN CHOICE; log entry 75] -/
opaque Config.subset (n i : Nat) : Bool
/-- Which of the free engine contexts an assignment takes (R301 does not say): the n-th choice.
[DESIGN CHOICE; log entry 81] -/
opaque Config.choice (n : Nat) : Nat

/-- The reason byte of a record of class 0x0C about an event of this kind: R424 leaves the reasons of the class to a
chapter that gives none. [DESIGN CHOICE; log entry 86] -/
opaque Config.machineReason (event : Nat) : Byte

/-- The virtual 2 MiB page in which Kettle firmware places the blocks of the n-th context it creates (R393, R435): its own
matter. [DESIGN CHOICE; log entry 44] -/
opaque Config.kettleVirtual (n : Nat) : Nat
/-- The part of an ASID that Kettle firmware chooses for the n-th context it creates (R92, R519).
[DESIGN CHOICE; log entry 44] -/
opaque Config.asidBits (n : Nat) : Nat
/-- A 32-bit word that an answer carries and the spec does not state: the n-th (R381, R383).
[DESIGN CHOICE; log entry 89] -/
opaque Config.openWord (n : Nat) : Nat
/-- DETAIL of a record of class 0x0C that names two things without a place for them (R521): the slots.
[DESIGN CHOICE; log entry 90] -/
opaque Config.openDetail (event a b : Nat) : Nat
/-- The n-th duplicate address detection finds a duplicate (R379): a fact of the network. [DESIGN CHOICE; log entry 91] -/
opaque Config.duplicateAddress (n : Nat) : Bool

/-- The boot ROM accepts the firmware image that stands in the device at the n-th start (R522): signature, key and
version. [DESIGN CHOICE; log entry 98] -/
opaque Config.firmwareAccepted (n : Nat) : Bool
/-- The hash of that image. [DESIGN CHOICE; log entry 98] -/
opaque Config.firmwareHash (n : Nat) : List Byte

/-- How far die `d`'s copy of `cyc` stands from the master copy (R16): reduced to −2 to 2. [DESIGN CHOICE; log entry 114] -/
opaque Config.cycSkew (d : Nat) : Nat

end Sys2Proof
end

