-- ==== Sys2Proof/Machine/Sparse.lean ====
section
/-!
DEFINITION. Finite maps from numbers, as lists of pairs in one canonical form: keys strictly rising.  A map with a
default value additionally lists no entry that equals the default, so that equal maps are equal lists.
-/

namespace Sys2Proof

/-- A finite map from numbers, keys strictly rising. -/
abbrev Sparse (α : Type) := List (Nat × α)

namespace Sparse

/-- The value listed at a key. -/
def find? {α : Type} : Sparse α → Nat → Option α
  | [], _ => none
  | (k, v) :: m, i => if k = i then some v else find? m i

/-- The value at a key, an unlisted key reading as `d`. -/
def get {α : Type} (m : Sparse α) (d : α) (i : Nat) : α := (find? m i).getD d

/-- List the value `v` at key `i`, in its place. -/
def put {α : Type} : Sparse α → Nat → α → Sparse α
  | [], i, v => [(i, v)]
  | (k, w) :: m, i, v =>
    if i < k then (i, v) :: (k, w) :: m
    else if i = k then (i, v) :: m
    else (k, w) :: put m i v

/-- Remove the key `i`. -/
def del {α : Type} : Sparse α → Nat → Sparse α
  | [], _ => []
  | (k, w) :: m, i => if k = i then del m i else (k, w) :: del m i

/-- Make key `i` read as `v`, where an unlisted key reads as `d`. -/
def set {α : Type} [DecidableEq α] (m : Sparse α) (d : α) (i : Nat) (v : α) : Sparse α :=
  if v = d then del m i else put m i v

/-- Every key is above `n`, and the keys rise strictly. -/
def risesFrom {α : Type} : Sparse α → Nat → Bool
  | [], _ => true
  | (k, _) :: m, n => (n < k) && risesFrom m k

/-- Keys rise strictly. -/
def sorted {α : Type} : Sparse α → Bool
  | [] => true
  | (k, _) :: m => risesFrom m k

/-- The canonical form of a map with default `d`. -/
def wf {α : Type} [DecidableEq α] (m : Sparse α) (d : α) : Bool := sorted m && m.all (fun e => e.2 ≠ d)

/-- Change the value at a key. -/
def update {α : Type} (m : Sparse α) (d : α) (i : Nat) (f : α → α) : Sparse α := put m i (f (get m d i))

/-- The keys, ascending. -/
def keys {α : Type} (m : Sparse α) : List Nat := m.map (·.1)

end Sparse

end Sys2Proof
end

