-- ==== Sys2Proof/Machine/State.lean ====
section
/-!
DEFINITION. The state of the machine: the whole package (R13), as plain data.  Every piece of state the spec names has
one home here; INVENTORY.md lists each with its rule and its reset value.  Finite maps are canonical (Sparse.lean).
-/

namespace Sys2Proof.Machine

open Sys2Proof

/-- A set of lanes of one warp, bit l for lane l. -/
abbrev LaneSet := BitVec 32

/-- Why the machine as a whole does not step on. -/
inductive Fault where
  /-- The package has lost its supply (R508: V below 30 V for 1 ms): nothing runs until a power-on, which is an
  input from outside.  Raised by `step` alone.  Safe: the machine stops where the hardware is dark. -/
  | unpowered
  /-- The boot ROM refused the firmware image (R522): the device answers only the recovery procedure of a data sheet
  the spec does not give.  Raised by `step` alone.  Safe. -/
  | firmwareRefused
  deriving DecidableEq, Repr

/-- Why an instruction has no meaning here. -/
inductive Refusal where
  /-- The instruction has no meaning in this model yet.  Raised by arms of `exec` only.  Safe: nothing is claimed. -/
  | notModelled (mnemonic : String)
  deriving DecidableEq, Repr

/-! ### Threads and warps -/

/-- Why a lane is in the hold set (R41, R99 STATE). -/
inductive HoldKind where
  /-- 1: waits on rejoin set `n` -/
  | rejoin (n : Nat)
  /-- 2: waits at barrier `n` of scope code `sco` (R261, R281) for phase `phase` -/
  | barrier (sco n phase : Nat)
  /-- 3: SLEEP -/
  | sleep
  /-- 4: HSLEEP on the handle in `h` register `reg` -/
  | hsleep (reg : Nat)
  /-- 5: blocked on the handle in `h` register `reg` -/
  | handle (reg : Nat)
  /-- 6: signed on `g` register `g` and parked -/
  | signed (g : Nat)
  deriving DecidableEq, Repr

/-- A lane's place in the hold set (R41). -/
structure Hold where
  kind : HoldKind
  /-- resume PC -/
  rpc : Va
  /-- wake cycle, for SLEEP and HSLEEP -/
  wake : Nat
  /-- for a lane blocked on a handle: its own handle is awaited (R58); its guard was true at the instruction -/
  need : Bool
  /-- for a lane blocked on a handle: the lowest lane of the entry that parked, whose lanes one event releases (R58) -/
  group : Nat
  /-- remaining stall count of the instruction at which it parked (R195) -/
  stall : Nat
  deriving DecidableEq, Repr

/-- The per-thread state other than its registers (R51, R55, R93). -/
structure Lane where
  /-- the lane was launched (R33) -/
  launched : Bool
  /-- the lane has executed EXIT (R38) -/
  exited : Bool
  /-- frame pointer FP, in registers (R51) -/
  fp : Nat
  /-- resident base RB, in registers (R51) -/
  rb : Nat
  /-- call depth, 16 bits (R55) -/
  depth : Nat
  /-- draw index, 64 bits (R93, R118) -/
  draw : Nat
  /-- granule of the LR reservation: physical address / 32 (R142, R276) -/
  resv : Option Nat
  /-- instructions issued since the LR that took the hold (R277) -/
  sinceLR : Nat
  /-- its place in the hold set -/
  hold : Option Hold
  /-- barriers at which the lane has arrived and not yet left: (scope, barrier, phase) (R282) -/
  arrived : List (Nat × Nat × Nat)
  deriving DecidableEq, Repr

/-- A lane that was never launched. -/
def Lane.init : Lane :=
  { launched := false, exited := false, fp := 0, rb := 0, depth := 0, draw := 0, resv := none, sinceLR := 0,
    hold := none, arrived := [] }

/-- What keeps a PC-table entry from being ready beside its stall count and tokens. -/
inductive EntryWait where
  | none
  /-- a waiting ACQ.ge: SEQ at this physical address held this value when read (R280) -/
  | seq (pa old : Nat)
  /-- a request to another package is on its way: the cycle at which that package accepts it, and the cycle at which the
  request times out (R388, R475) -/
  | remote (accept deadline : Nat)
  /-- delivery has failed with this reason of class 0x06 (R475): the instruction traps when it is issued again -/
  | undelivered (reason : Nat)
  deriving DecidableEq, Repr

/-- One entry of the PC table (R40). -/
structure Entry where
  pc : Va
  mask : LaneSet
  /-- remaining stall count (R195) -/
  stall : Nat
  /-- fairness counter (R45) -/
  fair : Nat
  /-- the entry has become overdue (R45) -/
  overdue : Bool
  /-- the entry has stopped under a pending yield (R59) -/
  stopped : Bool
  /-- the entry reached its PC by a taken BRX, CALLX or RET that does not go forward (R59) -/
  backward : Bool
  /-- the entry issued YIELD last: passed over once (R227) -/
  yielded : Bool
  wait : EntryWait
  /-- numbers of the write-backs it waits for: under R428, and a TLBI until it is acknowledged (R355) -/
  owed : List Nat
  deriving DecidableEq, Repr

/-- A write to one register that an instruction still owes; no value means a poisoned one (R478). -/
inductive RegWrite where
  /-- stack position of a lane -/
  | v (lane pos : Nat) (x : Option Word)
  /-- `k` register -/
  | k (n : Nat) (x : Option Word)
  /-- predicate of a lane -/
  | p (lane n : Nat) (x : Bool)
  /-- handle register of a lane -/
  | h (lane n : Nat) (x : Option DWord)
  deriving DecidableEq, Repr

/-- A register, as the interlock and the scoreboard know it (R197, R198). -/
inductive RegKey where
  | v (lane pos : Nat)
  | k (n : Nat)
  | p (lane n : Nat)
  | h (lane n : Nat)
  /-- a stream, which R197 interlocks like a register -/
  | s (n : Nat)
  deriving DecidableEq, Repr

/-- An operation that has issued and not yet written its destination (R88, R196, R197). -/
structure Writeback where
  /-- number within the warp, in issue order -/
  idx : Nat
  /-- OP and FN, for reports -/
  op : Nat
  fn : Nat
  /-- issue cycle -/
  issued : Nat
  /-- latency of a fixed-latency operation (R196) -/
  lat : Nat
  /-- class V -/
  isVar : Bool
  /-- cycle from which it may complete -/
  due : Nat
  /-- results of the atomic unit it still waits for (R141, R183) -/
  awaits : Nat
  /-- token it holds, 1 to 6, or 0 (R88) -/
  token : Nat
  /-- lanes that were active -/
  lanes : LaneSet
  /-- what it writes -/
  writes : List RegWrite
  /-- class V: the registers it has yet to read, and the streams it uses (R197) -/
  reads : List RegKey
  /-- exception flags it ORs in when it completes (R114) -/
  flags : BitVec 5
  /-- lanes that raised flags -/
  flagLanes : LaneSet
  /-- the instruction after it, where a trap of class 0x08 resumes (R487) -/
  nextPc : Va
  deriving DecidableEq, Repr

/-- A rejoin-set register (R64). -/
structure RjSet where
  mem : LaneSet
  arr : LaneSet
  depth : Nat
  isOpen : Bool
  orph : Bool
  deriving DecidableEq, Repr

def RjSet.init : RjSet := { mem := 0, arr := 0, depth := 0, isOpen := false, orph := false }

/-- A stream register: descriptor and position (R251, R252). -/
structure Stream where
  desc : BitVec 128
  pos : BitVec 64
  deriving DecidableEq, Repr

def Stream.init : Stream := { desc := 0, pos := 0 }

/-- A CHAIN in progress (R258, R259). -/
structure Chain where
  /-- program copy, eight step words -/
  prog : List (BitVec 64)
  /-- element count -/
  n : Nat
  /-- elements done -/
  done : Nat
  /-- ST of the CHAIN -/
  st : Nat
  /-- the number of its operation, and its lane l0 -/
  idx : Nat
  lane0 : Nat
  /-- the `k` registers it reads, as they were at issue -/
  ks : List (Nat × Word)
  d0 : Nat
  g0 : Nat
  /-- flags of the elements done -/
  flags : BitVec 5
  /-- `fmt0`–`fmt7` and `amr` at issue (R109), and whether it issued in mode S -/
  fmt : List Word
  amr : DWord
  modeS : Bool
  deriving DecidableEq, Repr

/-- A trap that a warp still has to take (R429, R456, R459, R483, R498, R501 to R503). -/
structure Report where
  /-- class and reason, [15:8] and [7:0] of CAUSE -/
  cause : Nat
  info : Nat
  info2 : Nat
  /-- FMASK lanes; an empty set stands for all the lanes of the entry that takes it -/
  fmask : LaneSet
  /-- the lanes one of which must stand in the trapping entry; empty for any entry of the warp (R498) -/
  lanes : LaneSet
  /-- the active lanes of the instruction; an empty set stands for all the lanes of the entry that takes it -/
  amask : LaneSet
  /-- its place among the instructions of the warp: the earliest issued traps first (R429) -/
  order : Nat
  /-- held while the warp was in mode S (R429) -/
  held : Bool
  /-- reported by an engine (R498), so that it may be dropped with a record -/
  engine : Bool
  deriving DecidableEq, Repr

/-- One warp (R33, R81, R93). -/
structure Warp where
  /-- partition of the core (R34) and warp slot of the core, 0 to 47 (R20) -/
  part4 : Nat
  slot : Nat
  /-- the PC table, ascending PC (R40) -/
  table : List Entry
  /-- while the warp is in mode S: the entries that have stopped issuing (R351), ascending PC -/
  aside : List Entry
  /-- lanes, by number -/
  lanes : Sparse Lane
  /-- register stacks: key 32·position + lane (R51, R81) -/
  v : Sparse Word
  /-- `k0`–`k31` (R81) -/
  k : Sparse Word
  /-- `p1`–`p7`: lanes in which the predicate is true (R83) -/
  p : Sparse LaneSet
  /-- `h0`–`h7`: key 32·register + lane (R56) -/
  h : Sparse DWord
  /-- poisoned registers (R478): key as for v, 2^32 + number for k, 2^33 + key for h -/
  poison : Sparse Bool
  /-- `j0`–`j15` (R64) -/
  j : Sparse RjSet
  /-- `s0`–`s15` (R89) -/
  s : Sparse Stream
  /-- CHAIN in progress (R258) -/
  chain : Option Chain
  /-- `part`: tile width T (R48) -/
  part : Nat
  /-- sticky exception flags (R93, R114) -/
  flags : BitVec 5
  /-- the writable fields of `wcr` (R86): xen, chk, fair in place -/
  wcr : Word
  /-- wait tokens `w1`–`w6` (R88) -/
  tokens : Sparse Nat
  /-- operations under way, oldest first -/
  pend : List Writeback
  /-- number of the next operation -/
  nextIdx : Nat
  /-- mode S (R348) -/
  modeS : Bool
  /-- TCAUSE (R350) -/
  tcause : Word
  /-- TFBASE (R432), virtual address -/
  tfbase : Nat
  /-- SPBASE of the warp (R350, R363) -/
  spbase : Nat
  /-- lanes of the entry that trapped, while in mode S -/
  trapLanes : LaneSet
  /-- traps still to be taken, oldest first -/
  reports : List Report
  /-- a yield is pending (R59, `wcr.yp`) -/
  yp : Bool
  /-- cycle in which the warp last issued (R42) -/
  lastIssue : Nat
  /-- passed over in the next issue cycle (R187 Y, R227) -/
  skip : Bool
  /-- end-to-end CRC failures of the request now being delivered (R475) -/
  crcFails : Nat
  deriving DecidableEq, Repr

/-- A warp before anything is placed in it. -/
def Warp.init : Warp :=
  { part4 := 0, slot := 0, table := [], aside := [], lanes := [], v := [], k := [], p := [], h := [], poison := [], j := [],
    s := [], chain := none, part := 32, flags := 0, wcr := 0x100, tokens := [], pend := [], nextIdx := 0,
    modeS := false, tcause := 0, tfbase := 0, spbase := 0, trapLanes := 0, reports := [], yp := false,
    lastIssue := 0, skip := false, crcFails := 0 }

/-! ### Workgroups -/

/-- The operation latch of a signing register (R75): the first signer's instruction and operand values. -/
structure Latch where
  instr : Instr
  vals : List DWord
  /-- the first signer's draw index and gid (R118) -/
  draw : Nat
  gid : Nat
  deriving DecidableEq, Repr

/-- A signing register (R75) with the signers of its round: (warp, lane, D code). -/
structure SignReg where
  decl : Nat
  sgn : Nat
  latch : Option Latch
  signers : List (Nat × Nat × Nat)
  deriving DecidableEq, Repr

def SignReg.init : SignReg := { decl := 0, sgn := 0, latch := none, signers := [] }

/-- A barrier as one workgroup sees it (R97, R281): threads that have arrived in the present phase. -/
structure Bar where
  count : Nat
  phase : Nat
  deriving DecidableEq, Repr

def Bar.init : Bar := { count := 0, phase := 0 }

/-- The record state (R328). -/
structure RecState where
  base : Nat
  act : Bool
  tw : Bool
  rev : Bool
  rcm : BitVec 16
  clr : BitVec 16
  entcap : Nat
  size : Nat
  nent : Nat
  rpos : Nat
  payused : Nat
  stat : BitVec 32
  deriving DecidableEq, Repr

def RecState.init : RecState :=
  { base := 0, act := false, tw := false, rev := false, rcm := 0, clr := 0, entcap := 0, size := 0, nent := 0,
    rpos := 0, payused := 0, stat := 0 }

/-- A buffered reduction of a deterministic workgroup (R174). -/
structure DetRed where
  /-- physical and virtual address -/
  pa : Nat
  va : Nat
  size : Nat
  /-- AOP of R274, or of R275 when `float` -/
  aop : Nat
  float : Bool
  val : Nat
  /-- `%tid` of the thread, for those the threads issue; TDRAIN's come after (R175) -/
  tid : Nat
  engine : Bool
  deriving DecidableEq, Repr

/-- A region-table entry (R158). -/
structure Region where
  base : Nat
  size : Nat
  obj : Nat
  valid : Bool
  rrm : Nat
  gbase : Nat
  log : Nat
  logn : Nat
  /-- admissions made so far against chunk PLAYN (R183) -/
  taken : Nat
  /-- cycle of the gate's last admission (R484) -/
  lastAdmit : Nat
  deriving DecidableEq, Repr

def Region.init : Region :=
  { base := 0, size := 0, obj := 0, valid := false, rrm := 0, gbase := 0, log := 0, logn := 0, taken := 0, lastAdmit := 0 }

/-- The deterministic buffer of a workgroup (R174, R177). -/
structure DetState where
  /-- plain writes of the interval: physical byte address to value -/
  writes : Sparse Byte
  /-- virtual address of each written byte's sector: physical sector to virtual sector -/
  vas : Sparse Nat
  /-- reductions of the interval, in issue order -/
  reds : List DetRed
  /-- USED: entries in use -/
  used : Nat
  /-- BASE: virtual address of the buffer -/
  base : Nat
  /-- held on a full buffer -/
  held : Bool
  /-- released: writes go directly to memory until the point -/
  direct : Bool
  /-- arrived at the next point -/
  arrived : Bool
  /-- merged at the next point -/
  merged : Bool
  /-- entries of the region table that the workgroup has changed in the interval (R173): what they become at its merge -/
  regions : Sparse Region
  deriving DecidableEq, Repr

def DetState.init : DetState :=
  { writes := [], vas := [], reds := [], used := 0, base := 0, held := false, direct := false, arrived := false,
    merged := false, regions := [] }

/-- Where a workgroup is in its life. -/
inductive WgPhase where
  /-- resident and running -/
  | running
  /-- a yield is pending since this cycle; `late` once the first budget of R60 has passed -/
  | stopping (since : Nat) (late : Bool)
  /-- pre-empted: its image stands at this virtual address, of this size -/
  | saved (addr size : Nat)
  /-- ended by R436, waiting for its commands -/
  | ended
  deriving DecidableEq, Repr

/-- The kinds of event of class 0x0C that records tell of. -/
inductive MachineEvent where
  | poisonedRequest | correctedStep | statusSkipped | poisonedWalk | unconsumedPoison | poisonedReturn | poisonedWriteback
  | softCorrected | softPoisoned | supplyLevel | holdEntry | holdExit | powerFail | linkRetrain | linkLost | lastingFault
  | heldLaunch | duplicateAddress | ownership | alarm | selfTest | scanPassed | coreRetired | imageCheck
  deriving DecidableEq, Repr

/-- The fields of an error record (R434) but for CYC and SEQ, which are set when it is written. -/
structure ErrRec where
  cls : Nat
  reason : Nat
  sev : Nat
  unit : Nat
  /-- STRUCT: structure kind and instance -/
  kind : Nat := 0
  inst : Nat := 0
  lid : Nat := 0
  wg : Nat := 0xFFFFFFFF
  ctx : Option Nat := none
  core : Option Nat := none
  addr : Nat := 0
  paddr : Nat := 0
  detail : Nat := 0
  /-- for class 0x0C, what happened: the reason follows from it (Config.machineReason) -/
  event : Option MachineEvent := none
  deriving DecidableEq, Repr

/-- One workgroup (R33, R90) with what its launch record gave it (R362, R363). -/
structure Wg where
  /-- launch-table index and linear index `%wg` -/
  lslot : Nat
  index : Nat
  /-- physical core P -/
  core : Nat
  /-- quad-group position and size -/
  qgpos : Nat
  qgsize : Nat
  phase : WgPhase
  /-- order of creation, for R374 -/
  created : Nat
  /-- running QPF words (R402) -/
  qpf : Bool
  /-- the swap stop of R407 has been asked for -/
  swapWanted : Bool
  /-- the yield now pending, or the save made, is that swap stop -/
  swapStop : Bool
  /-- warps -/
  nwarps : Nat
  /-- scratchpad: offset to byte, within S' (R129) -/
  scratch : Sparse Byte
  /-- poisoned scratchpad words: offset / 4 (R478) -/
  scratchPoison : Sparse Bool
  /-- `g0`–`g7` (R75) -/
  g : Sparse SignReg
  /-- `m0`–`m15` (R292) -/
  m : Sparse (BitVec 256)
  /-- complements of `mr0`–`mr3`, `mc0`–`mc3`: unlisted reads as all ones (R90, R298) -/
  mr : Sparse (BitVec 256)
  mc : Sparse (BitVec 256)
  /-- barriers: key 16·scope code + number (R281) -/
  bars : Sparse Bar
  /-- `%shash` (R184) -/
  shash : BitVec 64
  /-- working `fmt0`–`fmt7` (R90) -/
  fmt : Sparse Word
  /-- working `amr` -/
  amr : DWord
  /-- writes of `fmt0`–`fmt7` and `amr` in this cycle, which later cycles see (R92) -/
  fmtNext : Sparse Word
  amrNext : Option DWord
  recd : RecState
  det : DetState
  /-- matrix engine context number it holds (R301), owner or held under MXREL -/
  eng : Option Nat
  /-- it was ended (R436) -/
  failed : Bool
  /-- the error record of its end, still to be written once its commands have completed (R360) -/
  err : Option ErrRec
  deriving DecidableEq, Repr

/-- A workgroup before anything is placed in it. -/
def Wg.init : Wg :=
  { lslot := 0, index := 0, core := 0, qgpos := 0, qgsize := 1, phase := .running, created := 0, qpf := false,
    swapWanted := false, swapStop := false, nwarps := 0, scratch := [], scratchPoison := [], g := [], m := [], mr := [], mc := [],
    bars := [], shash := 0, fmt := [], amr := 0, fmtNext := [], amrNext := none, recd := RecState.init, det := DetState.init, eng := none,
    failed := false, err := none }

/-! ### Engines -/

/-- A command of an engine context (R166, R304, R317, R318). -/
structure Cmd where
  instr : Instr
  /-- its number on the context -/
  num : Nat
  /-- issuing workgroup, lowest issuing warp, lowest lane -/
  wg : Nat
  warp : Nat
  lane : Nat
  /-- operand values: A, B, C -/
  a : Nat
  b : Nat
  c : Nat
  /-- the descriptors and predicates as read at issue (R297) -/
  dd : BitVec 256
  da : BitVec 256
  db : BitVec 256
  mr : BitVec 256
  mc : BitVec 256
  /-- `fmt0`–`fmt7` and `amr` at issue (R109) -/
  fmt : List Word
  amr : DWord
  /-- draw index and gid (R118) -/
  draw : Nat
  gid : Nat
  /-- marked for logging, and not logged yet (R336) -/
  log : Bool
  /-- BASE, ENTCAP and SIZE of the record at its issue (R333, R345) -/
  recBase : Nat
  recCap : Nat
  recSize : Nat
  /-- issued in mode S (R471) -/
  priv : Bool
  /-- promised completion cycle, or 0 (R318) -/
  promised : Nat
  /-- cancellation requested (R323), and whether the command had begun then -/
  cancel : Bool
  begun : Bool
  /-- collective number K (R321) -/
  coll : Nat
  deriving DecidableEq, Repr

/-- The running command of a matrix engine (R305, R317). -/
structure RunCmd where
  cmd : Cmd
  /-- STEP: native tiles completed -/
  step : Nat
  /-- native tiles in all; for REVERSE, unknown -/
  total : Nat
  /-- cycle at which the step in progress completes -/
  stepDue : Nat
  /-- flags so far, CORR, and the CODE of a REVERSE that has ended but for its header, else 0 -/
  xf : BitVec 5
  corr : Bool
  code : Nat
  deriving DecidableEq, Repr

/-- An engine context of the pool (R301, R302). -/
structure Eng where
  /-- device context it is assigned to -/
  owner : Option Nat
  /-- 0 copy, 1 gather and scatter, 2 collective, 3 matrix -/
  kind : Nat
  /-- ABASE -/
  abase : Nat
  /-- number the next command receives -/
  next : Nat
  /-- timeline counter C -/
  count : Nat
  /-- numbers above `count` of commands that are complete already -/
  early : List Nat
  /-- completion ring: entry to word -/
  ring : Sparse DWord
  /-- promised completion cycles, by number (R318) -/
  proms : Sparse Nat
  /-- commands not complete, oldest first (matrix commands stand in the core's engine) -/
  queue : List Cmd
  /-- cycle at which the command at the head completes -/
  busyUntil : Nat
  /-- source codes of a transposition in place or of a drain, taken when it began: key 256·row + column (R294, R312, R313) -/
  snap : Sparse Nat
  /-- matrix context of a saved workgroup: its commands (R317) -/
  parkedRun : Option RunCmd
  parkedStaged : Option Cmd
  /-- matrix context of a saved workgroup: it was held under MXREL (R300) -/
  parkedHeld : Bool
  /-- end-to-end CRC failures of the piece under way (R475) -/
  crcFails : Nat
  deriving DecidableEq, Repr

def Eng.init : Eng :=
  { owner := none, kind := 3, abase := 0, next := 1, count := 0, early := [], ring := [], proms := [], queue := [], busyUntil := 0,
    snap := [], parkedRun := none, parkedStaged := none, parkedHeld := false, crcFails := 0 }

/-- The matrix engine of a core (R20, R91, R299). -/
structure Mx where
  /-- owning workgroup -/
  owner : Option Nat
  /-- held under MXREL (R300) -/
  held : Bool
  /-- `sc0`–`sc255`, unlisted 1.0 (R91) -/
  sc : Sparse Word
  /-- `mx0`–`mx7` -/
  mx : Sparse Word
  /-- accumulator memory (R132) -/
  acc : Sparse Word
  /-- poisoned accumulator entries (R478) -/
  accPoison : Sparse Bool
  run : Option RunCmd
  staged : Option Cmd
  /-- upsets of the step in progress: row, column, the contribution it comes out as (R308) -/
  upsets : List (Nat × Nat × Word)
  deriving DecidableEq, Repr

def Mx.init : Mx :=
  { owner := none, held := false, sc := [], mx := [], acc := [], accPoison := [], run := none, staged := none,
    upsets := [] }

/-! ### Cores -/

/-- A byte that an L1 holds (R136): its value, which of its bits are valid and which dirty (a packed store writes
single bits, R135). -/
structure L1Byte where
  val : Byte
  valid : Byte
  dirty : Byte
  deriving DecidableEq, Repr

/-- A line of an instruction cache (R191, R474). -/
structure ICLine where
  /-- the 64 bytes -/
  bytes : List Byte
  /-- reason of class 0x06 with which the fetch failed, or 0 -/
  fault : Nat
  /-- physical address it was filled from -/
  pa : Nat
  /-- filled from a poisoned block -/
  poison : Bool
  deriving DecidableEq, Repr

/-- A cached translation (R147, R148): a leaf entry. -/
structure TlbEntry where
  asid : Nat
  /-- base of the page and log2 of its size -/
  va : Nat
  size : Nat
  /-- physical base, and the rights -/
  pa : Nat
  mt : Nat
  priv : Bool
  x : Bool
  wr : Bool
  rd : Bool
  deriving DecidableEq, Repr

/-- A cached non-leaf entry (R148): the table for level `lvl` reached by the address bits above it. -/
structure WalkEntry where
  asid : Nat
  lvl : Nat
  vaHi : Nat
  table : Nat
  deriving DecidableEq, Repr

/-- The scan unit's view of a core (R357, R358). -/
structure Scan where
  /-- 0 none, 1 running, 2 passed, 3 failed, 4 aborted -/
  state : Nat
  start : Nat
  ended : Nat
  chain : Option Nat
  yl : Bool
  prio : Nat
  /-- scans started on this core so far -/
  count : Nat
  /-- asked for by Kettle firmware: 0 no, 1 a lasting fault (R515), 2 a map commit (R518); 3 and 4 while a scan of kind 2
  or 1 is wanted and has not begun -/
  why : Nat
  deriving DecidableEq, Repr

def Scan.init : Scan :=
  { state := 0, start := 0, ended := 0, chain := none, yl := false, prio := 0, count := 0, why := 0 }

/-- Bits of an output stream that wait for a late result (R253). -/
structure LatePut where
  /-- bit address and number of bits -/
  bit : Nat
  n : Nat
  hint : Nat
  /-- the translated parts: virtual address, bytes, physical address, memory type -/
  parts : List (Nat × Nat × Nat × Nat)
  deriving DecidableEq, Repr

/-- A CORERET that waits for its core to leave the map (R359): workgroup, warp, write-back; the places in an output stream that
its lanes' results take. -/
structure Waiter where
  wg : Nat
  warp : Nat
  idx : Nat
  late : List (Nat × List LatePut)
  deriving DecidableEq, Repr

/-- One core (R20). -/
structure Core where
  /-- the L1: physical byte address to the byte it holds (R136) -/
  l1 : Sparse L1Byte
  /-- the record of a line: line number to (ASID, 64 KiB page number) (R136) -/
  l1tag : Sparse (Nat × Nat)
  /-- the instruction cache: key by ASID and bundle (R191) -/
  icache : Sparse ICLine
  /-- L1 TLB, newest first (R148) -/
  tlb : List TlbEntry
  /-- scratchpad share, in ways (R137) -/
  share : Nat
  /-- matrix engine -/
  mx : Mx
  /-- taken out by a withdraw-core record (R368) -/
  withdrawn : Bool
  scan : Scan
  /-- retirement wanted, once the cores above are drained (R18) -/
  retiring : Bool
  /-- the CORERETs that wait for it (R359) -/
  waiters : List Waiter
  /-- end-to-end CRC failures of the write-back under way (R475) -/
  crcFails : Nat
  deriving DecidableEq, Repr

def Core.init : Core :=
  { l1 := [], l1tag := [], icache := [], tlb := [], share := 0, mx := Mx.init, withdrawn := false,
    scan := Scan.init, retiring := false, waiters := [], crcFails := 0 }

/-! ### Contexts, loads and launches -/

/-- A kernel of a load (R391, R396). -/
structure Kernel where
  /-- address that launch records name in SECT, and length of the section -/
  sect : Nat
  len : Nat
  /-- FORM: 0 native; 1 QPF, translating; 2 QPF, translated; 3 QPF, translation failed -/
  form : Nat
  /-- NSECT and the length of the translated code -/
  nsect : Nat
  nlen : Nat
  /-- live-set table: address and entries (R194) -/
  live : Nat
  nlive : Nat
  /-- QPF function table: (entry offset, frame size) (R405) -/
  funcs : List (Nat × Nat)
  /-- QPF words that a backward BRA or CALL of the section reaches: offsets (R203) -/
  backs : List Nat
  /-- swap map (R406) -/
  swap : List Nat
  /-- CRC of the QPF section at load (R468) -/
  crc : Nat
  /-- format table (R104, R392) -/
  fmt : List Word
  amr : DWord
  /-- resource declaration (R401): STK, SETS, DESCS, SCR -/
  stk : Nat
  sets : Nat
  descs : Nat
  scr : Nat
  deriving DecidableEq, Repr

/-- A load of a context (R396). -/
structure LoadRec where
  id : Nat
  kernels : List Kernel
  /-- result address RES -/
  res : Nat
  dest : Nat
  dlen : Nat
  deriving DecidableEq, Repr

/-- An image in a save pool (R95, R399). -/
structure ImageRec where
  wg : Nat
  addr : Nat
  size : Nat
  deriving DecidableEq, Repr

/-- A queued launch record (R364, R365). -/
structure QRec where
  lid : Nat
  bytes : List Byte
  /-- sent by a host LAUNCH frame, and by the owner host -/
  host : Bool
  owner : Bool
  /-- PRIO of the issuing thread's launch, for LAUNCH -/
  prio : Nat
  deriving DecidableEq, Repr

/-- The context record and what Kettle firmware keeps for a context (R92). -/
structure Ctx where
  exists_ : Bool
  asid : Nat
  /-- physical address of the PT6 table (R146) -/
  pt6 : Nat
  /-- region table (R158) -/
  regions : Sparse Region
  /-- `rsig` (R179) -/
  rsig : BitVec 256
  /-- erratum compatibility bit (R409) -/
  compat : Bool
  /-- TVEC and the load that holds the supervisor (R398) -/
  tvec : Option Nat
  tvecLen : Nat
  superLoad : Nat
  /-- save pool (R399); length 0: none set -/
  poolBase : Nat
  poolLen : Nat
  images : List ImageRec
  /-- launch queues (R364): 0 host, 1 to 4 device -/
  queues : Sparse (List QRec)
  loads : List LoadRec
  /-- load requests not yet served (R393), oldest first -/
  requests : List (List Byte)
  loadBlock : Nat
  loadObj : Nat
  errRing : Nat
  /-- `%pod` of the context (R84) -/
  podid : Nat
  deriving DecidableEq, Repr

def Ctx.init : Ctx :=
  { exists_ := false, asid := 0, pt6 := 0, regions := [], rsig := 0xB001 * 2 ^ 48, compat := false, tvec := none, tvecLen := 0,
    superLoad := 0, poolBase := 0, poolLen := 0, images := [], queues := [], loads := [], requests := [],
    loadBlock := 0, loadObj := 0, errRing := 0, podid := 0 }

/-- The fields of a launch record (R362). -/
structure LRec where
  ver : Nat
  ctx : Nat
  prio : Nat
  flags : Nat
  sect : Nat
  entry : Nat
  wgsize : Nat
  qgs : Nat
  stack : Nat
  ngx : Nat
  ngy : Nat
  ngz : Nat
  scratch : Nat
  sets : Nat
  descs : Nat
  minc : Nat
  seed : Nat
  ctrb : Nat
  args : Nat
  spbase : Nat
  spsize : Nat
  wbbase : Nat
  wbsize : Nat
  pibase : Nat
  pisize : Nat
  status : Nat
  prod : Nat
  map : Nat
  coef : List Int
  deriving DecidableEq, Repr

def LRec.init : LRec :=
  { ver := 0, ctx := 0, prio := 0, flags := 0, sect := 0, entry := 0, wgsize := 0, qgs := 0, stack := 0, ngx := 0,
    ngy := 0, ngz := 0, scratch := 0, sets := 0, descs := 0, minc := 0, seed := 0, ctrb := 0, args := 0,
    spbase := 0, spsize := 0, wbbase := 0, wbsize := 0, pibase := 0, pisize := 0, status := 0, prod := 0, map := 0,
    coef := [] }

/-- A wide barrier instance (R281): the workgroups that have arrived, and the phase. -/
structure GBar where
  arrived : List Nat
  phase : Nat
  deriving DecidableEq, Repr

/-- A write of the present deterministic interval, byte by byte: who wrote it plainly, who reduced into it (R176). -/
structure DetWriter where
  plain : Option Nat
  reds : List Nat
  deriving DecidableEq, Repr

/-- A bind record (R368). -/
structure Bind where
  /-- KIND: 0 create, 1 resume, 2 yield, 3 withdraw, 4 return -/
  kind : Nat
  core : Nat
  ctx : Nat
  qgp : Nat
  qgn : Nat
  lslot : Nat
  wg : Nat
  deriving DecidableEq, Repr

/-- A launch in the launch table (R365, R366, R370). -/
structure Launch where
  lid : Nat
  lr : LRec
  host : Bool
  owner : Bool
  prio : Nat
  /-- STATE (R366) -/
  state : Nat
  reason : Nat
  /-- checked under R367 -/
  checked : Bool
  /-- next workgroup not yet written to the slot table -/
  nextWg : Nat
  /-- workgroups with a create record not carried out -/
  pending : Nat
  /-- bind records decided on that the slot tables have had no room for yet (R368, R370, R373) -/
  unwritten : List Bind
  /-- completion bitmap (R370): listed workgroups have retired -/
  done : Sparse Bool
  ndone : Nat
  failed : Nat
  /-- being failed: no workgroup is created any more (R425) -/
  failing : Bool
  /-- the record's bytes (R362) -/
  held : List Byte
  cycS : Nat
  /-- a created workgroup has been seen -/
  started : Bool
  /-- EREV/form: the kernel it runs -/
  kernel : Option Kernel
  loadId : Nat
  /-- logical core count when taken (R376) -/
  ncore : Nat
  /-- barriers of scope `.quad` and wider: key by scope, instance, number -/
  gbars : Sparse GBar
  /-- deterministic: pre-image of the interval, sector to its 32 bytes (R177), and writers -/
  pre : Sparse (List Byte)
  writers : Sparse DetWriter
  /-- workgroups ended by R436, arrived for ever -/
  gone : List Nat
  deriving DecidableEq, Repr

/-! ### Requests in flight -/

/-- A request at an atomic unit (R141, R273), or a write that waits there behind a hold (R277). -/
structure AtomReq where
  /-- who: workgroup, warp, lane, write-back; mode S of the issuer -/
  wg : Nat
  warp : Nat
  lane : Nat
  idx : Nat
  pa : Nat
  va : Nat
  /-- 0 ATOM, 1 ATOMF, 2 LR, 3 SC, 4 RED, 5 REDF, 6 STPAIR; 7 a store of the bytes `b` under the byte masks `c`, 8 the
  write-back of a sector from the L1 of a core, 9 the addition of a REL -/
  kind : Nat
  size : Nat
  aop : Nat
  b : Nat
  c : Nat
  /-- twin address of a pair update, and ADD -/
  twin : Nat
  twinVa : Nat
  /-- the registers that receive the result, lowest word first -/
  dst : List RegKey
  /-- the places of an output stream that receive the result -/
  late : List LatePut
  /-- cycle at which it reaches the unit (R141) -/
  due : Nat
  /-- context and region entry whose mode gates it (R180) -/
  ctx : Nat
  region : Option Nat
  deriving DecidableEq, Repr

/-- A hold of a warp on a granule (R277). -/
structure LrHold where
  granule : Nat
  wg : Nat
  warp : Nat
  deriving DecidableEq, Repr

/-- A walk asked for by a prefetch (R148, R268). -/
structure Walk where
  core : Nat
  asid : Nat
  va : Nat
  hint : Nat
  modeS : Bool
  deriving DecidableEq, Repr

/-- An invalidation that is under way (R149): the write-back of the TLBI, ASID, range, and the frames that removed
entries mapped (physical base, log2 of the size). -/
structure Inval where
  wg : Nat
  warp : Nat
  idx : Nat
  asid : Nat
  lo : Nat
  hi : Nat
  frames : List (Nat × Nat)
  deriving DecidableEq, Repr

/-! ### Host, sessions, hub -/

/-- A frame the device sends (R381, R519), or a packet of R378. -/
structure OutFrame where
  /-- the device address it is sent from (R379) -/
  src : Nat
  peer : Nat
  ftype : Nat
  /-- CTX -/
  ctx : Nat
  sess : Nat
  seq : Nat
  ack : Nat
  stat : Nat
  payload : List Byte
  deriving DecidableEq, Repr

/-- An open session (R380, R382). -/
structure Session where
  id : Nat
  slot : Nat
  ctx : Nat
  peer : Nat
  /-- the device address to which its last request was sent (R379) -/
  here : Nat
  /-- expected sequence number E -/
  e : Nat
  /-- frames applied since the last ACK, and the cycle of the oldest of them -/
  unacked : Nat
  unackedSince : Nat
  /-- cycle of the last ACK for a frame above E -/
  lastNack : Nat
  /-- responses held for duplicates: (SEQ, response) of READ and MGMT, newest first -/
  held : List (Nat × OutFrame)
  deriving DecidableEq, Repr

/-- A handshake that has had its CHALLENGE (R519). -/
structure Handshake where
  peer : Nat
  slot : Nat
  ctx : Nat
  create : Bool
  hostNonce : List Byte
  devNonce : List Byte
  key : List Byte
  since : Nat
  deriving DecidableEq, Repr

/-- A collective group (R386) with its acceptance count K (R321). -/
structure Group where
  words : Sparse Nat
  k : Nat
  deriving DecidableEq, Repr

def Group.init : Group := { words := [], k := 0 }

/-- Counting of one structure instance (R514): events, window opened at, threshold and window then in force. -/
structure ErrCount where
  count : Nat
  opened : Nat
  thr : Nat
  win : Nat
  deriving DecidableEq, Repr

/-- One link (R511, R512): retraining or not, and lanes in use. -/
structure Link where
  retraining : Bool
  lanes : Nat
  deriving DecidableEq, Repr

/-- What the package is doing as a whole. -/
inductive Power where
  /-- reset: the boot ROM has not run yet (R522) -/
  | reset
  /-- no supply (R508) -/
  | off
  /-- the boot ROM and then the self-test of this kind run (R516, R522) -/
  | booting (full : Bool)
  | running
  /-- in hold since this cycle (R508) -/
  | hold (since : Nat)
  /-- the boot ROM refused the firmware (R522) -/
  | recovery
  deriving DecidableEq, Repr

/-- The state kept in the hub's non-volatile store (R379, R386, R506, R516, R518, R523). -/
structure NonVolatile where
  podid : Nat
  ipaddr : List Nat
  ipSet : Bool
  /-- in-service mask and EPOCH (R518) -/
  mask : BitVec 320
  epoch : Nat
  /-- next one-time index of the attestation key, and whether the key is there (R523) -/
  attIndex : Nat
  attKey : Bool
  /-- the 256 most recent records of severity 3 or above, oldest first -/
  plog : List (List Byte)
  streq : Bool
  /-- the shock sensor's flag (R516) -/
  shock : Bool
  deriving DecidableEq, Repr

/-- The issuing entry: which warp, and where. -/
structure Cursor where
  wg : Nat
  warp : Nat
  pc : Va
  npc : Va
  /-- base of the bundle, or of the QPF word -/
  base : Va
  deriving DecidableEq, Repr

/-- The package. -/
structure State where
  /-- the cycle counter (R16), 64 bits -/
  cyc : BitVec 64
  power : Power
  /-- supply level 0 to 2 (R507), cycle it last fell, cycle since which it is reduced -/
  level : Nat
  reducedSince : Nat
  /-- holds since reset (R506) -/
  holds : Nat
  held : Bool
  stpass : Bool
  shockAtPower : Bool
  /-- events from outside still to be applied, oldest first -/
  agenda : List Instr
  /-- the model's own counter of free values (Config) -/
  free : Nat
  /-- memory of this and the other packages: 52-bit physical address to byte (R143) -/
  mem : List Host.Cell
  /-- poisoned 64-byte blocks of memory (R478): physical address / 64 -/
  memPoison : Sparse Bool
  cores : Sparse Core
  /-- quad TLBs and die TLBs and walk caches (R148) -/
  quadTlb : Sparse (List TlbEntry)
  dieTlb : Sparse (List TlbEntry)
  walkCache : Sparse (List WalkEntry)
  walks : List Walk
  invals : List Inval
  ctxs : Sparse Ctx
  launches : Sparse Launch
  nextLid : Nat
  /-- launch identifiers that were enqueued, with their context: finished ones too (R367), with their final state -/
  lids : Sparse (Nat × Nat)
  /-- slot table: bind records, oldest first, per die (R368) -/
  slots : Sparse (List Bind)
  /-- workgroups: key by launch slot and index -/
  wgs : Sparse Wg
  /-- warps: key 32·workgroup key + number -/
  warps : Sparse Warp
  nextCreated : Nat
  /-- engine-context pool (R301), 4,096 entries -/
  engs : Sparse Eng
  atomQ : List AtomReq
  holdsLR : List LrHold
  /-- round-robin position over contexts, per priority: of placement, and from 4 on of taking records (R365, R373) -/
  rr : Sparse Nat
  /-- partitions that have issued in this cycle (R42) -/
  served : List Nat
  /-- the issuing entry, while an instruction is carried out -/
  cur : Option Cursor
  /-- loads: next LOADID -/
  nextLoad : Nat
  /-- collective groups (R386) -/
  groups : Sparse Group
  /-- package log: records written (R506) and the log's bytes -/
  plogCount : Nat
  plog : Sparse Byte
  /-- counting (R513): key 2^32·kind + instance -/
  errs : Sparse ErrCount
  /-- CNTk THR and WIN, where written (R514): kind to (thr, win) -/
  cnt : Sparse (Nat × Nat)
  /-- MAPBUF (R518), MAPCMD status -/
  mapbuf : Sparse Byte
  mapStat : Nat
  /-- cores a commit adds and still has to scan -/
  mapScan : List Nat
  mapNew : BitVec 320
  /-- EPOCH of the image that is being committed -/
  mapEpoch : Nat
  /-- map in force (R518) -/
  mask : BitVec 320
  epoch : Nat
  streq : Bool
  /-- MEAS (R522) -/
  meas : List Byte
  nv : NonVolatile
  /-- management registers (R386): PKGID as written and in force, IPCTL -/
  pkgidNew : Nat
  pkgid : Nat
  podid : Nat
  ipaddr : List Nat
  ipctl : Nat
  /-- cycle at which duplicate address detection ends, if running -/
  dadEnd : Nat
  linkLocal : Bool
  hostLanes : Nat
  /-- links: 0 to 9 in-package, 16 + p UALink port p (R513) -/
  links : Sparse Link
  sessions : List Session
  handshakes : List Handshake
  nextSess : Nat
  nonces : Nat
  owner : Option Nat
  /-- cycle the election window closes, once opened; whether it has closed -/
  electionEnd : Nat
  electionOpen : Bool
  electionDone : Bool
  claims : List (Nat × OutFrame)
  /-- cycle of the last applied frame of an owner session -/
  ownerSeen : Nat
  /-- cycles of failed PROVEs in the last 60 s (R525) -/
  authFails : List Nat
  hostOut : List OutFrame
  /-- Kettle allocations made so far -/
  kettle : Nat
  deriving DecidableEq, Repr

/-- Reset: nothing has run.  The next step is the boot ROM's (R522); contexts, sections, launches and workgroups come
from outside, through frames.  What the non-volatile store, the sensor and the cores hold when the device is first
powered is not in the spec. [DESIGN CHOICE; log entry 2] -/
def State.reset : State :=
  { cyc := 0, power := .reset, level := 0, reducedSince := 0, holds := 0, held := false, stpass := false,
    shockAtPower := false, agenda := [], free := 0, mem := [], memPoison := [], cores := [], quadTlb := [],
    dieTlb := [], walkCache := [], walks := [], invals := [], ctxs := [], launches := [], nextLid := 1, lids := [],
    slots := [], wgs := [], warps := [], nextCreated := 0, engs := [], atomQ := [], holdsLR := [], rr := [],
    served := [], cur := none, nextLoad := 1, groups := [], plogCount := 0, plog := [], errs := [], cnt := [],
    mapbuf := [], mapStat := 0, mapScan := [], mapNew := 0, mapEpoch := 0, mask := BitVec.allOnes 320, epoch := 0, streq := false,
    meas := List.replicate 32 0,
    nv := { podid := 0, ipaddr := List.replicate 16 0, ipSet := false, mask := BitVec.allOnes 320, epoch := 0,
            attIndex := 0, attKey := true, plog := [], streq := false, shock := false },
    pkgidNew := 0, pkgid := 0, podid := 0, ipaddr := List.replicate 16 0, ipctl := 0, dadEnd := 0,
    linkLocal := false, hostLanes := 0, links := [], sessions := [], handshakes := [], nextSess := 1, nonces := 0,
    owner := none, electionEnd := 0, electionOpen := false, electionDone := false, claims := [], ownerSeen := 0,
    authFails := [], hostOut := [], kettle := 0 }

end Sys2Proof.Machine
end

