-- ==== Sys2Proof/Machine/Access.lean ====
section
/-!
DEFINITION. Reading and changing one piece of the state: a warp, a lane, a workgroup, a core, a context, a launch, an
engine context.  Everything else goes through these.
-/

namespace Sys2Proof.Machine

open Sys2Proof

/-- The key of a warp. -/
def warpKey (wg w : Nat) : Nat := 32 * wg + w
/-- The key of a workgroup: launch slot and linear index. -/
def wgKey (lslot index : Nat) : Nat := 2 ^ 32 * lslot + index

namespace State

def getWarp (s : State) (wg w : Nat) : Warp := s.warps.get Warp.init (warpKey wg w)
def setWarp (s : State) (wg w : Nat) (x : Warp) : State := { s with warps := s.warps.put (warpKey wg w) x }
def modWarp (s : State) (wg w : Nat) (f : Warp → Warp) : State := s.setWarp wg w (f (s.getWarp wg w))
def getWg (s : State) (k : Nat) : Wg := s.wgs.get Wg.init k
def setWg (s : State) (k : Nat) (x : Wg) : State := { s with wgs := s.wgs.put k x }
def modWg (s : State) (k : Nat) (f : Wg → Wg) : State := s.setWg k (f (s.getWg k))
def getCore (s : State) (p : Nat) : Core := s.cores.get Core.init p
def setCore (s : State) (p : Nat) (x : Core) : State := { s with cores := s.cores.put p x }
def modCore (s : State) (p : Nat) (f : Core → Core) : State := s.setCore p (f (s.getCore p))
def getCtx (s : State) (c : Nat) : Ctx := s.ctxs.get Ctx.init c
def setCtx (s : State) (c : Nat) (x : Ctx) : State := { s with ctxs := s.ctxs.put c x }
def modCtx (s : State) (c : Nat) (f : Ctx → Ctx) : State := s.setCtx c (f (s.getCtx c))
def getEng (s : State) (e : Nat) : Eng := s.engs.get Eng.init e
def setEng (s : State) (e : Nat) (x : Eng) : State := { s with engs := s.engs.put e x }
def modEng (s : State) (e : Nat) (f : Eng → Eng) : State := s.setEng e (f (s.getEng e))

end State

/-- A launch-table slot that holds nothing. -/
def Launch.init : Launch :=
  { lid := 0, lr := LRec.init, host := false, owner := false, prio := 0, state := 0, reason := 0, checked := false,
    nextWg := 0, pending := 0, unwritten := [], done := [], ndone := 0, failed := 0, failing := false, held := [],
    cycS := 0, started := false,
    kernel := none, loadId := 0, ncore := 0, gbars := [], pre := [], writers := [], gone := [] }

namespace State

def getLaunch (s : State) (l : Nat) : Launch := s.launches.get Launch.init l
def setLaunch (s : State) (l : Nat) (x : Launch) : State := { s with launches := s.launches.put l x }
def modLaunch (s : State) (l : Nat) (f : Launch → Launch) : State := s.setLaunch l (f (s.getLaunch l))

/-- The present cycle count as a number. -/
def now (s : State) : Nat := s.cyc.toNat

/-- The launch record of a workgroup. -/
def wgRec (s : State) (wg : Nat) : LRec := (s.getLaunch (s.getWg wg).lslot).lr
/-- The context of a workgroup. -/
def wgCtx (s : State) (wg : Nat) : Nat := (s.wgRec wg).ctx
/-- The ASID of a workgroup. -/
def wgAsid (s : State) (wg : Nat) : Nat := (s.getCtx (s.wgCtx wg)).asid
/-- The launch is deterministic (R362 FLAGS[0]). -/
def wgDet (s : State) (wg : Nat) : Bool := bitB (s.wgRec wg).flags 0

end State

/-- The kernel a workgroup runs: its native section, or its QPF section. -/
def State.wgKernel (s : State) (wg : Nat) : Option Kernel := (s.getLaunch (s.getWg wg).lslot).kernel

/-- Lane `l` of a warp. -/
def Warp.lane (w : Warp) (l : Nat) : Lane := w.lanes.get Lane.init l
def Warp.setLane (w : Warp) (l : Nat) (x : Lane) : Warp := { w with lanes := w.lanes.put l x }
def Warp.modLane (w : Warp) (l : Nat) (f : Lane → Lane) : Warp := w.setLane l (f (w.lane l))

/-- The lanes of a set, ascending. -/
def lanesOf (m : LaneSet) : List Nat := setBitsOf 32 m.toNat
/-- The set of the listed lanes. -/
def laneSet (ls : List Nat) : LaneSet := BitVec.ofNat 32 (maskOf ls)
/-- The lowest lane of a set. -/
def lowestLane (m : LaneSet) : Option Nat := lowestBit 32 m.toNat

/-- Lanes that were launched and have not exited. -/
def Warp.live (w : Warp) : LaneSet :=
  laneSet ((List.range 32).filter (fun l => (w.lane l).launched && !(w.lane l).exited))

/-- Lanes in the hold set (R41). -/
def Warp.heldLanes (w : Warp) : List Nat := (List.range 32).filter (fun l => (w.lane l).hold.isSome)

/-- The warps of a workgroup. -/
def State.wgWarps (s : State) (wg : Nat) : List Nat := List.range (s.getWg wg).nwarps

/-- Physical quad and die of a core (R17). -/
def coreQuad (p : Nat) : Nat := p / 4
def coreDie (p : Nat) : Nat := p / 80

/-- A sample of `cyc` on die `d` (R16): its copy stands within 2 counts of the master copy, where is open.
[DESIGN CHOICE; log entry 114] -/
def State.sample (s : State) (d : Nat) : Nat := s.cyc.toNat + Config.cycSkew d % 5 - 2

/-- Number of cores in service, N (R18). -/
def State.ncore (s : State) : Nat := popCount 320 s.mask.toNat
/-- Logical number of a core (R18). -/
def State.logical (s : State) (p : Nat) : Nat := popCount p s.mask.toNat
/-- Physical core of a logical number. -/
def State.physical (s : State) (n : Nat) : Option Nat := (setBitsOf 320 s.mask.toNat)[n]?

/-- Read a fixed-size field of a warp's stack registers: key of stack position and lane. -/
def vKey (pos lane : Nat) : Nat := 32 * pos + lane

def Warp.getV (w : Warp) (lane pos : Nat) : Word := w.v.get 0 (vKey pos lane)
def Warp.getK (w : Warp) (n : Nat) : Word := w.k.get 0 n
def Warp.getH (w : Warp) (lane n : Nat) : DWord := w.h.get 0 (32 * n + lane)
/-- Predicate `n` of a lane; `p0` is true (R82). -/
def Warp.getP (w : Warp) (lane n : Nat) : Bool := n = 0 || (w.p.get 0 n).getLsbD lane

/-- Poison keys (R478). -/
def poisonV (pos lane : Nat) : Nat := vKey pos lane
def poisonK (n : Nat) : Nat := 2 ^ 32 + n
def poisonH (n lane : Nat) : Nat := 2 ^ 33 + 32 * n + lane

def Warp.markPoison (w : Warp) (key : Nat) (b : Bool) : Warp := { w with poison := w.poison.set false key b }

/-- Carry out one register write (R82: `p0` is not written; R478: no value marks the register poisoned and leaves
its bits). -/
def Warp.write (w : Warp) : RegWrite → Warp
  | .v lane pos (some x) => { w with v := w.v.set 0 (vKey pos lane) x }.markPoison (poisonV pos lane) false
  | .v lane pos none => w.markPoison (poisonV pos lane) true
  | .k n (some x) => { w with k := w.k.set 0 n x }.markPoison (poisonK n) false
  | .k n none => w.markPoison (poisonK n) true
  | .p lane n b =>
    if n = 0 then w
    else
      let m := w.p.get 0 n
      let bit : LaneSet := 1#32 <<< lane
      { w with p := w.p.set 0 n (if b then m ||| bit else m &&& ~~~bit) }
  | .h lane n (some x) => { w with h := w.h.set 0 (32 * n + lane) x }.markPoison (poisonH n lane) false
  | .h lane n none => w.markPoison (poisonH n lane) true

/-- Carry out register writes in order. -/
def Warp.writeAll (w : Warp) (ws : List RegWrite) : Warp := ws.foldl Warp.write w

/-! ### The PC table (R40) -/

/-- What an entry waits for when two merge (R40): a failed or a waiting delivery stays, and two ACQ.ge that read one SEQ wait
on; otherwise the instruction is tried again. [DEDUCED; log entry 118] -/
def EntryWait.merge (a b : EntryWait) : EntryWait :=
  if a = b then a
  else
    match a, b with
    | .undelivered r, _ | _, .undelivered r => .undelivered r
    | .remote a d, .remote b e => .remote (max a b) (max d e)
    | .remote a d, _ | _, .remote a d => .remote a d
    | _, _ => .none

/-- Put lanes into the table at a PC: they join the entry there, which keeps the larger counters (R40), or become an
entry in its place.  An entry that has stopped under a yield stays stopped when lanes join it (R59).
[DEDUCED; log entry 119] -/
def tableInsert : List Entry → Entry → List Entry
  | [], e => [e]
  | x :: t, e =>
    if e.pc.toNat < x.pc.toNat then e :: x :: t
    else if e.pc = x.pc then
      { x with mask := x.mask ||| e.mask, stall := max x.stall e.stall, fair := max x.fair e.fair,
               overdue := x.overdue || e.overdue, stopped := x.stopped || e.stopped,
               backward := x.backward || e.backward, yielded := x.yielded && e.yielded,
               wait := x.wait.merge e.wait, owed := (x.owed ++ e.owed).dedup } :: t
    else x :: tableInsert t e

/-- A fresh entry: counters zero. -/
def Entry.fresh (pc : Va) (mask : LaneSet) : Entry :=
  { pc := pc, mask := mask, stall := 0, fair := 0, overdue := false, stopped := false, backward := false,
    yielded := false, wait := .none, owed := [] }

/-- The entry at a PC. -/
def Warp.entryAt (w : Warp) (pc : Va) : Option Entry := w.table.find? (fun e => e.pc = pc)

/-- The table without the entry at a PC. -/
def Warp.dropEntry (w : Warp) (pc : Va) : Warp := { w with table := w.table.filter (fun e => e.pc ≠ pc) }

/-- Add lanes at a PC, unless there are none. -/
def Warp.addEntry (w : Warp) (e : Entry) : Warp :=
  if e.mask = 0 then w else { w with table := tableInsert w.table e }

/-- Change the entry at a PC. -/
def Warp.modEntry (w : Warp) (pc : Va) (f : Entry → Entry) : Warp :=
  { w with table := w.table.map (fun e => if e.pc = pc then f e else e) }

/-- Lanes that come back to the table: in mode S, lanes other than the trapping entry's wait aside (R351, R429). -/
def Warp.enter (w : Warp) (e : Entry) : Warp :=
  if e.mask = 0 then w
  else if w.modeS && (e.mask &&& w.trapLanes) = 0 then { w with aside := tableInsert w.aside e }
  else { w with table := tableInsert w.table e }

/-- Release lanes from the hold set: each group with a common resume PC becomes one entry with counter zero, or joins
the entry there (R41, R45, R67); the stall count of the instruction at which they parked still runs (R195). -/
def Warp.releaseLanes (w : Warp) (ls : List Nat) : Warp :=
  ls.foldl (fun w l =>
    match (w.lane l).hold with
    | none => w
    | some h =>
      -- under a pending yield it stands stopped at its resume PC (R59, R73), but for a barrier it has to reach (R282)
      (w.modLane l (fun x => { x with hold := none })).enter
        { Entry.fresh h.rpc (laneSet [l]) with stall := h.stall, stopped := w.yp && (w.lane l).arrived = [] }) w

/-- Park lanes of the warp (R41): they leave the table by the caller. -/
def Warp.park (w : Warp) (ls : List Nat) (kind : HoldKind) (rpc : Va) (wake : Nat) : Warp :=
  ls.foldl (fun w l =>
    w.modLane l (fun x => { x with
      hold := some { kind := kind, rpc := rpc, wake := wake, need := true, group := 0, stall := 0 } })) w

end Sys2Proof.Machine
end

