-- ==== Sys2Proof/Machine/Hub.lean ====
section
/-!
DEFINITION. The hub registers (R506): what each reads as, and what a write does.  Writes that Kettle firmware answers
with an action of its own are put on the agenda, and the next step carries them out.
-/

namespace Sys2Proof.Machine

open Sys2Proof

/-- Write bytes into a hub area kept as plain state. -/
def putBytes (m : Sparse Byte) (off : Nat) (bs : List Byte) : Sparse Byte :=
  ((List.range bs.length).zip bs).foldl (fun m e => Sparse.set m 0 (off + e.1) e.2) m

/-- THR and WIN of a structure kind as reset leaves them (R513). -/
def cntDefault (k : Nat) : Nat × Nat :=
  match k with
  | 1 => (8, 86400)
  | 2 => (4, 3600)
  | 3 => (16, 86400)
  | 4 => (64, 86400)
  | 5 => (8, 3600)
  | 6 => (8, 3600)
  | 7 => (8, 3600)
  | _ => (4, 86400)

/-- THR and WIN in force of a kind (R514). -/
def State.cntOf (s : State) (k : Nat) : Nat × Nat := (Sparse.find? s.cnt k).getD (cntDefault k)

/-- PSTATE (R506). -/
def pstate (s : State) : Nat :=
  s.level + b2n s.shockAtPower * 4 + b2n s.stpass * 8 + b2n s.nv.attKey * 16 + b2n s.held * 32 + min 255 s.holds * 256

/-- The value of an 8-byte hub register at `off`, a multiple of 8. -/
def hubReg (s : State) (off : Nat) : Nat :=
  if off = 0 then pstate s
  else if 0x108 ≤ off && off < 0x148 then
    let c := s.cntOf ((off - 0x100) / 8)
    c.1 + c.2 * 2 ^ 16
  else if off = 0x200 then b2n s.streq
  else if off = 0x22000 then s.mapStat
  else if 0x22008 ≤ off && off < 0x22030 then bits s.mask.toNat (8 * (off - 0x22008)) 64
  else if off = 0x22030 then s.epoch
  else 0

/-- One byte of the hub registers (R506). -/
def hubByte (s : State) (off : Nat) : Byte :=
  if 0x20000 ≤ off && off < 0x22000 then Sparse.get s.mapbuf 0 (off - 0x20000)
  else if 0x30000 ≤ off && off < 0x30400 then Config.policyByte (off - 0x30000)
  else if 0x100000 ≤ off && off < 0x140040 then Sparse.get s.plog 0 (off - 0x100000)
  else BitVec.ofNat 8 (bits (hubReg s (off / 8 * 8)) (8 * (off % 8)) 8)

/-- A write of the whole value of an 8-byte hub register. -/
def hubRegWrite (s : State) (off v : Nat) : State :=
  if 0x108 ≤ off && off < 0x148 then { s with agenda := s.agenda ++ [.cntWrite ((off - 0x100) / 8) v] }
  else if off = 0x200 then { s with agenda := s.agenda ++ [.streqWrite v] }
  else if off = 0x22000 then (if bitB v 0 then { s with agenda := s.agenda ++ [.mapCommit] } else s)
  else s

/-- A write of bytes to the hub registers (R506): bytes of MAPBUF are stored; a register takes the written bytes with
its other bytes as they read. -/
def hubWrite (s : State) (off : Nat) (bs : List Byte) : State :=
  let idx := (List.range bs.length).zip bs
  let buf := idx.filter (fun e => 0x20000 ≤ off + e.1 && off + e.1 < 0x22000)
  let s := { s with mapbuf := buf.foldl (fun m e => Sparse.set m 0 (off + e.1 - 0x20000) e.2) s.mapbuf }
  (List.range ((off + bs.length + 7) / 8 - off / 8)).foldl (fun s i =>
    let r := (off / 8 + i) * 8
    let v := ofLE ((List.range 8).map (fun j =>
      if off ≤ r + j then (bs[r + j - off]?).getD (hubByte s (r + j)) else hubByte s (r + j)))
    hubRegWrite s r v) s

end Sys2Proof.Machine
end

