-- ==== Sys2Proof/Machine/Mem.lean ====
section
/-!
DEFINITION. Memory: the physical map (R143), the owning L2 (R140, R142), the L1 (R136, R139, R155), translation (R146 to
R148) with the checks of R470 to R472, poison (R478), and the view and buffer of deterministic mode (R173 to R177).
-/

namespace Sys2Proof.Machine

open Sys2Proof

/-! ### The physical map -/

/-- Package id of a physical address (R143). -/
def paPkg (pa : Nat) : Nat := bits pa 42 10
/-- Local address of a physical address (R143). -/
def paLocal (pa : Nat) : Nat := bits pa 0 42
/-- Base of the hub registers (R143, R506). -/
def hubBase : Nat := 0x3FF00000000
/-- The local address is in HBM. -/
def inHBM (l : Nat) : Bool := l < 0x6000000000
/-- The local address is a hub register. -/
def inHub (l : Nat) : Bool := hubBase ≤ l
/-- Die that holds an HBM address (R143). -/
def paDie (pa : Nat) : Nat := paLocal pa / 0x1800000000

/-! ### The owning L2 (R140): the point of coherence -/

/-- What a byte of memory reads as where nothing has been written. [DESIGN CHOICE; log entry 1] -/
def memDefault : Byte := 0

/-- The address is one of this package's hub registers. -/
def ownHub (s : State) (pa : Nat) : Bool := paPkg pa = s.pkgid && inHub (paLocal pa)

/-- The byte at the owning L2, or of a hub register. -/
def memByte (s : State) (pa : Nat) : Byte :=
  if ownHub s pa then hubByte s (paLocal pa - hubBase) else Sparse.get s.mem memDefault pa

/-- `n` bytes at the owning L2. -/
def memBytes (s : State) (pa n : Nat) : List Byte := (List.range n).map (fun i => memByte s (pa + i))

/-- A number of `n` bytes at the owning L2. -/
def memNat (s : State) (pa n : Nat) : Nat := ofLE (memBytes s pa n)

/-- The memory list with one byte written, in canonical form. -/
def memSet (m : List Host.Cell) (pa : Nat) (b : Byte) : List Host.Cell := Sparse.set m memDefault pa b

/-- The canonical form of memory: addresses strictly rising and no entry equal to what an unlisted byte reads as. -/
def Memory.wf (m : List Host.Cell) : Bool := Sparse.wf m memDefault

/-- Clear the reservations on the granule of a byte (R142) that the test on workgroups admits. -/
def clearResv (s : State) (pa : Nat) (p : Nat → Bool) : State :=
  if s.warps.any (fun e => p (e.1 / 32) && e.2.lanes.any (fun x => x.2.resv = some (pa / 32))) then
    { s with warps := s.warps.map (fun e => if !p (e.1 / 32) then e else (e.1, { e.2 with lanes := e.2.lanes.map (fun x =>
        (x.1, if x.2.resv = some (pa / 32) then { x.2 with resv := none } else x.2)) })) }
  else s

/-- The granules that a range of bytes meets. -/
def granules (pa n : Nat) : List Nat := (List.range ((pa + n + 31) / 32 - pa / 32)).map (fun i => pa / 32 + i)

/-- A hold lasts while a lane of its warp keeps a reservation on the granule (R277). -/
def LrHold.lasts (h : LrHold) (s : State) : Bool := (s.getWarp h.wg h.warp).lanes.any (fun x => x.2.resv = some h.granule)

/-- The warp whose LR hold is on a granule at its unit (R277). -/
def State.holder (s : State) (g : Nat) : Option LrHold :=
  s.holdsLR.find? (fun h => h.granule = g && !s.wgDet h.wg && h.lasts s)

/-- A granule of the range is held by another warp than the one given (R277). -/
def State.heldFrom (s : State) (pa n wg w : Nat) : Bool :=
  (granules pa n).any (fun g => match s.holder g with
    | some h => !(h.wg = wg && h.warp = w)
    | none => false)
/-- A granule of the range is held. -/
def State.heldAny (s : State) (pa n : Nat) : Bool := (granules pa n).any (fun g => (s.holder g).isSome)
/-- A granule of the range is held, in the view of a deterministic workgroup, by a warp of it that the test admits: no other
workgroup meets that hold (R173, R277). -/
def State.heldWithin (s : State) (pa n wg : Nat) (p : Nat → Bool) : Bool :=
  s.holdsLR.any (fun h => h.wg = wg && p h.warp && h.lasts s && (granules pa n).contains h.granule)
/-- An engine's write for a workgroup waits for a hold (R277). -/
def State.heldEngine (s : State) (pa n wg : Nat) : Bool :=
  if s.wgDet wg then s.heldWithin pa n wg (fun _ => true) else s.heldAny pa n

/-- Two ranges overlap. -/
def overlaps (a n b m : Nat) : Bool := a < b + m && b < a + n

/-- The 64-byte block of a byte is poisoned (R478). -/
def blockPoison (s : State) (pa : Nat) : Bool := s.memPoison.get false (pa / 64)

/-- Write bytes at the owning L2: the coherence order takes them (R152), reservations on their granules go (R142; those
of a deterministic launch only by its own writes, R277), and a block written whole is no longer poisoned (R478). -/
def l2Write (s : State) (pa : Nat) (bs : List Byte) : State :=
  if ownHub s pa then hubWrite s (paLocal pa - hubBase) bs
  else
    let n := bs.length
    let mem := (List.range n).zip bs |>.foldl (fun m e => memSet m (pa + e.1) e.2) s.mem
    let s := { s with mem := mem }
    let s := (granules pa n).foldl (fun s g => clearResv s (g * 32) (fun wg => !s.wgDet wg)) s
    let full := (List.range (n / 64 + 1)).filter (fun b =>
      pa ≤ (ceilDiv pa 64 + b) * 64 && (ceilDiv pa 64 + b) * 64 + 64 ≤ pa + n)
    { s with memPoison := full.foldl (fun m b => Sparse.set m false (ceilDiv pa 64 + b) false) s.memPoison }

/-- Poison the block of a byte. -/
def poisonBlock (s : State) (pa : Nat) : State := { s with memPoison := s.memPoison.set false (pa / 64) true }

/-! ### The L1 (R136, R139, R155).  A byte's dirty bits are kept in `dirtyBits` beside its value. -/

/-- The bytes of a line. -/
def inLine (line a : Nat) : Bool := a / 128 = line

/-- The L1 has the line of a byte. -/
def l1Present (c : Core) (pa : Nat) : Bool := (c.l1tag.find? (pa / 128)).isSome

/-- One byte as a core's weak read sees it: the L1's where it holds it, else the owning L2's. -/
def l1Peek (s : State) (p pa : Nat) : Byte :=
  match (s.getCore p).l1.find? pa with
  | some b => (b.val &&& b.valid) ||| (memByte s pa &&& ~~~b.valid)
  | none => memByte s pa

/-- The byte comes from a poisoned block: the L1 does not hold all of it dirty (R478). -/
def l1Poison (s : State) (p pa : Nat) : Bool :=
  blockPoison s pa && (match (s.getCore p).l1.find? pa with
    | some b => b.dirty ≠ 0xFF
    | none => true)

/-- Store bits of one byte into the L1 as dirty. -/
def l1StoreByte (c : Core) (pa : Nat) (x mask : Byte) : Core :=
  let old := (c.l1.find? pa).getD { val := 0, valid := 0, dirty := 0 }
  { c with l1 := c.l1.put pa { val := (x &&& mask) ||| (old.val &&& ~~~mask), valid := old.valid ||| mask,
                               dirty := old.dirty ||| mask } }

/-- Merge bits of one byte into the owning L2. -/
def l2Merge (s : State) (pa : Nat) (x mask : Byte) : State :=
  if mask = 0xFF then l2Write s pa [x]
  else if mask = 0 then s
  else l2Write s pa [(x &&& mask) ||| (memByte s pa &&& ~~~mask)]

/-- Merge masked bytes into the owning L2: one write where all their bits are written. -/
def mergeBytes (s : State) (pa : Nat) (bs : List (Byte × Byte)) : State :=
  if bs.all (fun e => e.2 = 0xFF) then l2Write s pa (bs.map (·.1))
  else ((List.range bs.length).zip bs).foldl (fun s e => l2Merge s (pa + e.1) e.2.1 e.2.2) s

/-- A dirty byte of the L1 that an LR hold keeps waiting at its unit (R277). -/
def dirtyHeld (s : State) (e : Nat × L1Byte) : Bool := e.2.dirty ≠ 0 && s.heldAny e.1 1

/-- Some dirty byte that `inB` names waits for an LR hold to end. -/
def writebackHeld (s : State) (p : Nat) (inB : Nat → Bool) : Bool :=
  s.holdsLR ≠ [] && (s.getCore p).l1.any (fun e => inB e.1 && dirtyHeld s e)

/-- Some dirty byte of a line in the L1 waits for the hold of another warp than the one given: an access that goes to the
unit writes it back first (R152). -/
def lineHeld (s : State) (p pa wg w : Nat) : Bool :=
  s.holdsLR ≠ [] && (s.getCore p).l1.any (fun e => inLine (pa / 128) e.1 && e.2.dirty ≠ 0 && s.heldFrom e.1 1 wg w)

/-- writeback(B) of R155 on core `p`, for the bytes that `inB` names: dirty bits reach the owning L2, in ascending
address; a byte on a granule under an LR hold stays dirty (R277). -/
def writeback (s : State) (p : Nat) (inB : Nat → Bool) : State :=
  let dirty := (s.getCore p).l1.filter (fun e => e.2.dirty ≠ 0 && inB e.1 && !dirtyHeld s e)
  let s' := dirty.foldl (fun s e => l2Merge s e.1 e.2.val e.2.dirty) s
  s'.modCore p (fun c => { c with l1 := c.l1.map (fun e =>
    (e.1, if inB e.1 && !dirtyHeld s e then { e.2 with dirty := 0 } else e.2)) })

/-- drop(B) of R155: writeback, then every line that holds a byte of B is invalidated (its other dirty bytes are
written back first, R136).  Of a line with bytes still dirty only these bits stay. -/
def dropLines (s : State) (p : Nat) (inB : Nat → Bool) : State :=
  let lines := (((s.getCore p).l1.filter (fun e => inB e.1)).map (fun e => e.1 / 128)).dedup
  let s := writeback s p (fun a => lines.contains (a / 128))
  s.modCore p (fun c =>
    let l1 := c.l1.filterMap (fun (e : Nat × L1Byte) =>
      if !lines.contains (e.1 / 128) then some e
      else if e.2.dirty = 0 then none
      else some (e.1, { e.2 with valid := e.2.dirty }))
    { c with
      l1 := l1
      l1tag := c.l1tag.filter (fun e => !lines.contains e.1 || l1.any (fun x => x.1 / 128 = e.1)) })

/-! The sets and ways of the L1 (R136) -/

/-- The lines that the L1 holds in the set of a line: 256 sets, chosen by address bits [14:7]. -/
def Core.setOf (c : Core) (line : Nat) : List Nat := (c.l1tag.map (·.1)).filter (fun t => t % 256 = line % 256)
/-- Its ways that hold cache lines: 16 less those of the scratchpad. -/
def Core.ways (c : Core) : Nat := 16 - c.share

/-- A place for a line in the L1: it is there, or its set has a way free, or another line of the set leaves, its dirty bytes
written back first.  Which one leaves is open; a line with a byte that an LR hold keeps from its unit cannot leave (R277), and
with none that can the line is not allocated. [DESIGN CHOICE; log entry 129] -/
def l1Room (s : State) (p line : Nat) : Option State :=
  let c := s.getCore p
  let set := c.setOf line
  if set.contains line || set.length < c.ways then some s
  else
    let vs := set.filter (fun t => !c.l1.any (fun b => inLine t b.1 && dirtyHeld s b))
    (vs[Config.victim s.free % vs.length]?).map (fun v => dropLines { s with free := s.free + 1 } p (inLine v))

/-- Allocate the sector of a byte as a load does (R136, R139): every byte of the 32-byte sector that is not wholly
valid is fetched from the L2 and merged. -/
def l1Fill (s : State) (p pa asid va : Nat) : State :=
  let base := pa / 32 * 32
  let c := s.getCore p
  let l1 := (List.range 32).foldl (fun m i =>
    let a := base + i
    Sparse.put m a (match Sparse.find? m a with
      | some b => { val := (b.val &&& b.valid) ||| (memByte s a &&& ~~~b.valid), valid := 0xFF, dirty := b.dirty }
      | none => { val := memByte s a, valid := 0xFF, dirty := 0 })) c.l1
  let tag := match c.l1tag.find? (pa / 128) with
    | some t => t
    | none => (asid, va / 65536)
  s.setCore p { c with l1 := l1, l1tag := c.l1tag.put (pa / 128) tag }

/-- The hint allocates in the L1 on a miss (R139); memory type 01 never does (R143). -/
def hintAllocates (hint mt : Nat) : Bool := mt = 0 && (hint = 0 || hint = 3 || hint = 4)

/-- A weak load of `n` bytes within one line by core `p` (R136, R139): what it returns is `l1Peek`; it may allocate. -/
def l1Load (s : State) (p pa n hint mt asid va : Nat) : State :=
  let fill (s : State) : State :=
    (List.range n).foldl (fun s i => if (pa + i) % 32 = 0 || i = 0 then l1Fill s p (pa + i) asid (va + i) else s) s
  if l1Present (s.getCore p) pa then (if mt = 0 then fill s else s)
  else if hintAllocates hint mt then ((l1Room s p (pa / 128)).map fill).getD s
  else s

/-- Store masked bytes of one line into the L1 as dirty, with the line's record (R136). -/
def l1Put (s : State) (p pa : Nat) (bs : List (Byte × Byte)) (asid va : Nat) : State :=
  let c := ((List.range bs.length).zip bs).foldl (fun c e => if e.2.2 = 0 then c else l1StoreByte c (pa + e.1) e.2.1 e.2.2)
    (s.getCore p)
  s.setCore p { c with l1tag := c.l1tag.put (pa / 128) (asid, va / 65536) }

/-- A store by core `p` stays in its L1: it hits there, or allocates (R139). -/
def storesInL1 (s : State) (p pa hint mt : Nat) : Bool :=
  l1Present (s.getCore p) pa || (hintAllocates hint mt && (l1Room s p (pa / 128)).isSome)

/-- A weak store of the masked bytes, within one line, by core `p` (R136, R139): into the L1 where it hits or allocates, else to
the owning L2. -/
def l1Store (s : State) (p pa : Nat) (bs : List (Byte × Byte)) (hint mt asid va : Nat) : State :=
  if l1Present (s.getCore p) pa then l1Put s p pa bs asid va
  else
    match (if hintAllocates hint mt then l1Room s p (pa / 128) else none) with
    | some s => l1Put s p pa bs asid va
    | none => mergeBytes s pa bs

def writebackAll (s : State) (p : Nat) : State := writeback s p (fun _ => true)
def dropAll (s : State) (p : Nat) : State := dropLines s p (fun _ => true)

/-! ### Translation (R146 to R148) -/

/-- The levels of a walk from PT6 down: shift of the index, its bits, the level (R146). -/
def ptLevels : List (Nat × Nat × Nat) := [(70, 10, 6), (57, 13, 5), (44, 13, 4), (31, 13, 3), (21, 10, 2), (16, 5, 1)]

/-- Alignment of the table of a level (R146). -/
def ptAlign (lvl : Nat) : Nat := if lvl = 6 || lvl = 2 then 8192 else if lvl = 1 then 256 else 65536

/-- What one entry says (R147): the next table, a leaf, or the reason of class 0x06 that ends the walk. -/
inductive PteResult where
  | table (pa : Nat)
  | leaf (e : TlbEntry)
  | fail (reason : Nat)
  deriving DecidableEq, Repr

/-- Read a page-table entry at level `lvl` whose index lies at bit `shift` (R146, R147, R470). -/
def readPte (asid va lvl shift pte : Nat) : PteResult :=
  let leaf := bitB pte 1
  let mt := bits pte 6 2
  if !bitB pte 0 then .fail 1
  else if bits pte 52 12 ≠ 0 || mt = 3 || (bitB pte 3 && !bitB pte 2) then .fail 3
  else if leaf then
    if 3 < lvl || bits pte 8 (shift - 8) ≠ 0 then .fail 3
    else .leaf { asid := asid, va := va / 2 ^ shift * 2 ^ shift, size := shift, pa := bits pte 0 52 / 2 ^ shift * 2 ^ shift,
                 mt := mt, priv := bitB pte 5, x := bitB pte 4, wr := bitB pte 3, rd := bitB pte 2 }
  else if lvl = 1 then .fail 3
  else
    let t := bits pte 8 44 * 256
    if t % ptAlign (lvl - 1) ≠ 0 then .fail 3 else .table t

/-- A walk from a table down the levels: the leaf or the reason, and the non-leaf entries passed (R146). A poisoned
table line ends it as malformed (R479). -/
def walkFrom (s : State) (asid va : Nat) : List (Nat × Nat × Nat) → Nat → Except Nat TlbEntry × List WalkEntry
  | [], _ => (.error 3, [])
  | (shift, n, lvl) :: rest, table =>
    let pa := table + 8 * bits va shift n
    if blockPoison s pa then (.error 3, [])
    else
      match readPte asid va lvl shift (memNat s pa 8) with
      | .fail r => (.error r, [])
      | .leaf e => (.ok e, [])
      | .table t =>
        let r := walkFrom s asid va rest t
        (r.1, { asid := asid, lvl := lvl - 1, vaHi := va / 2 ^ shift, table := t } :: r.2)

/-- The walk of an address reads a poisoned line (R479). -/
def walkPoisoned (s : State) (asid va : Nat) : List (Nat × Nat × Nat) → Nat → Bool
  | [], _ => false
  | (shift, n, lvl) :: rest, table =>
    let pa := table + 8 * bits va shift n
    blockPoison s pa || (match readPte asid va lvl shift (memNat s pa 8) with
      | .table t => walkPoisoned s asid va rest t
      | _ => false)

/-- The context with an ASID. -/
def State.ctxOfAsid (s : State) (asid : Nat) : Option Nat :=
  (List.find? (fun e : Nat × Ctx => e.2.exists_ && e.2.asid = asid) s.ctxs).map (·.1)

/-- The deepest cached table for an address in a walk cache (R148), among the levels listed. -/
def walkStart (cache : List WalkEntry) (asid va pt6 : Nat) : List (Nat × Nat × Nat) → List (Nat × Nat × Nat) × Nat
  | [] => (ptLevels, pt6)
  | (shift, n, lvl) :: rest =>
    -- levels are tried from the lowest upward: `rest` holds the levels above
    match cache.find? (fun w => w.asid = asid && w.lvl = lvl && w.vaHi = va / 2 ^ (shift + n)) with
    | some w => (ptLevels.filter (fun l => l.2.2 ≤ lvl), w.table)
    | none => walkStart cache asid va pt6 rest

/-- The table walker of a die (R148): the result of a walk, with the walk cache it leaves. -/
def walk (s : State) (die asid va : Nat) : Except Nat TlbEntry × State :=
  match s.ctxOfAsid asid with
  | none => (.error 1, s)
  | some c =>
    let cache := s.walkCache.get [] die
    let st := walkStart cache asid va (s.getCtx c).pt6 ptLevels.reverse
    let r := walkFrom s asid va st.1 st.2
    (r.1, { s with walkCache := s.walkCache.put die ((r.2 ++ cache).take 1024) })

/-- The entry maps the address. -/
def TlbEntry.covers (e : TlbEntry) (asid va : Nat) : Bool := e.asid = asid && e.va / 2 ^ e.size = va / 2 ^ e.size

/-- The translation of an address for core `p` (R148): L1 TLB, quad TLB, die TLB, then a walk, filling what it missed.
Entries with V = 0 are never kept.  Which entries a full structure gives up is not architectural: the oldest.
[DESIGN CHOICE; log entry 12] -/
def translate (s : State) (p asid va : Nat) : Except Nat TlbEntry × State :=
  let hit (l : List TlbEntry) := l.find? (fun e => e.covers asid va)
  let q := coreQuad p
  let d := coreDie p
  let fillL1 (s : State) (e : TlbEntry) := s.modCore p (fun c => { c with tlb := (e :: c.tlb).take 64 })
  let fillQ (s : State) (e : TlbEntry) := { s with quadTlb := s.quadTlb.put q ((e :: s.quadTlb.get [] q).take 2048) }
  let fillD (s : State) (e : TlbEntry) := { s with dieTlb := s.dieTlb.put d ((e :: s.dieTlb.get [] d).take 32768) }
  match hit (s.getCore p).tlb with
  | some e => (.ok e, s)
  | none =>
    match hit (s.quadTlb.get [] q) with
    | some e => (.ok e, fillL1 s e)
    | none =>
      match hit (s.dieTlb.get [] d) with
      | some e => (.ok e, fillL1 (fillQ s e) e)
      | none =>
        match walk s d asid va with
        | (.ok e, s) => (.ok e, fillL1 (fillQ (fillD s e) e) e)
        | (.error r, s) => (.error r, s)

/-- The translation of an address for an engine of a die: die TLB, then a walk (R148). -/
def translateDie (s : State) (d asid va : Nat) : Except Nat TlbEntry × State :=
  match (s.dieTlb.get [] d).find? (fun e => e.covers asid va) with
  | some e => (.ok e, s)
  | none =>
    match walk s d asid va with
    | (.ok e, s) => (.ok e, { s with dieTlb := s.dieTlb.put d ((e :: s.dieTlb.get [] d).take 32768) })
    | (.error r, s) => (.error r, s)

/-- The rights an access needs (R471). -/
structure Right where
  rd : Bool
  wr : Bool
  x : Bool
  deriving DecidableEq, Repr

def rightR : Right := ⟨true, false, false⟩
def rightW : Right := ⟨false, true, false⟩
def rightRW : Right := ⟨true, true, false⟩
def rightX : Right := ⟨false, false, true⟩

/-- Permission, memory type and range of a translated access (R470 to R472 step 3): the physical address or the
reason.  `maint` is level M, which a hub-register write needs (R506). -/
def checkLeaf (s : State) (e : TlbEntry) (va : Nat) (r : Right) (modeS maint : Bool) : Except Nat Nat :=
  let pa := e.pa + va % 2 ^ e.size
  let l := paLocal pa
  let own := paPkg pa = s.pkgid
  if (r.rd && !e.rd) || (r.wr && !e.wr) || (r.x && !e.x) || (e.priv && !modeS) then .error 2
  else if inHub l && own && r.wr && e.priv && !maint then .error 2
  else if (e.mt = 2) = own then .error 7
  else if !inHBM l && !inHub l then .error 8
  else if inHub l && !e.priv then .error 8
  else .ok pa

/-- A leaf with MT 00 or 01: what Kettle firmware's rights need (R540, R541); the physical address.  R13 gives each compute die
a walker and none to the hub: the walk is made by die 0's, past its die TLB. [DESIGN CHOICE; log entry 131] -/
def kettlePa (s : State) (asid va : Nat) : Option Nat :=
  match (walk s 0 asid va).1 with
  | .ok e =>
    let pa := e.pa + va % 2 ^ e.size
    if e.mt ≤ 1 && paPkg pa = s.pkgid && inHBM (paLocal pa) then some pa else none
  | .error _ => none

/-- Why Kettle firmware and the device cannot use an address (R540, R541): the reason of the walk, or of the placement. -/
def kettleReason (s : State) (asid va : Nat) : Option Nat :=
  match (walk s 0 asid va).1 with
  | .error e => some e
  | .ok e =>
    let pa := e.pa + va % 2 ^ e.size
    if 1 < e.mt || paPkg pa ≠ s.pkgid then some 7 else if !inHBM (paLocal pa) then some 8 else none

/-- Every 64 KiB page of a virtual range. -/
def pagesOf (va n : Nat) : List Nat :=
  if n = 0 then [] else (List.range ((va + n - 1) / 65536 - va / 65536 + 1)).map (fun i => (va / 65536 + i) * 65536)

/-- The reason of the first page of a range that Kettle firmware cannot use. -/
def kettleFault (s : State) (asid va n : Nat) : Option Nat := (pagesOf va n).findSome? (kettleReason s asid)

/-- The range is mapped as Kettle firmware's writes need (R540). -/
def kettleMapped (s : State) (asid va n : Nat) : Bool := (pagesOf va n).all (fun a => (kettlePa s asid a).isSome)

/-- A write on a context's behalf with the rights of Kettle firmware, byte by byte at the owning L2 (R540); none when a
page has no such translation. -/
def kettleWrite (s : State) (asid va : Nat) (bs : List Byte) : Option State :=
  if kettleMapped s asid va bs.length then
    some ((pagesOf va bs.length).foldl (fun s page =>
      let lo := max page va
      let hi := min (page + 65536) (va + bs.length)
      match kettlePa s asid lo with
      | some pa => l2Write s pa ((bs.drop (lo - va)).take (hi - lo))
      | none => s) s)
  else none

/-- A read with the rights of Kettle firmware. -/
def kettleRead (s : State) (asid va n : Nat) : Option (List Byte) :=
  if kettleMapped s asid va n then
    some ((pagesOf va n).flatMap (fun page =>
      let lo := max page va
      let hi := min (page + 65536) (va + n)
      match kettlePa s asid lo with
      | some pa => memBytes s pa (hi - lo)
      | none => zeros (hi - lo)))
  else none

/-! ### Parts of an access (R134, R263) -/

/-- One part of one lane's access: it lies within a 128-byte line.  `bits` counts where packed accesses start. -/
structure Part where
  lane : Nat
  va : Nat
  n : Nat
  deriving DecidableEq, Repr

/-- A lane's range, split at the 128-byte boundary it may cross; addresses are taken modulo 2^80. -/
def partsOf (lane va n : Nat) : List Part :=
  if n = 0 then []
  else if va % 128 + n ≤ 128 then [⟨lane, va % 2 ^ 80, n⟩]
  else [⟨lane, va % 2 ^ 80, 128 - va % 128⟩, ⟨lane, (va + (128 - va % 128)) % 2 ^ 80, n - (128 - va % 128)⟩]

/-- A translated part. -/
structure TPart where
  part : Part
  pa : Nat
  mt : Nat
  deriving DecidableEq, Repr

/-- Translate and check one part for core `p` (R472 step 3). -/
def translatePart (s : State) (p asid : Nat) (r : Right) (modeS maint : Bool) (x : Part) : Except Nat TPart × State :=
  match translate s p asid x.va with
  | (.error e, s) => (.error e, s)
  | (.ok e, s) =>
    match checkLeaf s e x.va r modeS maint with
    -- hub registers are never cached (R136, R506)
    | .ok pa => (.ok ⟨x, pa, if inHub (paLocal pa) && e.mt = 0 then 1 else e.mt⟩, s)
    | .error e => (.error e, s)

/-- Translate the parts in order; failures carry their part. -/
def translateParts (s : State) (p asid : Nat) (r : Right) (modeS maint : Bool) :
    List Part → List TPart × List (Part × Nat) × State
  | [] => ([], [], s)
  | x :: xs =>
    match translatePart s p asid r modeS maint x with
    | (.ok t, s) =>
      let rest := translateParts s p asid r modeS maint xs
      (t :: rest.1, rest.2.1, rest.2.2)
    | (.error e, s) =>
      let rest := translateParts s p asid r modeS maint xs
      (rest.1, (x, e) :: rest.2.1, rest.2.2)

/-! ### Objects (R160, R482) -/

/-- The valid region entries of a context. -/
def Ctx.validRegions (c : Ctx) : List (Nat × Region) := c.regions.filter (fun e => e.2.valid)

/-- A range meets a block that a valid entry names as its object (R482). -/
def meetsObject (c : Ctx) (va n : Nat) : Bool :=
  c.validRegions.any (fun e => va < e.2.obj + 64 && e.2.obj < va + n)

/-- The region that holds a virtual address. -/
def Ctx.regionAt (c : Ctx) (va : Nat) : Option (Nat × Region) :=
  c.validRegions.find? (fun e => e.2.base ≤ va && va < e.2.base + e.2.size)

/-! ### Deterministic view (R173, R177) -/

/-- The context as a workgroup sees it: within an interval of a deterministic launch its own changes of the region table stand
in its view alone (R173). -/
def State.ctxView (s : State) (wg : Nat) : Ctx :=
  let x := s.getCtx (s.wgCtx wg)
  if s.wgDet wg then
    { x with regions := (s.getWg wg).det.regions.foldl (fun (m : Sparse Region) (e : Nat × Region) => m.put e.1 e.2) x.regions }
  else x

/-- The value of a byte at the last synchronisation point: from the pre-image where a merge or a direct write has
already changed its sector, else from memory (R177). -/
def pointByte (s : State) (lslot pa : Nat) : Byte :=
  match (s.getLaunch lslot).pre.find? (pa / 32) with
  | some sec => (sec[pa % 32]?).getD 0
  | none => memByte s pa

/-- The byte as workgroup `wg` of a deterministic launch reads it (R173): its own latest plain write of the interval,
else the value at the point.  A workgroup that writes directly has its writes in memory, and they are in `writes` too. -/
def detByte (s : State) (wg pa : Nat) : Byte :=
  let g := s.getWg wg
  match g.det.writes.find? pa with
  | some b => b
  | none => pointByte s g.lslot pa

/-- Entries of the buffer that a set of written sectors and a number of reductions would use (R174). -/
def detUsed (d : DetState) : Nat := d.vas.length + d.reds.length

/-- Buffer the plain write of one byte (R174). -/
def detPut (d : DetState) (pa va : Nat) (b : Byte) : DetState :=
  { d with writes := d.writes.put pa b, vas := d.vas.put (pa / 32) (va / 32) }

/-- The new sectors that writing a range would add. -/
def detNewSectors (d : DetState) (pa n : Nat) : Nat :=
  ((List.range ((pa + n + 31) / 32 - pa / 32)).filter (fun i => (d.vas.find? (pa / 32 + i)).isNone)).length

/-- Who has written a byte in the interval, with one more writer. -/
def noteWriter (l : Launch) (pa index : Nat) (plain : Bool) : Launch :=
  let w := (l.writers.find? pa).getD { plain := none, reds := [] }
  let w' : DetWriter := if plain then { w with plain := some index } else { w with reds := index :: w.reds }
  { l with writers := l.writers.put pa w' }

/-- The workgroup with which a write of a byte by `index` conflicts (R176): another one that wrote it, one of the two
writes being plain. -/
def conflictWith (l : Launch) (pa index : Nat) (plain : Bool) : Option Nat :=
  match l.writers.find? pa with
  | none => none
  | some w =>
    match w.plain with
    | some j => if j ≠ index then some j else if plain then w.reds.find? (· ≠ index) else none
    | none => if plain then w.reds.find? (· ≠ index) else none

/-- Save the pre-image of a sector before it is first changed in the interval (R177); none when the area is full. -/
def savePre (s : State) (lslot sector : Nat) : Option State :=
  let l := s.getLaunch lslot
  if (l.pre.find? sector).isSome then some s
  else if l.lr.pisize < 64 * (l.pre.length + 1) then none
  else some (s.setLaunch lslot { l with pre := l.pre.put sector (memBytes s (sector * 32) 32) })

/-! ### Virtual reads and writes by a thread's weak access -/

/-- A weak read of one translated part by a thread of workgroup `wg` on core `p`: its bytes, which are poisoned, and
the state it leaves (R136, R173). -/
def weakRead (s : State) (wg p : Nat) (hint : Nat) (t : TPart) : List Byte × Bool × State :=
  if s.wgDet wg then
    ((List.range t.part.n).map (fun i => detByte s wg (t.pa + i)),
     (List.range t.part.n).any (fun i => blockPoison s (t.pa + i)), s)
  else if t.mt = 2 then
    (memBytes s t.pa t.part.n, (List.range t.part.n).any (fun i => blockPoison s (t.pa + i)), s)
  else
    ((List.range t.part.n).map (fun i => l1Peek s p (t.pa + i)),
     (List.range t.part.n).any (fun i => l1Poison s p (t.pa + i)),
     l1Load s p t.pa t.part.n hint t.mt (s.wgAsid wg) t.part.va)

/-- A plain write of masked bytes of one translated part in the deterministic buffer (R174). -/
def detWrite (s : State) (wg : Nat) (t : TPart) (bs : List (Byte × Byte)) : State :=
  let idx := (List.range bs.length).zip bs
  let val (s : State) (i : Nat) (x m : Byte) : Byte := (x &&& m) ||| (detByte s wg (t.pa + i) &&& ~~~m)
  let d := idx.foldl (fun d e => if e.2.2 = 0 then d
    else detPut d (t.pa + e.1) (t.part.va + e.1) (val s e.1 e.2.1 e.2.2)) (s.getWg wg).det
  let d := { d with used := if d.direct then 0 else detUsed d }
  let s := s.modWg wg (fun g => { g with det := d })
  let s := (granules t.pa bs.length).foldl (fun s g => clearResv s (g * 32) (· = wg)) s
  if d.direct then
    -- applied directly, the tests having been made before the instruction (R177)
    let g := s.getWg wg
    idx.foldl (fun s e => if e.2.2 = 0 then s else
      let s := s.modLaunch g.lslot (fun l => noteWriter l (t.pa + e.1) g.index true)
      l2Write s (t.pa + e.1) [((s.getWg wg).det.writes.get 0 (t.pa + e.1))]) s
  else s

/-- A weak write of masked bytes of one translated part by a thread (R136, R174). -/
def weakWrite (s : State) (wg p : Nat) (hint : Nat) (t : TPart) (bs : List (Byte × Byte)) : State :=
  if s.wgDet wg then detWrite s wg t bs
  else if t.mt = 2 then mergeBytes s t.pa bs
  else l1Store s p t.pa bs hint t.mt (s.wgAsid wg) t.part.va

/-- A scope whose perform point for a byte of memory type 00 is the owning L2 (R154). -/
def wideScope (sco : Nat) : Bool := 4 ≤ sco

/-- A scoped read (R150, R154): the core's dirty bytes of the line are written back first (R152).  At the owning L2 it
leaves no copy of the line in the L1, which a later weak read would see in the reverse order. -/
def scopedRead (s : State) (wg p sco hint : Nat) (t : TPart) : List Byte × Bool × State :=
  if s.wgDet wg then weakRead s wg p hint t
  else if !wideScope sco && t.mt = 0 then
    weakRead (writeback s p (inLine (t.pa / 128))) wg p hint t
  else
    let s := if t.mt = 2 then s else dropLines s p (inLine (t.pa / 128))
    (memBytes s t.pa t.part.n, (List.range t.part.n).any (fun i => blockPoison s (t.pa + i)), s)

/-- A scoped write (R150, R154). -/
def scopedWrite (s : State) (wg p sco hint : Nat) (t : TPart) (bs : List (Byte × Byte)) : State :=
  if s.wgDet wg then detWrite s wg t bs
  else if !wideScope sco && t.mt = 0 then
    weakWrite (writeback s p (inLine (t.pa / 128))) wg p hint t bs
  else
    mergeBytes (if t.mt = 2 then s else dropLines s p (inLine (t.pa / 128))) t.pa bs

/-- Bytes to write, all bits. -/
def fullMask (bs : List Byte) : List (Byte × Byte) := bs.map (fun b => (b, 0xFF))

/-! ### The store hash (R184) -/

/-- The chunks of 8 aligned bytes that a write of `bs` at `va` touches: (chunk address, byte mask, data). -/
def hashChunks (va : Nat) (bs : List Byte) : List (Nat × Nat × Nat) :=
  (List.range ((va + bs.length + 7) / 8 - va / 8)).map (fun i =>
    let base := (va / 8 + i) * 8
    let cell (j : Nat) : Option Byte := if va ≤ base + j then bs[base + j - va]? else none
    (base, maskOf ((List.range 8).filter (fun j => (cell j).isSome)),
     ofLE ((List.range 8).map (fun j => (cell j).getD 0))))

/-- What a write adds to `%shash`. -/
def hashOf (va : Nat) (bs : List Byte) : Nat :=
  (hashChunks va bs).foldl (fun h c =>
    h + mix64 (mix64 (bits c.1 3 64 ^^^ (c.2.1 <<< 56 % 2 ^ 64)) ^^^ c.2.2)) 0

/-- Count a global write of a thread of the workgroup. -/
def addHash (s : State) (wg va : Nat) (bs : List Byte) : State :=
  s.modWg wg (fun g => { g with shash := g.shash + BitVec.ofNat 64 (hashOf va bs) })

end Sys2Proof.Machine
end

