-- ==== Sys2Proof/Machine/Records.lean ====
section
/-!
DEFINITION. Error records (R434, R435, R540), the package log and the launch status block (R366, R506): what Kettle
firmware writes about an event.
-/

namespace Sys2Proof.Machine

open Sys2Proof

/-- The reason byte of a record. -/
def ErrRec.reasonByte (r : ErrRec) : Nat :=
  match r.event with
  | some e => (Config.machineReason e.ctorIdx).toNat
  | none => r.reason

/-- The 64 bytes of a record (R434). -/
def ErrRec.bytes (r : ErrRec) (cyc seq : Nat) : List Byte :=
  toLE 4 (r.reasonByte + r.cls * 2 ^ 8 + r.sev * 2 ^ 16 + r.unit * 2 ^ 24) ++
  toLE 4 (r.kind + r.inst * 2 ^ 16) ++
  toLE 8 cyc ++ toLE 8 r.lid ++ toLE 4 r.wg ++
  toLE 2 (r.ctx.getD 0xFFFF) ++ toLE 2 (r.core.getD 0xFFFF) ++
  toLE 10 r.addr ++ zeros 6 ++
  toLE 8 (r.paddr % 2 ^ 52) ++ toLE 4 r.detail ++ toLE 4 seq

/-- Write a record to the package log (R506); the most recent 256 of severity 3 or above also stand in the
non-volatile store. -/
def writePlog (s : State) (r : ErrRec) : State :=
  let n := s.plogCount
  let bs := r.bytes s.now n
  let m := putBytes s.plog (0x40 + 64 * (n % 4096)) bs
  let m := putBytes m 0 (toLE 8 (n + 1))
  let keep := if 3 ≤ r.sev then (s.nv.plog ++ [bs]).drop ((s.nv.plog.length + 1) - 256) else s.nv.plog
  { s with plogCount := n + 1, plog := m, nv := { s.nv with plog := keep } }

/-- Write a record (R435): to the error ring of the context it names, or to the package log; a ring without a
translation leaves it to the package log, NREC as it was (R540). -/
def writeRecord (s : State) (r : ErrRec) : State :=
  match r.ctx with
  | none => writePlog s r
  | some c =>
    let x := s.getCtx c
    if !x.exists_ then writePlog s r
    else
      match kettleRead s x.asid x.errRing 8 with
      | none => writePlog s r
      | some nb =>
        let n := ofLE nb
        match kettleWrite s x.asid (x.errRing + 0x40 + 64 * (n % 1024)) (r.bytes s.now n) with
        | none => writePlog s r
        | some s' => (kettleWrite s' x.asid x.errRing (toLE 8 (n + 1))).getD s'

/-- A record about a workgroup. -/
def wgErr (s : State) (wg cls reason sev unit : Nat) : ErrRec :=
  let g := s.getWg wg
  { cls := cls, reason := reason, sev := sev, unit := unit, lid := (s.getLaunch g.lslot).lid, wg := g.index,
    ctx := some (s.wgCtx wg), core := some g.core }

/-- A record of class 0x0C about a workgroup. -/
def wgEvent (s : State) (wg : Nat) (e : MachineEvent) (sev unit : Nat) : ErrRec :=
  { wgErr s wg 0x0C 0 sev unit with event := some e }

/-- A record of class 0x0C about the package, a core or a link. -/
def hubEvent (e : MachineEvent) (sev unit : Nat) : ErrRec := { cls := 0x0C, reason := 0, sev := sev, unit := unit, event := some e }

/-- Write bytes of the launch status block (R366); without a translation the write is skipped and recorded (R540). -/
def writeStatus (s : State) (lslot off : Nat) (bs : List Byte) : State :=
  let l := s.getLaunch lslot
  let x := s.getCtx l.lr.ctx
  match kettleWrite s x.asid (l.lr.status + off) bs with
  | some s => s
  | none => writeRecord s { cls := 0x0C, reason := 0, sev := 1, unit := 3, lid := l.lid, ctx := some l.lr.ctx,
                            event := some .statusSkipped, addr := l.lr.status, detail := 1 }

end Sys2Proof.Machine
end

