-- ==== Sys2Proof/Machine/Ops.lean ====
section
/-!
DEFINITION. The operations that every meaning shares: what an entry issues (its lanes, guard and operands), write-backs
and tokens (R88, R196 to R198), handles (R56 to R58, R499), barriers (R281, R282), taking a trap (R351, R430) and
returning from one (R352, R431), ending a workgroup (R436), and the checks and steps of one issue (R39, R445).
-/

namespace Sys2Proof.Machine

open Sys2Proof

/-! ### What an entry issues -/

/-- One instruction as an entry issues it: the state at issue, where it stands, and its active lanes. -/
structure Iss where
  /-- the state with the elements taken from streams -/
  s : State
  /-- the state before the instruction -/
  s0 : State
  wg : Nat
  w : Nat
  warp : Warp
  entry : Entry
  cur : Cursor
  f : Fields
  op : Nat
  fn : Nat
  core : Nat
  /-- active lanes, ascending -/
  act : List Nat
  /-- what each active lane took from input streams: (stream, lane, register bits, poisoned) -/
  strm : List (Nat × Nat × Nat × Bool)
  deriving DecidableEq, Repr

/-- The lanes of a mask whose guard is true (R186). -/
def guarded (w : Warp) (f : Fields) (m : LaneSet) : List Nat :=
  (lanesOf m).filter (fun l => w.getP l f.gp.toNat != f.gn)

/-- What entry `e` of a warp issues with the fields `f`, standing at `cur`. -/
def issueOf (s : State) (cur : Cursor) (w : Warp) (e : Entry) (f : Fields) (op fn : Nat) : Iss :=
  { s := s, s0 := s, wg := cur.wg, w := cur.warp, warp := w, entry := e, cur := cur, f := f, op := op, fn := fn,
    core := (s.getWg cur.wg).core, act := guarded w f e.mask, strm := [] }

/-- The entry that issues `i`, if one does. -/
def issuing (s : State) (i : Instr) : Option Iss :=
  match s.cur, i.fields, opFn i with
  | some c, some f, some (op, fn) =>
    let w := s.getWarp c.wg c.warp
    (w.entryAt c.pc).map (fun e => issueOf s c w e f op fn)
  | _, _, _ => none

/-- The lowest active lane l0. -/
def Iss.l0 (c : Iss) : Nat := c.act.headD 0
/-- AMASK. -/
def Iss.amask (c : Iss) : LaneSet := laneSet c.act
/-- The workgroup. -/
def Iss.g (c : Iss) : Wg := c.s.getWg c.wg
/-- ASID of the thread. -/
def Iss.asid (c : Iss) : Nat := c.s.wgAsid c.wg
/-- Context number. -/
def Iss.ctx (c : Iss) : Nat := c.s.wgCtx c.wg
/-- The launch record. -/
def Iss.lr (c : Iss) : LRec := c.s.wgRec c.wg
/-- The code is QPF: the workgroup runs QPF words and the warp is in mode P (R402). -/
def Iss.qpf (c : Iss) : Bool := c.g.qpf && !c.warp.modeS
/-- Privilege M: mode S in a launch with the maintenance right (R348). -/
def Iss.maint (c : Iss) : Bool := c.warp.modeS && bitB c.lr.flags 1

/-- Stack position of window register `i` of a lane (R51). -/
def Warp.pos (w : Warp) (lane i : Nat) : Nat := (w.lane lane).fp + i

/-- gid of a thread (R117). -/
def gidOf (s : State) (wg w lane : Nat) : Nat := (s.getWg wg).index * (s.wgRec wg).wgsize + 32 * w + lane

/-- A 64-bit address, sign-extended to 80 bits (R262). -/
def sextVa (t : Nat) : Nat := sextTo 64 80 t

/-! ### The warp control register (R86) -/

/-- `wcr` as it reads. -/
def readWcr (s : State) (wg w : Nat) : Nat :=
  let x := s.getWarp wg w
  let a := x.wcr.toNat &&& 0x1F1FFF
  a + b2n (s.wgDet wg) * 2 ^ 21 + b2n x.yp * 2 ^ 15 + b2n ((s.getWg wg).recd.act || (s.getWg wg).recd.rev) * 2 ^ 14

/-- wcr.xen, wcr.chk and F (R46, R86). -/
def Warp.xen (w : Warp) : Nat := bits w.wcr.toNat 16 5
def Warp.chk (w : Warp) : Bool := bitB w.wcr.toNat 12
def Warp.fairness (w : Warp) : Nat := max 16 (bits w.wcr.toNat 0 12)

/-! ### Special registers (R84) -/

/-- A special register of a lane, 32 bits. -/
def special (s : State) (wg w lane code : Nat) : Nat :=
  let g := s.getWg wg
  let x := s.getWarp wg w
  let r := s.wgRec wg
  let ln := x.lane lane
  let lo (n : Nat) := n % 2 ^ 32
  let hi (n : Nat) := n / 2 ^ 32 % 2 ^ 32
  match code with
  | 128 => lane
  | 129 => w
  | 130 => 32 * w + lane
  | 131 => g.index
  | 132 => g.index % r.ngx
  | 133 => g.index / r.ngx % r.ngy
  | 134 => g.index / r.ngx / r.ngy
  | 135 => r.ngx
  | 136 => r.ngy
  | 137 => r.ngz
  | 138 => lo (r.ngx * r.ngy * r.ngz)
  | 139 => r.wgsize
  | 140 => s.logical g.core
  | 141 => coreQuad g.core
  | 142 => coreDie g.core
  | 143 => s.pkgid
  | 144 => (s.getCtx r.ctx).podid
  | 145 => s.ncore
  | 146 => lo (s.sample (coreDie g.core))
  | 147 => hi (s.sample (coreDie g.core))
  | 148 => lo r.seed
  | 149 => hi r.seed
  | 150 => lo r.ctrb
  | 151 => hi r.ctrb
  | 152 => lo ln.draw
  | 153 => hi ln.draw
  | 154 => lo g.shash.toNat
  | 155 => hi g.shash.toNat
  | 156 => ln.depth
  | 157 => ln.fp
  | 158 => ln.rb
  | 159 => 16 * r.stack
  | 160 => g.qgpos
  | 161 => g.qgsize
  | 162 => r.ctx
  | 163 => s.wgAsid wg
  | 164 => lo (s.getLaunch g.lslot).lid
  | 165 => hi (s.getLaunch g.lslot).lid
  | 166 => x.flags.toNat
  | 167 => readWcr s wg w
  | c => if 168 ≤ c && c < 176 then lo ((s.getCtx r.ctx).rsig.toNat >>> (32 * (c - 168))) else 0

/-! ### Reading a source operand (R82, R208, R253) -/

/-- The register bits a lane reads through a code, 32 bits, or 64 where `wide`; code 255 is the caller's. -/
def Iss.read (c : Iss) (code : Nat) (wide : Bool) (lane : Nat) : Nat :=
  let v (i : Nat) := (c.warp.getV lane (c.warp.pos lane i)).toNat
  let k (i : Nat) := (c.warp.getK i).toNat
  if isV code then (if wide then v code + 2 ^ 32 * v (code + 1) else v code)
  else if isK code then (if wide then k (code - 64) + 2 ^ 32 * k (code - 63) else k (code - 64))
  else if isS code then
    ((c.strm.find? (fun e => e.1 = code - 96 && e.2.1 = lane)).map (fun e => e.2.2.1)).getD 0
  else if isP code then b2n (c.warp.getP lane (code - 112))
  else if isH code then
    (if wide then (c.warp.getH lane (code - 120)).toNat else (c.warp.getH lane (code - 120)).toNat % 2 ^ 32)
  else if isSpecial code then
    special c.s c.wg c.w lane code +
      (if wide then 2 ^ 32 * special c.s c.wg c.w lane (code + 1) else 0)
  else if 192 ≤ code && code < 255 then code - 192
  else 0

/-- An integer operand: code 255 is the low `n` bits of IMM, sign-extended (R189). -/
def Iss.int (c : Iss) (code : Nat) (wide : Bool) (n lane : Nat) : Nat :=
  if code = 255 then sextTo n (if wide then 64 else 32) c.f.immN else c.read code wide lane

/-- A, B and C as integer operands under layout MI (20 immediate bits). -/
def Iss.a (c : Iss) (wide : Bool) (lane : Nat) : Nat := c.int c.f.a.toNat wide 20 lane
def Iss.b (c : Iss) (wide : Bool) (lane : Nat) : Nat := c.int c.f.b.toNat wide 20 lane
def Iss.c (c : Iss) (wide : Bool) (lane : Nat) : Nat := c.int c.f.c.toNat wide 20 lane

/-! ### Registers an instruction touches (R196, R197) -/

/-- The register a write goes to. -/
def RegWrite.key : RegWrite → RegKey
  | .v lane pos _ => .v lane pos
  | .k n _ => .k n
  | .p lane n _ => .p lane n
  | .h lane n _ => .h lane n

/-- How many registers a destination or a source spans. -/
def dstCount (q : Dst) (c : Nat) : Nat :=
  match q with
  | .unused | .is112 => 0
  | .reg | .pred | .mask => 1
  | .hOrZero => if isH c then 1 else 0
  | .reg64 | .pair | .even => if isVK c then 2 else 1
  | .pairOr112 => if isVK c then 2 else 0
  | .load n | .loadK n => if isVK c then max 1 (n / 4) else 1
def srcCount (q : Src) (c : Nat) : Nat :=
  match q with
  | .unused => 0
  | .reg | .pred | .handle => 1
  | .reg64 | .even => if isVK c then 2 else 1
  | .kQuad => 4
  | .kOct => 8
  | .addr xh | .addrK xh => if isVK c then (if xh then 3 else 2) else 1
  | .store n => if isVK c then max 1 (n / 4) else 1

/-- The registers of a lane that `n` codes from `c` name. -/
def regKeys (w : Warp) (lane c n : Nat) : List RegKey :=
  (List.range n).filterMap (fun j =>
    if isV c then some (.v lane (w.pos lane (c + j)))
    else if isK c then some (.k (c - 64 + j))
    else if isP c then some (.p lane (c - 112))
    else if isH c then some (.h lane (c - 120))
    else if isS c then some (.s (c - 96))
    else none)

/-- The operand fields an instruction uses: field, code, registers spanned; D first (R451).  RET reads `v63` (R53), PMOV.get
every predicate (R219); predicates written by PMOV.set and through VP, and the stream that OP 0x14 names, stand under
IMM. -/
def usedFields (i : Instr) : List (Fld × Nat × Nat) :=
  match i with
  | .ret _ => [(.whole, 63, 1)]
  | _ =>
  match shape i, i.fields with
  | some q, some f =>
    [(.d, f.d.toNat, dstCount q.d f.d.toNat), (.a, f.a.toNat, srcCount q.a f.a.toNat),
     (.b, f.b.toNat, srcCount q.b f.b.toNat), (.c, f.c.toNat, srcCount q.c f.c.toNat)].filter (fun e => e.2.2 ≠ 0) ++
    (match i with
     | .vote f | .shfl f | .redux f | .scan f | .matchL f =>
       if bits f.immN 25 3 = 0 then [] else [(.imm, 112 + bits f.immN 25 3, 1)]
     | .pmovSet f => (setBitsOf 8 (bits f.immN 20 8)).map (fun i => (.imm, 112 + i, 1))
     | .pmovGet _ => (List.range 7).map (fun i => (.whole, 113 + i, 1))
     | _ => [])
  | _, _ => []

/-- A, B and C are read from the lowest active lane alone. -/
def readsOneLane : Instr → Bool
  | .sleep _ | .partset _ | .rjopenMask _ | .gdecl _ | .sseek _ | .chain _ | .tmaskFirst _ | .tscupd _ | .ldk _ | .acq _ | .acqGe _
  | .rel _ | .bind _ | .rrmodeRec _ | .rrmodePlay _ | .carve _ | .recbegin _ | .recmark _ | .reverse _ | .mtsWcr _
  | .mtsXflagsClear _ | .mtsFmt _ | .mtsAmr _ | .mtsSc _ | .mtsMx _ | .launch _ | .tlbi _ | .scango _ | .scanpoll _ | .scanstop _
  | .coreret _ | .halt _ => true
  | .tmma f | .tmmab f | .tact f | .tew f | .tred f | .ttrans f | .tscl f | .tcvt f | .tzero f | .taccld f | .taccst f | .tdrain f =>
    !f.se
  | _ => false

/-- The lanes through whose registers an instruction uses a field. -/
def fieldLanes (i : Instr) (act : List Nat) (fld : Fld) : List Nat :=
  if readsOneLane i && (fld = .a || fld = .b || fld = .c) then act.take 1 else act

/-- The registers that active lanes touch through one field. -/
def fieldKeys (w : Warp) (act : List Nat) (e : Fld × Nat × Nat) : List RegKey :=
  act.flatMap (fun l => regKeys w l e.2.1 e.2.2)

/-- One use of registers by an instruction: the field that names them, its code, what is read and what is written. -/
structure Use where
  fld : Fld
  code : Nat
  reads : List RegKey
  writes : List RegKey
  deriving DecidableEq, Repr

/-- All the registers of a use. -/
def Use.keys (u : Use) : List RegKey := u.reads ++ u.writes

/-- A pending operation will write one of the registers. -/
def Writeback.touches (b : Writeback) (ks : List RegKey) : Bool := b.writes.any (fun x => ks.contains x.key)

/-- A pending operation of class V holds back an instruction for one of its uses: it will write a register of it, or has yet
to read one that the instruction writes (R197). -/
def Writeback.holdsBack (b : Writeback) (u : Use) : Bool :=
  b.isVar && (b.touches u.keys || b.reads.any (fun x => u.writes.contains x))

/-- The use through one field: D and IMM are written, the others read; a stream is used as if it were written (R197). -/
def fieldUse (w : Warp) (i : Instr) (act : List Nat) (e : Fld × Nat × Nat) : Use :=
  let ks := fieldKeys w (fieldLanes i act e.1) e
  let dst : Bool := e.1 = .d || e.1 = .imm
  { fld := e.1, code := e.2.1, reads := if dst && !isS e.2.1 then [] else ks, writes := if dst || isS e.2.1 then ks else [] }

/-- The stream that OP 0x14 names in IMM[23:20] (R255). -/
def namedStream : Instr → Option Nat
  | .sdef f | .sseek f | .spos f | .sflag f => some (bits f.immN 20 4)
  | _ => none

/-- Base and length of the section a thread runs (R53, R351, R402). -/
def sectionOf (s : State) (wg : Nat) (modeS : Bool) : Nat × Nat :=
  if modeS then
    let x := s.getCtx (s.wgCtx wg)
    (x.tvec.getD 0, x.tvecLen)
  else
    match s.wgKernel wg with
    | some k => if !(s.getWg wg).qpf && k.form = 2 then (k.nsect, k.nlen) else (k.sect, k.len)
    | none => (0, 0)
def Iss.sect (c : Iss) : Nat × Nat := sectionOf c.s c.wg c.warp.modeS

/-- The target base of a direct transfer with displacement `d` (R193, R203, R223). -/
def Iss.direct (c : Iss) (d : Int) : Int := (c.cur.base.toNat : Int) + (if c.qpf then 16 * d else 64 * d)

/-- The functions of a QPF kernel (R405). -/
def Iss.funcs (c : Iss) : List (Nat × Nat) := ((c.s.wgKernel c.wg).map (·.funcs)).getD []
/-- The frame size code of a call to a section offset: the table's in QPF, the instruction's otherwise. -/
def Iss.frameCode (c : Iss) (off : Nat) : Nat :=
  if c.qpf then ((c.funcs.find? (fun e => e.1 = off)).map (fun e => e.2 / 16)).getD 0 else bits c.f.immN 26 2

/-- The target base of a lane's call, for CALL and CALLX (R225). -/
def Iss.callTarget (c : Iss) (i : Instr) (l : Nat) : Option Int :=
  match i with
  | .call f => some (c.direct (signed 26 f.immN))
  | .callx _ => some ((c.sect.1 : Int) + c.a false l)
  | _ => none

/-- The link register that a lane's call writes: `v63` of the called function's window (R52). -/
def Iss.linkKey (c : Iss) (i : Instr) (l : Nat) : Option RegKey :=
  (c.callTarget i l).map (fun (t : Int) => .v l (c.warp.pos l (16 * c.frameCode (t - (c.sect.1 : Int)).toNat + 63)))

/-- The registers that ERET restores (R352). -/
def eretKeys (w : Warp) (mask : LaneSet) : List RegKey :=
  (List.range 8).map .k ++
  (lanesOf mask).flatMap (fun l => (List.range 16).map (fun r => .v l (w.pos l r)) ++ (List.range 7).map (fun n => .p l (n + 1)))

/-- What an instruction uses beside its guard: its fields, the stream it names, its link register, what ERET restores. -/
def operandUses (c : Iss) (i : Instr) : List Use :=
  (usedFields i).map (fieldUse c.warp i c.act) ++
  (match namedStream i with
   | some n => [{ fld := .imm, code := 96 + n, reads := [.s n], writes := [.s n] }]
   | none => []) ++
  (match c.act.filterMap (c.linkKey i) with
   | [] => []
   | ks => [{ fld := .d, code := 63, reads := [], writes := ks }]) ++
  (match i with
   | .eret _ => [{ fld := .whole, code := 0, reads := [], writes := eretKeys c.warp c.entry.mask }]
   | _ => [])

/-- Everything an instruction uses (R197, R198, R451).  What is no operand field is checked last, under FLD 0, or the field
whose place it takes. [DEDUCED; log entry 61] -/
def uses (c : Iss) (i : Instr) : List Use :=
  operandUses c i ++
  (if c.f.gp = 0 then []
   else [{ fld := .whole, code := 112 + c.f.gp.toNat, reads := (lanesOf c.entry.mask).map (fun l => .p l c.f.gp.toNat),
           writes := [] }])

/-- The interlock of R197: a class V operation under way holds back the instruction. -/
def interlocked (c : Iss) (i : Instr) : Bool := (uses c i).any (fun u => c.warp.pend.any (fun b => b.holdsBack u))

/-- The token is named in WM. -/
def named (f : Fields) (t : Nat) : Bool := t ≠ 0 && bitB f.wm.toNat (t - 1)

/-! ### Traps -/

/-- A trap to be taken: cause, information, and the failing lanes (R430). -/
structure Trap where
  cls : Nat
  reason : Nat
  info : Nat := 0
  info2 : Nat := 0
  fmask : LaneSet
  deriving DecidableEq, Repr

def Trap.cause (t : Trap) : Nat := t.reason + 256 * t.cls

/-- A failing check of class 0x01 (R443, R444): reason, FLD, VALUE, FMASK. -/
structure Fail where
  reason : Nat
  fld : Fld
  value : Nat
  fmask : LaneSet
  deriving DecidableEq, Repr

/-- The frame fields of an illegal use (R444). -/
def Iss.illegal (c : Iss) (x : Fail) : Trap :=
  { cls := 1, reason := x.reason, fmask := x.fmask
    info := c.op + c.fn * 2 ^ 8 + x.fld.code * 2 ^ 12 + x.value % 2 ^ 32 * 2 ^ 16 }

/-- A check of a value read from l0 (R444). -/
def Iss.bad (c : Iss) (reason value : Nat) : Fail := ⟨reason, .value, value, laneSet [c.l0]⟩
/-- A check of state, FLD 10. -/
def Iss.badState (c : Iss) (reason index : Nat) (m : LaneSet) : Fail := ⟨reason, .arch, index, m⟩

/-- The contents of a field, for VALUE (R444). -/
def fieldValue (f : Fields) : Fld → Nat
  | .d => f.d.toNat
  | .a => f.a.toNat
  | .b => f.b.toNat
  | .c => f.c.toNat
  | .imm => f.immN
  | .fs => f.fs.toNat
  | .st => f.st.toNat
  | _ => 0

/-! ### Write-backs and tokens (R88, R196, R197) -/

/-- Change a wait token's count. -/
def Warp.token (w : Warp) (n : Nat) : Nat := w.tokens.get 0 n
def Warp.addToken (w : Warp) (n : Nat) : Warp :=
  if n = 0 then w else { w with tokens := w.tokens.set 0 n (w.token n + 1) }
def Warp.dropToken (w : Warp) (n : Nat) : Warp :=
  if n = 0 then w else { w with tokens := w.tokens.set 0 n (w.token n - 1) }

/-- A trap that the warp still has to take, for the instruction last issued (R429). -/
def Warp.newReport (w : Warp) (cause info info2 : Nat) (fmask lanes amask : LaneSet) : Report :=
  { cause := cause, info := info, info2 := info2, fmask := fmask, lanes := lanes, amask := amask, order := w.nextIdx
    held := w.modeS, engine := false }
def Warp.report (w : Warp) (r : Report) : Warp := { w with reports := w.reports ++ [r] }

/-- The entry no longer waits for a write-back. -/
def Entry.repaid (idx : Nat) (e : Entry) : Entry := { e with owed := e.owed.filter (· ≠ idx) }

/-- An operation completes: it writes its destinations, ORs its flags (R114), lets go of its token, and lets the entries
go on that wait for it; an enabled flag leaves a report of class 0x08 (R428, R487). -/
def Warp.complete (w : Warp) (b : Writeback) : Warp :=
  let w := (w.writeAll b.writes).dropToken b.token
  let w := { w with flags := w.flags ||| b.flags, pend := w.pend.filter (fun x => x.idx ≠ b.idx),
                    table := w.table.map (Entry.repaid b.idx), aside := w.aside.map (Entry.repaid b.idx) }
  if b.flagLanes = 0 then w
  else w.report { w.newReport 0x801 (b.flags.toNat + (b.flags.toNat &&& w.xen) * 2 ^ 8) 0 b.flagLanes b.lanes b.lanes with
    order := b.idx, held := w.modeS && (b.lanes &&& w.trapLanes) = 0 }

/-- The operation is the CHAIN of the warp (R258). -/
def Warp.isChain (w : Warp) (idx : Nat) : Bool := (w.chain.map (·.idx)) = some idx

/-- The warp still waits for a result from outside it, other than a CHAIN's: a trap waits for it too.
[DEDUCED; log entry 49] -/
def Warp.owes (w : Warp) : Bool := w.pend.any (fun b => b.awaits ≠ 0 && !w.isChain b.idx)

/-- Operations that have come to their end by cycle `now` and wait for nothing, oldest first. -/
def Warp.finished (w : Warp) (now : Nat) : List Writeback := w.pend.filter (fun b => b.due ≤ now && b.awaits = 0)

/-- Complete every operation of fixed latency that is due (R196). -/
def Warp.completeFixed (w : Warp) (now : Nat) : Warp :=
  (w.finished now).foldl (fun w b => if b.isVar then w else w.complete b) w

/-- A signer's operation stays under way until its round ends: a due cycle that is never reached (R77). -/
def parkedDue : Nat := 2 ^ 70

/-- Complete every operation that waits for nothing outside the warp: a trap is taken with them done (R426, R429).
[DEDUCED; log entry 51] -/
def Warp.flush (w : Warp) : Warp :=
  w.pend.foldl (fun w b => if b.awaits = 0 && b.due < parkedDue then w.complete b else w) w

/-! ### Handles (R56 to R58, R499) -/

/-- The full number a handle names on a timeline whose count is `count` (R56). -/
def handleNum (count h : Nat) : Nat :=
  let low := h % 2 ^ 52
  let x := count / 2 ^ 52 * 2 ^ 52 + low
  if x + 2 ^ 51 < count then x + 2 ^ 52
  else if count + 2 ^ 51 < x && 2 ^ 52 ≤ x then x - 2 ^ 52
  else x

/-- What a handle is to a thread of context `ctx` (R499). -/
inductive HandleState where
  | complete | pending | unissued | foreign
  deriving DecidableEq, Repr

def handleState (s : State) (ctx h : Nat) : HandleState :=
  if h = 0 then .complete
  else
    let e := s.getEng (h / 2 ^ 52)
    let n := handleNum e.count h
    if n ≤ e.abase then .complete
    else if e.owner = some ctx then
      if e.next ≤ n then .unissued else if n ≤ e.count then .complete else .pending
    else .foreign

/-- The trap of a handle that may not be read (R497, R499): reason 0x01 before 0x02, for the lanes given. -/
def handleTrap (s : State) (ctx : Nat) (hs : List (Nat × Nat)) : Option Trap :=
  let fgn := hs.filter (fun e => handleState s ctx e.2 = .foreign)
  let un := hs.filter (fun e => handleState s ctx e.2 = .unissued)
  match fgn, un with
  | e :: _, _ =>
    some { cls := 9, reason := 1, info := e.2, fmask := laneSet (fgn.map (·.1))
           info2 := ((s.getEng (e.2 / 2 ^ 52)).owner).getD 0xFFFF }
  | [], e :: _ =>
    some { cls := 9, reason := 2, info := e.2, fmask := laneSet (un.map (·.1)), info2 := (s.getEng (e.2 / 2 ^ 52)).next }
  | [], [] => none

/-- Instructions that read an `h` source without waiting (R58). -/
def readsHandleFreely : Instr → Bool
  | .mov _ | .htest _ | .hstat _ | .hcancel _ | .hwait _ | .hsleep _ => true
  | _ => false

/-- The field is the data source of a store or an atomic, whose `h` register is read without waiting (R264). -/
def dataSource (i : Instr) (fld : Fld) : Bool :=
  match (shape i).map (fun q => match fld with | .b => q.b | .c => q.c | _ => .unused) with
  | some (.store _) => true
  | _ => false

/-- The `h` sources of an instruction that waits for its handles: register numbers. -/
def blockingHandles (i : Instr) : List Nat :=
  if readsHandleFreely i then []
  else (usedFields i).filterMap (fun e =>
    if e.1 ≠ .d && isH e.2.1 && !dataSource i e.1 then some (e.2.1 - 120) else none)

/-- A workgroup has a command that is not complete: on a shared engine context, or on its core's matrix engine. -/
def wgBusy (s : State) (wg : Nat) : Bool :=
  let m := (s.getCore (s.getWg wg).core).mx
  s.engs.any (fun e => e.2.queue.any (fun c => c.wg = wg)) ||
  (m.run.map (fun r => r.cmd.wg)) = some wg || (m.staged.map (·.wg)) = some wg

/-! ### Barriers (R281, R282) -/

def barKey (sco n : Nat) : Nat := 16 * sco + n
def Wg.bar (g : Wg) (sco n : Nat) : Bar := g.bars.get Bar.init (barKey sco n)

/-- Threads of a workgroup that were launched and have not exited. -/
def liveThreads (s : State) (wg : Nat) : Nat :=
  ((s.wgWarps wg).map (fun w => popCount 32 (s.getWarp wg w).live.toNat)).foldl (· + ·) 0

/-- Threads that have exited after arriving in the present phase: they stay counted (R38). -/
def exitedArrived (s : State) (wg sco n phase : Nat) : Nat :=
  ((s.wgWarps wg).map (fun w =>
    ((List.range 32).filter (fun l => let x := (s.getWarp wg w).lane l
      x.exited && x.arrived.contains (sco, n, phase))).length)).foldl (· + ·) 0

/-- The expected count of a barrier in one workgroup (R38, R281). -/
def barExpected (s : State) (wg sco n : Nat) : Nat :=
  liveThreads s wg + exitedArrived s wg sco n ((s.getWg wg).bar sco n).phase

/-! Write-backs that an LR hold keeps at their unit (R155, R277): each waits there, in arrival order, as a request of its core -/

/-- The issuer of a core's write-backs: no workgroup. -/
def coreIssuer (p : Nat) : Nat := 2 ^ 70 + p
/-- The write-back of a sector from the L1 of core `p`, as a request. -/
def wbRequest (s : State) (p sector : Nat) : AtomReq :=
  { wg := coreIssuer p, warp := 0, lane := 0, idx := p, pa := 32 * sector, va := 2 ^ 80, kind := 8, size := 32, aop := 0, b := 0,
    c := 0, twin := 32 * sector, twinVa := 2 ^ 80, dst := [], late := [], due := s.now, ctx := 2 ^ 16, region := none }
/-- A write-back of core `p` waits at its unit. -/
def wbQueued (s : State) (p : Nat) : Bool := s.atomQ.any (fun q => q.kind = 8 && q.idx = p)
/-- Send the write-backs of B that a hold keeps at their unit, each sector once. -/
def sendWritebacks (s : State) (p : Nat) (inB : Nat → Bool) : State :=
  let secs := (((s.getCore p).l1.filter (fun e => inB e.1 && dirtyHeld s e)).map (fun e => e.1 / 32)).dedup
  { s with atomQ := s.atomQ ++ ((secs.filter (fun g => !s.atomQ.any (fun q => q.kind = 8 && q.idx = p && q.pa = 32 * g))).map
      (wbRequest s p)) }

/-- The lanes parked at a completed phase of a barrier go on; for scopes of `.quad` and wider their core drops its L1 first
(R157, R282). -/
def leaveBar (s : State) (wg sco n ph : Nat) : State :=
  let s := if 4 ≤ sco then dropAll s (s.getWg wg).core else s
  (s.wgWarps wg).foldl (fun s w => s.modWarp wg w (fun x =>
    let ls := x.heldLanes.filter (fun l => ((x.lane l).hold.map (·.kind)) = some (.barrier sco n ph))
    (ls.foldl (fun x l => x.modLane l (fun y => { y with arrived := y.arrived.erase (sco, n, ph) })) x).releaseLanes ls)) s

/-- The present phase of a barrier of a workgroup is complete: parked lanes go on, once no write-back of their core has to wait
at its unit (R155, R157, R282). -/
def releaseBar (s : State) (wg sco n : Nat) : State :=
  let g := s.getWg wg
  let ph := (g.bar sco n).phase
  let s := s.setWg wg { g with bars := g.bars.put (barKey sco n) { count := 0, phase := ph + 1 } }
  if 4 ≤ sco && writebackHeld s g.core (fun _ => true) then sendWritebacks s g.core (fun _ => true)
  else leaveBar s wg sco n ph

/-- The barriers at which lanes of a workgroup still stand though their phase is complete. -/
def lateBars (s : State) (wg : Nat) : List (Nat × Nat × Nat) :=
  ((s.wgWarps wg).flatMap (fun w => (s.getWarp wg w).lanes.filterMap (fun (e : Nat × Lane) =>
    e.2.hold.bind (fun h => match h.kind with
      | .barrier sco n ph => if ((s.getWg wg).bar sco n).phase = ph then none else some (sco, n, ph)
      | _ => none)))).dedup

/-- The instance of a wide scope that a workgroup stands in (R32, R281). -/
def scopeInst (s : State) (wg sco : Nat) : Nat :=
  let g := s.getWg wg
  if sco = 4 then g.index / max 1 (s.wgRec wg).qgs else if sco = 5 then coreDie g.core else 0

/-- The workgroups of a launch, by index. -/
def launchWgs (s : State) (lslot : Nat) : List Nat :=
  let r := (s.getLaunch lslot).lr
  List.range (r.ngx * r.ngy * r.ngz)

/-- The workgroups that take part in a wide barrier. -/
def barMembers (s : State) (lslot sco inst : Nat) : List Nat :=
  (launchWgs s lslot).filter (fun i =>
    if sco = 4 then i / max 1 (s.getLaunch lslot).lr.qgs = inst
    else if sco = 5 then
      match s.wgs.find? (wgKey lslot i) with
      | some g => coreDie g.core = inst
      | none => false
    else true)

def gbarKey (sco inst n : Nat) : Nat := (16 * sco + n) * 2 ^ 34 + inst

/-- A workgroup counts as arrived at a wide barrier: it has arrived, it was ended (R436), or it has no thread left. -/
def gbarHas (s : State) (lslot : Nat) (b : GBar) (i : Nat) : Bool :=
  let l := s.getLaunch lslot
  b.arrived.contains i || l.gone.contains i || l.done.get false i ||
    (match s.wgs.find? (wgKey lslot i) with
     | some g => g.phase ≠ .ended && (match g.phase with | .saved _ _ => false | _ => liveThreads s (wgKey lslot i) = 0)
     | none => false)

/-- The launch is deterministic and the scope makes a barrier a synchronisation point (R172). -/
def pointBar (s : State) (lslot sco : Nat) : Bool := sco = 6 && bitB (s.getLaunch lslot).lr.flags 0

/-- A workgroup has merged at the present point (R175), or writes nothing more. -/
def hasMerged (s : State) (lslot i : Nat) : Bool :=
  let l := s.getLaunch lslot
  l.gone.contains i || l.done.get false i ||
    (match s.wgs.find? (wgKey lslot i) with
     | some g => g.det.merged
     | none => false)

/-- A synchronisation point is reached: the interval's records begin anew (R172 to R177). -/
def newInterval (s : State) (lslot : Nat) : State :=
  let s := s.modLaunch lslot (fun l => { l with pre := [], writers := [] })
  (launchWgs s lslot).foldl (fun s i =>
    match s.wgs.find? (wgKey lslot i) with
    | some g => s.setWg (wgKey lslot i) { g with det := { DetState.init with base := g.det.base } }
    | none => s) s

/-- Complete a wide barrier if every participant has arrived; at a synchronisation point, also merged (R175). -/
def gbarTry (s : State) (lslot sco inst n : Nat) : State :=
  let l := s.getLaunch lslot
  let b := l.gbars.get { arrived := [], phase := 0 } (gbarKey sco inst n)
  let ms := barMembers s lslot sco inst
  if b.arrived ≠ [] && ms.all (gbarHas s lslot b) && (!pointBar s lslot sco || ms.all (hasMerged s lslot)) then
    let s := s.setLaunch lslot { l with gbars := l.gbars.put (gbarKey sco inst n) { arrived := [], phase := b.phase + 1 } }
    let s := if pointBar s lslot sco then newInterval s lslot else s
    b.arrived.foldl (fun s i => releaseBar s (wgKey lslot i) sco n) s
  else s

/-- See whether a barrier of a workgroup completes: for wide scopes the workgroup arrives as a whole. -/
def barTry (s : State) (wg sco n : Nat) : State :=
  let g := s.getWg wg
  let b := g.bar sco n
  if b.count = 0 || b.count < barExpected s wg sco n then s
  else if sco ≤ 3 then releaseBar s wg sco n
  else if pointBar s g.lslot sco && wgBusy s wg then s
  else
    let s := if pointBar s g.lslot sco then s.modWg wg (fun g => { g with det := { g.det with arrived := true } }) else s
    let inst := scopeInst s wg sco
    let s := s.modLaunch g.lslot (fun l =>
      let key := gbarKey sco inst n
      let gb := l.gbars.get { arrived := [], phase := 0 } key
      if gb.arrived.contains g.index then l
      else { l with gbars := l.gbars.put key { gb with arrived := g.index :: gb.arrived } })
    gbarTry s g.lslot sco inst n

/-- Look again at every barrier that threads leaving the workgroup may complete (R38). -/
def barsRecheck (s : State) (wg : Nat) : State :=
  let g := s.getWg wg
  let s := g.bars.foldl (fun (s : State) (e : Nat × Bar) => if e.2.count = 0 then s else barTry s wg (e.1 / 16) (e.1 % 16)) s
  (s.getLaunch g.lslot).gbars.foldl (fun (s : State) (e : Nat × GBar) =>
    if e.2.arrived = [] then s
    else gbarTry s g.lslot (e.1 / 2 ^ 34 / 16) (e.1 % 2 ^ 34) (e.1 / 2 ^ 34 % 16)) s

/-! ### Commands of a workgroup -/

/-- GID of a TCOLL (R321). -/
def collGroup (f : Fields) : Nat := bits f.immN 12 8
/-- The command is a collective on a group. -/
def Cmd.isColl (c : Cmd) (g : Nat) : Bool := match c.instr with | .tcoll f => collGroup f = g | _ => false
/-- The collectives on a group that are not complete here: (engine context, command). -/
def openColls (s : State) (g : Nat) : List (Nat × Cmd) :=
  s.engs.flatMap (fun (e : Nat × Eng) => (e.2.queue.filter (fun c => c.isColl g)).map (fun c => (e.1, c)))
/-- The oldest collective on a group that is not complete here: the only one of them that has started. -/
def oldestColl (s : State) (g : Nat) : Option (Nat × Cmd) :=
  let cs := openColls s g
  cs.find? (fun c => cs.all (fun d => c.2.coll ≤ d.2.coll))

/-- The command at place `i` of a queue has started: the head of its context, or the oldest collective of its group (R323). -/
def hasStarted (s : State) (c : Cmd) (i : Nat) : Bool :=
  match c.instr with
  | .tcoll f => ((oldestColl s (collGroup f)).map (fun x => x.2.coll)) = some c.coll
  | _ => i = 0
/-- Ask for the cancellation of a command that the test names, noting whether it has started (R323). -/
def Cmd.stop (x : Cmd) (mine : Cmd → Bool) (begun : Bool) : Cmd :=
  if mine x && !x.cancel then { x with cancel := true, begun := begun } else x
/-- Ask for the cancellation of the commands of a queue that the test names. -/
def stopQueue (s : State) (mine : Cmd → Bool) (q : List Cmd) : List Cmd :=
  ((List.range q.length).zip q).map (fun x => x.2.stop mine (hasStarted s x.2 x.1))
/-- Ask for the cancellation of what a matrix engine runs and has staged. -/
def Mx.stop (m : Mx) (mine : Cmd → Bool) : Mx :=
  { m with run := m.run.map (fun r => { r with cmd := r.cmd.stop mine true }), staged := m.staged.map (fun x => x.stop mine false) }

/-- Request cancellation of every command of a workgroup (R323, R360 step 2). -/
def cancelCommands (s : State) (wg : Nat) : State :=
  let mine (c : Cmd) : Bool := c.wg = wg
  { s with engs := s.engs.map (fun (e : Nat × Eng) => (e.1, { e.2 with queue := stopQueue s mine e.2.queue })) }.modCore
    (s.getWg wg).core (fun c => { c with mx := c.mx.stop mine })

/-! ### Ending a workgroup (R360, R436) -/

/-- End a workgroup with an error record: its warps stop, its commands are cancelled and awaited before the record is written,
it counts as exited and arrived for every barrier, its buffered writes are discarded, its LR holds and gated requests go.  It
retires when its commands have completed. -/
def endWorkgroup (s : State) (wg : Nat) (r : ErrRec) : State :=
  let g := s.getWg wg
  if g.phase = .ended then s
  else
    let s := cancelCommands s wg
    let busy := wgBusy s wg
    let s := if busy then s else writeRecord s r
    let s := s.modWg wg (fun g => { g with
      phase := .ended, failed := true, err := if busy then some r else none
      det := { DetState.init with base := g.det.base, arrived := true, merged := true } })
    let s := (s.wgWarps wg).foldl (fun s w => s.modWarp wg w (fun x =>
      { x with table := [], aside := [], chain := none, reports := [], pend := [], tokens := [], yp := false,
               modeS := false, trapLanes := 0,
               lanes := x.lanes.map (fun e => (e.1, { e.2 with hold := none, exited := true, resv := none, sinceLR := 0 })) })) s
    let s := { s with
      holdsLR := s.holdsLR.filter (fun h => h.wg ≠ wg)
      atomQ := s.atomQ.filter (fun q => !(q.wg = wg && q.region.isSome))
      cur := match s.cur with | some c => if c.wg = wg then none else some c | none => none }
    let s := s.modLaunch g.lslot (fun l => { l with gone := g.index :: l.gone })
    barsRecheck s wg

/-- Fail a launch (R425): end each of its workgroups and create no more; STATE 3 follows when the last has retired. -/
def failLaunch (s : State) (lslot : Nat) (r : ErrRec) : State :=
  if (s.getLaunch lslot).failing then s
  else
    let s := s.modLaunch lslot (fun l => { l with failing := true, pending := 0 })
    let s := { s with slots := s.slots.map (fun (e : Nat × List Bind) =>
      (e.1, e.2.filter (fun b => !(b.kind ≤ 1 && b.lslot = lslot)))) }
    let s := s.modLaunch lslot (fun l => { l with unwritten := [] })
    let s := writeRecord s r
    let ks := (s.wgs.filter (fun e => e.2.lslot = lslot)).map (·.1)
    ks.foldl (fun s k => endWorkgroup s k { wgErr s k r.cls r.reason 2 2 with addr := r.addr }) s

/-! ### Deterministic buffering (R174, R177) -/

/-- The virtual addresses and bytes that the parts write, for the tests of R176. -/
def partBytes (ts : List TPart) : List (Nat × Nat) :=
  ts.flatMap (fun t => (List.range t.part.n).map (fun i => (t.pa + i, t.part.va + i)))

/-- The record of a merge conflict (R485) or of a full pre-image area (R486). -/
def conflictRecord (s : State) (wg va lower : Nat) : ErrRec :=
  { wgErr s wg 0x0A 7 3 3 with addr := va, detail := lower % 2 ^ 16 }
def preimageRecord (s : State) (wg : Nat) : ErrRec :=
  { wgErr s wg 0x0A 8 3 3 with detail := (s.wgRec wg).pisize }

/-- Save the pre-images of every sector of the list; none when one does not fit. -/
def savePres (s : State) (lslot : Nat) : List Nat → Option State
  | [] => some s
  | x :: xs =>
    match savePre s lslot x with
    | some s => savePres s lslot xs
    | none => none

/-- What the tests of buffering say of a write of the parts `ts`, or of `reds` reductions. -/
inductive DetTest where
  | ok (s : State)
  | full
  | conflict (va lower : Nat)
  | preFull
  /-- the page of an entry of the buffer or of the pre-image area has lost its translation (R540) -/
  | lost (reason : Nat)
  deriving DecidableEq, Repr

/-- The record of a launch that fails because the write buffer or the pre-image area cannot be written (R540). -/
def lostRecord (s : State) (wg reason : Nat) : ErrRec := wgErr s wg 6 reason 3 2

/-- Why entries cannot be added to the write buffer of a workgroup. -/
def bufferLost (s : State) (wg n : Nat) : Option Nat :=
  let d := (s.getWg wg).det
  kettleFault s (s.wgAsid wg) (d.base + 64 * detUsed d) (64 * n)
/-- Why entries cannot be added to the pre-image area of a launch. -/
def preLost (s : State) (wg n : Nat) : Option Nat :=
  let l := s.getLaunch (s.getWg wg).lslot
  kettleFault s (s.wgAsid wg) (sextVa l.lr.pibase + 64 * l.pre.length) (64 * n)

/-- The tests of buffering (R174), or of direct writes (R177), for a write of the parts `ts` or for `reds` reductions. -/
def detTest (s : State) (wg : Nat) (ts : List TPart) (reds : Nat) : DetTest :=
  if !s.wgDet wg then .ok s
  else
    let g := s.getWg wg
    let lr := s.wgRec wg
    let secs := ((partBytes ts).map (fun e => e.1 / 32)).dedup
    if !g.det.direct then
      let fresh := (secs.filter (fun x => (g.det.vas.find? x).isNone)).length
      let n := (if reds = 0 then fresh else 0) + reds
      if lr.wbsize / 64 < detUsed g.det + n then .full
      else match bufferLost s wg n with
        | some r => .lost r
        | none => .ok s
    else
      let l := s.getLaunch g.lslot
      match (partBytes ts).findSome? (fun e => (conflictWith l e.1 g.index (reds = 0)).map (fun j => (e.2, j))) with
      | some (va, j) => .conflict va j
      | none =>
        match savePres s g.lslot secs with
        | none => .preFull
        | some s' =>
          match preLost s wg ((secs.filter (fun x => (l.pre.find? x).isNone)).length) with
          | some r => .lost r
          | none => .ok s'

/-- The workgroup is held at this write (R177). -/
def holdFull (s : State) (wg : Nat) : State := s.modWg wg (fun g => { g with det := { g.det with held := true } })

/-- Room for a device-made write of a warp in the deterministic buffer: the state to write in, or what happens instead (the
workgroup is held, or its launch fails). -/
def detRoom (s : State) (wg : Nat) (ts : List TPart) : Except State State :=
  let fail (r : ErrRec) : Except State State := .error (failLaunch s (s.getWg wg).lslot r)
  match detTest s wg ts 0 with
  | .ok s => .ok s
  | .full => .error (holdFull s wg)
  | .conflict va j => fail (conflictRecord s wg va j)
  | .preFull => fail (preimageRecord s wg)
  | .lost r => fail (lostRecord s wg r)

/-! ### Taking a trap (R351, R430 to R433) -/

/-- The accesses a warp's device-made writes and reads at `va` make: parts of at most a line. -/
def lineParts (va n : Nat) : List Part :=
  if n = 0 then []
  else (List.range ((va + n - 1) / 128 - va / 128 + 1)).map (fun i =>
    let lo := max va ((va / 128 + i) * 128)
    let hi := min (va + n) ((va / 128 + i + 1) * 128)
    ⟨0, lo % 2 ^ 80, hi - lo⟩)

/-- What comes of a device-made write. -/
inductive Put where
  | done (s : State)
  /-- a page does not allow it -/
  | fault
  /-- it is not made: what happens instead -/
  | instead (s : State)

/-- Write bytes as ordinary writes of a warp in mode S. -/
def superWrite (s : State) (wg va : Nat) (bs : List Byte) : Put :=
  let core := (s.getWg wg).core
  match translateParts s core (s.wgAsid wg) rightW true true (lineParts va bs.length) with
  | (ts, [], s) =>
    match detRoom s wg ts with
    | .error s => .instead s
    | .ok s => .done (ts.foldl (fun s t =>
        weakWrite s wg core 0 t (fullMask ((bs.drop (t.part.va - va)).take t.part.n))) s)
  | _ => .fault

/-- Read bytes as ordinary reads of a warp in mode S. -/
def superRead (s : State) (wg va n : Nat) : Option (List Byte) :=
  let core := (s.getWg wg).core
  match translateParts s core (s.wgAsid wg) rightR true true (lineParts va n) with
  | (ts, [], s) => some (ts.flatMap (fun t => (weakRead s wg core 0 t).1))
  | _ => none

/-- Bytes of the predicates of the 32 lanes (R98, R430): `p1`–`p7` in [7:1]. -/
def predBytes (w : Warp) : List Byte :=
  (List.range 32).map (fun l => BitVec.ofNat 8 (maskOf ((List.range 7).filterMap (fun n =>
    if w.getP l (n + 1) then some (n + 1) else none))))

/-- The trap frame (R430). -/
def frameBytes (s : State) (wg w : Nat) (t : Trap) (lmask amask : LaneSet) (rpc : Nat) (held : Bool) : List Byte :=
  let x := s.getWarp wg w
  toLE 4 t.cause ++ toLE 4 (b2n x.yp + 2 * b2n held) ++ toLE 8 t.info ++ toLE 10 rpc ++ zeros 6 ++
  toLE 4 lmask.toNat ++ toLE 4 amask.toNat ++ toLE 4 (readWcr s wg w) ++ toLE 4 t.fmask.toNat ++
  toLE 8 t.info2 ++ toLE 8 (s.sample (coreDie (s.getWg wg).core)) ++
  (List.range 8).flatMap (fun i => toLE 4 (x.getK i).toNat) ++ predBytes x ++ zeros 128 ++
  (List.range 16).flatMap (fun r => (List.range 32).flatMap (fun l =>
    toLE 4 (if lmask.getLsbD l then (x.getV l (x.pos l r)).toNat else 0)))

/-- Offsets in the frame of the poisoned registers it holds (R478, R480). -/
def poisonedSlots (x : Warp) (lmask : LaneSet) : List Nat :=
  ((List.range 8).filter (fun i => x.poison.get false (poisonK i))).map (fun i => 0x40 + 4 * i) ++
  (List.range 16).flatMap (fun r => ((lanesOf lmask).filter (fun l => x.poison.get false (poisonV (x.pos l r) l))).map
    (fun l => 0x100 + 128 * r + 4 * l))

/-- Poison the blocks of memory that poisoned registers were saved into (R478). -/
def poisonSaved (s : State) (wg : Nat) (vas : List Nat) : State :=
  let core := (s.getWg wg).core
  vas.foldl (fun s va =>
    match translatePart s core (s.wgAsid wg) rightW true true ⟨0, va % 2 ^ 80, 4⟩ with
    | (.ok t, s) => poisonBlock (dropLines s core (inLine (t.pa / 128))) t.pa
    | (.error _, s) => s) s

/-- The record of a workgroup ended by a trap that cannot be taken (R398, R433). -/
def trapRecord (s : State) (wg : Nat) (t : Trap) (pc detail : Nat) : ErrRec :=
  { wgErr s wg t.cls t.reason 2 2 with addr := pc, detail := detail }

/-- The record of a fault that came from a poisoned line of a page table (R479). -/
def poisonedTable (s : State) (wg : Nat) (t : Trap) : State :=
  if t.cls = 6 && t.reason = 3 && walkPoisoned s (s.wgAsid wg) t.info ptLevels (s.getCtx (s.wgCtx wg)).pt6 then
    writeRecord s { wgEvent s wg .poisonedWalk 1 2 with addr := t.info }
  else s

/-- Take a trap for the entry at `pc` (R351): save its frame and status, enter mode S, and place its lanes at
TVEC + 4.  In mode S it is a double fault (R433); without a supervisor the workgroup ends (R398); a frame that cannot
be written is taken as a double fault [DEDUCED; log entry 48]. -/
def takeTrap (s : State) (wg w : Nat) (pc : Va) (amask : LaneSet) (rpc : Nat) (t : Trap) (held : Bool) : State :=
  let s := poisonedTable (s.modWarp wg w Warp.flush) wg t
  let x := s.getWarp wg w
  match x.entryAt pc with
  | none => s
  | some e =>
    let cx := s.getCtx (s.wgCtx wg)
    if x.modeS then endWorkgroup s wg (trapRecord s wg t pc.toNat 0xFFFF)
    else
      match cx.tvec with
      | none => endWorkgroup s wg (trapRecord s wg t pc.toNat 0xFFFD)
      | some tvec =>
        match superWrite s wg x.tfbase (frameBytes s wg w t e.mask amask rpc held) with
        | .fault => endWorkgroup s wg (trapRecord s wg t pc.toNat 0xFFFF)
        | .instead s => s
        | .done s =>
          let s := poisonSaved s wg ((poisonedSlots x e.mask).map (fun o => x.tfbase + o))
          let s := { s with holdsLR := s.holdsLR.filter (fun h => !(h.wg = wg && h.warp = w)) }
          s.modWarp wg w (fun x =>
            { x with modeS := true, tcause := BitVec.ofNat 32 t.cause, trapLanes := e.mask,
                     aside := x.table.filter (fun y => y.pc ≠ pc),
                     table := [{ Entry.fresh (BitVec.ofNat 80 (tvec + 4)) e.mask with stall := 1 }],
                     lanes := x.lanes.map (fun y => (y.1, { y.2 with sinceLR := 0 })),
                     -- what is still to be taken is held from now on (R429)
                     reports := x.reports.map (fun r => { r with held := true }),
                     lastIssue := s.now })

/-! ### What a meaning answers -/

/-- The effect of an instruction that issues: the state with its effects other than registers written through the
pipeline, and what the pipeline still does. -/
structure Out where
  s : State
  /-- registers written when it completes -/
  writes : List RegWrite := []
  flags : Nat := 0
  /-- lanes with the flags each raised -/
  laneFlags : List (Nat × Nat) := []
  /-- draw indices consumed by every lane of the entry (R118) -/
  draws : Nat := 0
  /-- lanes' new PCs, none for a lane that leaves the table; lanes not listed go to the next instruction -/
  moves : List (Nat × Option Nat) := []
  /-- results of the atomic unit it waits for -/
  awaits : Nat := 0
  /-- streams it uses beside those its fields name -/
  reads : List RegKey := []
  /-- least cycles of a class V operation, and how many more it may take where the spec bounds them -/
  least : Nat := 1
  span : Option Nat := none
  /-- the entry issues nothing more until the operation has completed (R355) -/
  stays : Bool := false

/-- What the run of an instruction gives. -/
inductive Res where
  /-- it issues -/
  | out (o : Out)
  /-- it issues, and this is done when its lanes have moved -/
  | outThen (o : Out) (post : State → State)
  /-- it traps; the resume PC is the instruction, or the next one (TRAP) -/
  | trap (t : Trap) (next : Bool)
  /-- it is not ready: it is tried again in a later cycle -/
  | wait
  /-- it does not issue; what happened instead is in this state (a held workgroup, a failed launch, a held request) -/
  | other (s : State)

/-- One instruction's own part of an issue. -/
structure Body where
  /-- checks of step 6 that look at state, slots and descriptors only -/
  state : Iss → List Fail := fun _ => []
  /-- checks of step 6 that look at operand values -/
  vals : Iss → List Fail := fun _ => []
  /-- draws consumed (R118), whatever the guard -/
  draws : Iss → Nat := fun _ => 0
  /-- the flags it raises may trap (R428) -/
  flagged : Bool := false
  run : Iss → Res

/-! ### Latency classes (R196) -/

/-- The fixed latency of an instruction, none for class V. -/
def fixedLat : Instr → Option Nat
  | .nop _ | .bra _ | .brx _ | .call _ | .callx _ | .ret _ | .exit _ | .yield _ | .sleep _ | .partset _ | .rjopen _
  | .rjopenMask _ | .rjjoin _ | .rjquit _ | .rjwait _ | .rjclose _ | .tdesc _ | .tmaskSet _ | .tmaskFirst _ | .gdecl _
  | .mxrel _ | .mtsWcr _ | .mtsXflagsClear _ | .mtsFmt _ | .mtsAmr _ | .mtsSc _ | .mtsMx _ | .trap _ | .eret _
  | .halt _ => some 1
  | .iadd _ | .isum3 _ | .isub _ | .ineg _ | .iabs _ | .imin _ | .imax _ | .isat _ | .icmp _ | .sel _ | .lea _ | .and _
  | .or _ | .xor _ | .not _ | .blut _ | .shl _ | .shr _ | .sar _ | .fshl _ | .fshr _ | .bfe _ | .bfi _ | .brev _
  | .popc _ | .clz _ | .ctz _ | .sext _ | .zext _ | .mov _ | .movi _ | .movk _ | .plut _ | .pmovGet _ | .pmovSet _
  | .partget _ | .rjtest _ | .rjmask _ | .spos _ | .htest _ | .hstat _ | .cycrd _ => some 4
  | .imul _ | .imulh _ | .imad _ | .imadw _ => some 6
  | .fadd _ | .fsub _ | .fmul _ | .ffma _ | .fmin _ | .fmax _ | .fcmp _ | .fclass _ | .frnd _ | .fscale _ | .fcvt _
  | .fcvts _ | .f2i _ | .i2f _ | .fpack _ | .funpack _ | .rand _ => some 5
  | .fdot _ | .vote _ | .shfl _ | .redux _ | .scan _ | .matchL _ => some 8
  | .frcp _ | .frsq _ | .fexp2 _ | .flog2 _ | .fsin _ | .fcos _ | .ftanh _ => some 12
  | _ => none

/-- A field names a stream: the instruction is of class V (R196). -/
def namesStream (i : Instr) : Bool := (usedFields i).any (fun e => isS e.2.1)

/-- The latency of an instruction, none for class V; a `k` destination adds 2. -/
def latOf (i : Instr) : Option Nat :=
  if namesStream i then none
  else (fixedLat i).map (fun n =>
    if (usedFields i).any (fun e => e.1 = .d && isK e.2.1) then n + 2 else n)

/-! ### Issuing (R39, R45, R88, R195, R426) -/

/-- The entry does not issue in this cycle and is tried again. -/
def retry (c : Iss) : State :=
  c.s0.modWarp c.wg c.w (fun x => x.modEntry c.entry.pc (fun e => { e with stall := max 1 e.stall }))

/-- Draws consumed by every lane of the entry (R118). -/
def Warp.addDraws (w : Warp) (m : LaneSet) (n : Nat) : Warp :=
  if n = 0 then w
  else (lanesOf m).foldl (fun w l => w.modLane l (fun x => { x with draw := (x.draw + n) % 2 ^ 64 })) w

/-- The write of a register that would receive a poisoned value: the register is marked; a predicate has no mark and is not
written (R437, R478). [DEDUCED; log entry 132] -/
def RegWrite.poisoned : RegWrite → Option RegWrite
  | .v l i _ => some (.v l i none)
  | .k n _ => some (.k n none)
  | .h l n _ => some (.h l n none)
  | .p _ _ _ => none
/-- The lane of a write, none for a `k` register. -/
def RegWrite.lane : RegWrite → Option Nat
  | .v l _ _ | .h l _ _ | .p l _ _ => some l
  | .k _ _ => none

/-- Results of the lanes of `bad` are poisoned (R479); a `k` register's where `badK` says so. -/
def poisonLanes (bad : List Nat) (badK : Bool) (ws : List RegWrite) : List RegWrite :=
  ws.filterMap (fun x =>
    if (match x.lane with | some l => bad.contains l | none => badK) then x.poisoned else some x)

/-- The lanes that took a poisoned element from a stream. -/
def poisonedTakes (strm : List (Nat × Nat × Nat × Bool)) : List Nat := (strm.filter (fun e => e.2.2.2)).map (fun e => e.2.1)

/-- A poisoned stream value poisons what its lane writes, or, across lanes (OP 0x13), what every lane writes (R479).
[DEDUCED; log entry 132] -/
def poisonWrites (c : Iss) (ws : List RegWrite) : List RegWrite :=
  let bad := poisonedTakes c.strm
  if bad = [] then ws else poisonLanes (if c.op = 0x13 then c.act else bad) true ws

/-- What a class V operation has yet to read, with the streams it uses (R197). -/
def issueReads (c : Iss) (i : Instr) : List RegKey := (operandUses c i).flatMap (·.reads)

/-- The operation that an issue leaves under way. -/
def issueWb (c : Iss) (i : Instr) (o : Out) (x : Warp) : Writeback :=
  let lat := latOf i
  let en := o.laneFlags.filter (fun e => e.2 &&& x.xen ≠ 0)
  { idx := x.nextIdx, op := c.op, fn := c.fn, issued := c.s.now, lat := lat.getD 0, isVar := lat.isNone,
    due := match lat with
      | some n => c.s.now + n
      | none => c.s.now + o.least + (match o.span with
          | some n => Config.delay c.s.free % (n + 1)
          | none => Config.delay c.s.free),
    awaits := o.awaits, token := c.f.st.toNat, lanes := c.amask, writes := poisonWrites c o.writes,
    reads := if lat.isNone then (issueReads c i ++ o.reads).dedup else [],
    flags := BitVec.ofNat 5 o.flags, flagLanes := laneSet (en.map (·.1)), nextPc := c.cur.npc }

/-- A transfer to `pc` is a stopping point of R59: a BRX, CALLX or RET whose target is not above it; in QPF, every
backward transfer (R203). -/
def backwardStop (c : Iss) (pc : Nat) : Bool :=
  c.op = 0 && pc ≤ c.cur.pc.toNat &&
    (c.fn = 2 || c.fn = 4 || c.fn = 5 || (c.qpf && (c.fn = 1 || c.fn = 3)))

/-- The instruction accesses memory otherwise than by LR or SC (R277). -/
def reachesMemory (c : Iss) (i : Instr) : Bool :=
  c.op = 0x20 || c.op = 0x21 || (c.op = 0x22 && c.fn ≠ 2 && c.fn ≠ 3) || (c.op = 0x23 && (c.fn = 3 || c.fn = 4)) ||
  (c.op = 0x14 && c.fn = 4) || namesStream i

/-- The LR holds of the warp on granules reserved by the listed lanes end (R277). -/
def endHolds (s : State) (wg w : Nat) (x : Warp) (ls : List Nat) : State :=
  { s with holdsLR := s.holdsLR.filter (fun h =>
      !(h.wg = wg && h.warp = w && ls.any (fun l => (x.lane l).resv = some h.granule))) }

/-- The instruction is issued: its operation goes under way, its token is counted, every lane of the entry moves, and
the counters of the warp's entries follow (R39, R40, R44, R45, R88, R195). -/
def commit (c : Iss) (i : Instr) (b : Body) (o : Out) : State :=
  let s := { o.s with free := o.s.free + (if (latOf i).isNone then 1 else 0) }
  let s := if s.holdsLR = [] then s
    else endHolds s c.wg c.w c.warp ((lanesOf c.entry.mask).filter (fun l =>
      (reachesMemory c i && c.act.contains l) || o.moves.contains (l, none)))
  s.modWarp c.wg c.w (fun x =>
    let wb := issueWb c i o x
    let pending : Bool := o.writes ≠ [] || wb.token ≠ 0 || o.flags ≠ 0 || o.awaits ≠ 0 || wb.reads ≠ []
    let owed : List Nat := if pending && (o.stays || (b.flagged && x.xen ≠ 0)) then [wb.idx] else []
    let x := if pending then { x with pend := x.pend ++ [wb], nextIdx := x.nextIdx + 1 } else x
    let x := if pending then x.addToken wb.token else x
    let x := x.addDraws c.entry.mask o.draws
    let x := (lanesOf c.entry.mask).foldl (fun x l =>
      if (x.lane l).sinceLR = 0 then x else x.modLane l (fun y => { y with sinceLR := y.sinceLR + 1 })) x
    let x := o.moves.foldl (fun x m => match m.2 with
      | none => x.modLane m.1 (fun y => { y with hold := y.hold.map (fun h => { h with stall := c.f.stall.toNat + 1 }) })
      | some _ => x) x
    let rest := (x.table.filter (fun e => e.pc ≠ c.entry.pc)).map (fun e => { e with fair := e.fair + 1 })
    let dest (l : Nat) : Option Nat :=
      match List.find? (fun m : Nat × Option Nat => m.1 = l) o.moves with
      | some m => m.2
      | none => some c.cur.npc.toNat
    let table := (lanesOf c.entry.mask).foldl (fun t l =>
      match dest l with
      | none => t
      | some pc => tableInsert t { Entry.fresh (BitVec.ofNat 80 pc) (laneSet [l]) with
          stall := c.f.stall.toNat + 1, owed := owed, yielded := false,
          backward := backwardStop c pc && c.act.contains l }) rest
    { x with table := table, lastIssue := c.s.now, skip := c.f.y, crcFails := 0 })

/-! ### The checks of an issue (R445) -/

/-- Where the checks of an issue lead. -/
inductive Gate where
  | go (c : Iss)
  | trap (t : Trap)
  /-- its lanes park on a handle, or it waits -/
  | hold (s : State)

/-- Checks against the launch's declarations (R65, R327): reason 0x0D. -/
def declFail (c : Iss) (i : Instr) : Option Fail :=
  let f := c.f
  let set := bits f.immN 20 4
  let desc (n : Nat) (used : Bool) : Bool := used && c.lr.descs ≤ n
  let above : Bool :=
    match i with
    | .rjopen _ | .rjopenMask _ | .rjjoin _ | .rjquit _ | .rjwait _ | .rjtest _ | .rjmask _ | .rjclose _ =>
      c.lr.sets ≤ set
    | .tdesc _ => desc set true
    | .tmma _ | .tmmab _ | .tew _ => desc f.md true || desc f.ma true || desc f.mb true
    | .tscl _ => desc f.md true || desc f.ma true || desc f.mb true
    | .tact _ | .tred _ | .ttrans _ | .tcvt _ | .taccld _ | .taccst _ | .tdrain _ => desc f.md true || desc f.ma true
    | .tzero _ => desc f.md true
    | .tcopyTile _ => desc f.cmd true || desc f.cma true
    | _ => false
  if above then some ⟨0x0D, .imm, f.immN, c.amask⟩ else none

/-- The stall check (R198, R451). -/
def stallTrap (c : Iss) (i : Instr) : Option Trap :=
  if !c.warp.chk || c.act = [] then none
  else
    (uses c i).findSome? (fun u =>
      let mk (reason top : Nat) : Trap :=
        { cls := 3, reason := reason, fmask := c.amask
          info := c.op + c.fn * 2 ^ 8 + u.fld.code * 2 ^ 12 + u.code * 2 ^ 16 + top * 2 ^ 24 }
      match c.warp.pend.find? (fun b => !b.isVar && b.touches u.keys && c.s.now < b.issued + b.lat) with
      | some b => some (mk 1 (b.lat - (c.s.now - b.issued)))
      | none => (c.warp.pend.find? (fun b => b.holdsBack u && b.token ≠ 0 && !named c.f b.token)).map (fun b => mk 2 b.token))

/-- A poisoned register read as a source (R479, R480). -/
def poisonTrap (c : Iss) (i : Instr) : Option Trap :=
  (usedFields i).findSome? (fun e =>
    if e.1 = .d then none
    else
      let key : RegKey → Nat := fun k => match k with
        | .v l p => poisonV p l
        | .k n => poisonK n
        | .h l n => poisonH n l
        | .p _ _ | .s _ => 2 ^ 40
      let badLanes := (fieldLanes i c.act e.1).filter (fun l =>
        (regKeys c.warp l e.2.1 e.2.2).any (fun k => c.warp.poison.get false (key k)))
      match badLanes with
      | [] => none
      | l :: _ => some { cls := 7, reason := 1, info := e.2.1 + l * 2 ^ 8, fmask := laneSet badLanes })

/-- The failing check with the lowest reason (R445). -/
def lowestFail (fs : List Fail) : Option Fail :=
  [4, 0x0B, 0x0C, 0x0E, 0x0F, 0x10, 0x11].findSome? (fun r => fs.find? (·.reason = r))

/-- Park the lanes of the entry on a handle (R58): one event releases them all.  It takes no issue cycle: nothing has
issued, so the partition's slot, the warp's last issue and the counters of its entries stay as they were.
[DEDUCED; log entry 120] -/
def parkOnHandle (c : Iss) (reg : Nat) : State :=
  (endHolds c.s0 c.wg c.w c.warp (lanesOf c.entry.mask)).modWarp c.wg c.w (fun x =>
    (lanesOf c.entry.mask).foldl (fun x l => x.modLane l (fun y =>
      { y with hold := some { kind := .handle reg, rpc := c.entry.pc, wake := 0, need := c.act.contains l,
                               group := (lowestLane c.entry.mask).getD 0, stall := 0 } }))
      (x.dropEntry c.entry.pc))

end Sys2Proof.Machine
end

