-- ==== Sys2Proof/Machine/Desc.lean ====
section
/-!
DEFINITION. Tile descriptors and their placement (R292, R293), and the storage that a command reads (R167).
-/

namespace Sys2Proof.Machine

open Sys2Proof

/-! ### Descriptors (R292, R293) -/

/-- A tile descriptor taken apart, with its element width W. -/
structure Desc where
  raw : BitVec 256
  v : Bool
  loc : Nat
  qp : Nat
  kind : Bool
  fs : Nat
  bl : Nat
  save : Bool
  trn : Bool
  rows : Nat
  cols : Nat
  stride : Nat
  base : Nat
  scb : Int
  two : Int
  gro : Int
  w : Nat
  deriving DecidableEq, Repr

/-- The descriptor of 256 bits, with the format words in force. -/
def descOf (fmt : List Word) (x : BitVec 256) : Desc :=
  let n := x.toNat
  let loc := bits n 253 2
  let kind := bitB n 250
  let fs := bits n 247 3
  { raw := x, v := bitB n 255, loc := loc, qp := bits n 251 2, kind := kind, fs := fs, bl := bits n 245 2,
    save := bitB n 244, trn := bitB n 243, rows := bits n 235 8 + 1, cols := bits n 227 8 + 1, stride := bits n 192 32,
    base := bits n 112 80, scb := signed 48 (bits n 64 48), two := signed 32 (bits n 32 32), gro := signed 32 (bits n 0 32),
    w := if kind then 4 else if loc = 2 then 32 else (Slot.of ((fmt[fs]?).getD 0).toNat 0).W }

/-- Block length along K (R122, R292). -/
def Desc.block (d : Desc) : Nat := 16 * 2 ^ d.bl
/-- The bit address of element (i, j) (R293). -/
def Desc.bitAt (d : Desc) (i j : Nat) : Nat :=
  if d.trn then 8 * d.base + 8 * d.stride * j + d.w * i else 8 * d.base + 8 * d.stride * i + d.w * j
/-- The accumulator entry of element (i, j). -/
def Desc.entryAt (d : Desc) (i j : Nat) : Nat := (d.base + 256 * i + j) % 65536
/-- The byte address of the twin of element (i, j) of 4 bytes (R293). -/
def Desc.twinAt (d : Desc) (i j : Nat) : Nat :=
  wrap 80 ((d.base : Int) + 256 * d.two + (if d.trn then d.stride * i + 4 * j else d.stride * j + 4 * i : Nat))
/-- The gradient of element (i, j): a byte address, for accumulator memory 4 times an entry (R293, R339). -/
def Desc.gradAt (d : Desc) (i j : Nat) : Int := (d.base : Int) + 256 * d.gro + (4 * (i * d.cols + j) : Nat)
/-- Lines of adjacent elements and their length. -/
def Desc.lines (d : Desc) : Nat := if d.trn then d.cols else d.rows
def Desc.perLine (d : Desc) : Nat := if d.trn then d.rows else d.cols
/-- Scale words along K, and in all, as an A or as a B operand (R293). -/
def Desc.blocks (d : Desc) (asB : Bool) : Nat := ceilDiv (if asB then d.rows else d.cols) d.block
def Desc.scales (d : Desc) (asB : Bool) : Nat := (if asB then d.cols else d.rows) * d.blocks asB
/-- The index of the scale word of element (i, j). -/
def Desc.scaleIx (d : Desc) (asB : Bool) (i j : Nat) : Nat :=
  if asB then j * d.blocks asB + i / d.block else i * d.blocks asB + j / d.block
/-- The bit address of scale word t. -/
def Desc.scaleBit (d : Desc) (t : Nat) : Int := 8 * ((d.base : Int) + d.scb) + (11 * t : Nat)

/-- The fields that are zero for the descriptor's location and kind are zero (R292).
[Tested where a command uses the descriptor; DEDUCED, log entry 72] -/
def Desc.formOk (d : Desc) : Bool :=
  (d.loc = 1 || d.qp = 0) && (if d.kind then d.fs = 0 && d.loc ≠ 2 else d.bl = 0 && d.scb = 0) &&
  (d.loc ≠ 2 || (d.fs = 0 && d.stride = 0)) && (d.loc = 3 || d.two = 0) &&
  (match d.loc with | 3 => true | 2 => d.base < 2 ^ 16 | _ => d.base < 2 ^ 32)

/-- Elements of the descriptor overlap one another (R293). -/
def Desc.selfOverlap (d : Desc) : Bool := d.loc ≠ 2 && 2 ≤ d.lines && 8 * d.stride < d.w * d.perLine

/-- Every element lies below `len` bytes of a scratchpad, and every scale word (R293). -/
def Desc.fits (d : Desc) (len : Nat) (asB : Bool) : Bool :=
  8 * d.base + 8 * d.stride * (d.lines - 1) + d.w * d.perLine ≤ 8 * len &&
  (!d.kind || (0 ≤ d.scaleBit 0 && d.scaleBit (d.scales asB) ≤ (8 * len : Nat)))

/-- The byte spans, or entry spans, that the elements take. -/
def Desc.spans (d : Desc) : List (Nat × Nat) :=
  if d.loc = 2 then
    (List.range d.rows).flatMap (fun i =>
      let b := d.entryAt i 0
      if b + d.cols ≤ 65536 then [(b, d.cols)] else [(b, 65536 - b), (0, b + d.cols - 65536)])
  else (List.range d.lines).map (fun i => (d.base + d.stride * i, ceilDiv (d.w * d.perLine) 8))

/-- The storage the descriptor lies in: a member's scratchpad, accumulator memory, or global memory. -/
def Desc.space (d : Desc) (qgpos : Nat) : Nat := if d.loc = 0 then qgpos else if d.loc = 1 then d.qp else 2 + d.loc

/-- Two span lists meet. -/
def spansMeet (xs ys : List (Nat × Nat)) : Bool := xs.any (fun x => ys.any (fun y => overlaps x.1 x.2 y.1 y.2))

/-- A destination overlaps a source that is not the same descriptor (R294). -/
def Desc.clashes (d a : Desc) (qgpos : Nat) : Bool :=
  d.space qgpos = a.space qgpos && d.raw ≠ a.raw && spansMeet d.spans a.spans

/-! ### What a command reads (R167, R294, R318 to R321) -/

/-- Where each operand may lie (R294): destination, first source, second source. -/
def roleLocs (fn : Nat) : List Nat × Option (List Nat) × Option (List Nat) :=
  match fn with
  | 0 | 1 => ([2], some [0, 1], some [0, 1])
  | 3 | 6 => ([0, 2], some [0, 1, 2], some [0, 1, 2])
  | 8 => ([0, 2], none, none)
  | 9 => ([2], some [0, 1], none)
  | 10 => ([0], some [2], none)
  | 11 => ([3], some [2], none)
  | _ => ([0, 2], some [0, 1, 2], none)

/-- Working format words of a workgroup. -/
def Wg.fmts (g : Wg) : List Word := (List.range 8).map (fun n => g.fmt.get 0 n)

/-- The workgroup whose scratchpad a descriptor lies in. -/
def Desc.owner (d : Desc) (s : State) (wg : Nat) : Nat :=
  let g := s.getWg wg
  if d.loc = 1 then wgKey g.lslot (g.index - g.qgpos + d.qp) else wg

/-- Row size of TGATHER and TSCATTER, and their number of rows (R320). -/
def rowBytes (f : Fields) : Nat := 4 * 2 ^ bits f.immN 25 3
def rowCount (f : Fields) : Nat := bits f.immN 8 12 + 1

/-- A stretch of storage: of a workgroup's scratchpad, or of global memory; its first byte and its length. -/
structure Span where
  pad : Option Nat
  lo : Nat
  n : Nat
  deriving DecidableEq, Repr

/-- Two stretches overlap. -/
def Span.meets (x y : Span) : Bool := x.pad = y.pad && overlaps x.lo x.n y.lo y.n

/-- The bytes of the scale words of a descriptor, none for KIND = 0. -/
def Desc.scaleSpans (d : Desc) (asB : Bool) : List (Nat × Nat) :=
  if d.kind then [((d.scaleBit 0).toNat / 8, ceilDiv (11 * d.scales asB) 8)] else []

/-- The stretches that an operand of a command takes, scale words included; accumulator memory is the engine's alone. -/
def Desc.reach (d : Desc) (s : State) (wg : Nat) (asB : Bool) : List Span :=
  if d.loc = 2 then []
  else (d.spans ++ d.scaleSpans asB).map (fun e => ⟨if d.loc = 3 then none else some (d.owner s wg), e.1, e.2⟩)

/-- The stretches that a command reads. -/
def Cmd.sources (s : State) (c : Cmd) : List Span :=
  let pad (lo n : Nat) : Span := ⟨some c.wg, lo, n⟩
  match c.instr with
  | .tcopy f => [⟨if bitB f.immN 26 then some c.wg else none, c.a, c.c⟩]
  | .tcopyTile f => (descOf c.fmt c.da).reach s c.wg (bitB f.immN 11)
  | .tgather f =>
    pad c.a (4 * rowCount f) :: (List.range (rowCount f)).map (fun r =>
      let x := ofLE ((List.range 4).map (fun i => (s.getWg c.wg).scratch.get 0 (c.a + 4 * r + i)))
      ⟨none, (c.b + x * rowBytes f) % 2 ^ 80, rowBytes f⟩)
  | .tscatter f => [pad c.a (4 * rowCount f), pad c.c (rowCount f * rowBytes f)]
  | .tcoll _ => [⟨none, c.a, 4 * c.c⟩]
  | .reverse _ => [⟨none, (s.getWg c.wg).recd.base, (s.getWg c.wg).recd.size⟩]
  | i =>
    match opFn i with
    | some (0x31, fn) =>
      (if (roleLocs fn).2.1.isSome then (descOf c.fmt c.da).reach s c.wg false else []) ++
      (if (roleLocs fn).2.2.isSome then (descOf c.fmt c.db).reach s c.wg true else [])
    | _ => []

/-- The commands that a thread has issued and that are not complete; of the matrix engine, those of its whole workgroup, whose
signers the engine does not tell apart. [DEDUCED; log entry 74] -/
def threadCommands (s : State) (wg w lane : Nat) : List Cmd :=
  let m := (s.getCore (s.getWg wg).core).mx
  ((m.run.map (·.cmd)).toList ++ m.staged.toList).filter (fun c => c.wg = wg) ++
  s.engs.flatMap (fun (e : Nat × Eng) => e.2.queue.filter (fun c => c.wg = wg && c.warp = w && c.lane = lane))

/-- A write of a thread would be seen by a command that it issued earlier (R167): the write comes after it. -/
def beforeWrite (s : State) (wg w lane : Nat) (x : Span) : Bool :=
  (threadCommands s wg w lane).any (fun c => (c.sources s).any x.meets)

end Sys2Proof.Machine
end

