-- ==== Sys2Proof/Machine/Operands.lean ====
section
/-!
DEFINITION. Operand forms that reach memory or the pipeline: global addresses (R262), accesses in parts with their
checks (R263, R472, R482), bit ranges (R133 to R135), streams (R251 to R254), destinations (R82, R208, R253), and the
slots an instruction names (R109, R189, R232).
-/

namespace Sys2Proof.Machine

open Sys2Proof

/-! ### Addresses (R262) -/

/-- The global address of a lane through code `a` with a byte offset (R262). -/
def Iss.ea (c : Iss) (a : Nat) (xh : Bool) (off : Int) (lane : Nat) : Nat :=
  let t := wrap 64 ((c.read a true lane : Int) + off)
  if xh then c.read (a + 2) false lane % 2 ^ 16 * 2 ^ 64 + t else sextVa t

/-- OFF of R261. -/
def offOf (f : Fields) : Int := signed 17 (bits f.immN 0 17)

/-- The address operand A of OP 0x20 to 0x22. -/
def Iss.addr (c : Iss) (lane : Nat) : Nat := c.ea c.f.a.toNat c.f.xh (offOf c.f) lane

/-! ### An access and its checks (R472) -/

/-- The trap of the parts that fail translation, permission or placement (R472 step 3). -/
def memTrap (fails : List (Part × Nat)) : Option Trap :=
  match fails with
  | [] => none
  | x :: _ =>
    some { cls := 6, reason := x.2, info := x.1.va, info2 := ((fails.getLast?).map (fun e => e.1.va)).getD x.1.va
           fmask := laneSet ((fails.map (fun e => e.1.lane)).dedup) }

/-- The trap of lanes whose address is misaligned (R472 step 1). -/
def alignTrap (lanes : List (Nat × Nat)) (n : Nat) : Option Trap :=
  let bad := lanes.filter (fun e => e.2 % n ≠ 0)
  match bad with
  | [] => none
  | x :: _ => some { cls := 6, reason := 4, info := x.2, info2 := ((bad.getLast?).map (·.2)).getD x.2
                     fmask := laneSet (bad.map (·.1)) }

/-- The trap of a write to a named object (R482). -/
def objectTrap (cx : Ctx) (ps : List Part) : Option Trap :=
  let bad := ps.filter (fun p => meetsObject cx p.va p.n)
  match bad with
  | [] => none
  | x :: _ => some { cls := 0x0A, reason := 4, info := x.va, fmask := laneSet ((bad.map (·.lane)).dedup) }

/-! Links (R14, R511, R512): 0 to 5 between compute dies, 6 + d from die d to the hub, 16 + p UALink port p (R513) -/

/-- A link holds its traffic: it retrains, or has no lane. -/
def State.linkDown (s : State) (n : Nat) : Bool :=
  match s.links.find? n with
  | some l => l.retraining || l.lanes = 0
  | none => false
/-- The direct link of two compute dies: the six pairs in ascending order, which R513 numbers 0 to 5 without saying how.
[DESIGN CHOICE; log entry 133] -/
def dieLink (a b : Nat) : Nat := let lo := min a b; let hi := max a b; if lo = 0 then hi - 1 else if lo = 1 then hi + 1 else 5
/-- The link of a die to the hub. -/
def hubLink (die : Nat) : Nat := 6 + die

/-- UALink holds traffic: every port is retraining or disabled (R511, R512). -/
def remoteHeld (s : State) : Bool := (List.range 16).all (fun p => s.linkDown (16 + p))

/-- An access of a die to a place is held at its source by a link on its way (R14, R511). -/
def partHeld (s : State) (die : Nat) (t : TPart) : Bool :=
  if t.mt = 2 then s.linkDown (hubLink die) || remoteHeld s
  else if inHub (paLocal t.pa) then s.linkDown (hubLink die)
  else paDie t.pa ≠ die && s.linkDown (dieLink die (paDie t.pa))

/-- What the checks of an access come to. -/
inductive Acc where
  | ok (ts : List TPart) (s : State)
  | trap (t : Trap)
  /-- it is not delivered yet: what its entry waits for from now on (R388, R475, R511) -/
  | held (w : EntryWait)
  /-- an earlier access or command of the thread comes first (R153, R167) -/
  | later
  deriving DecidableEq, Repr

/-- A part crosses a link: to another package, or to the L2 of another die. -/
def TPart.crosses (t : TPart) (core : Nat) : Bool := t.mt = 2 || (inHBM (paLocal t.pa) && paDie t.pa ≠ coreDie core)

/-- Delivery of the parts that cross a link (R472 step 5, R475): held while a link is down, and then until the other package
accepts the request, which times out after 2 ms, 4,200,000 counts; the trap of the first and last of them, when the entry's wait
has ended in failure.  A part that times out is one for another package. -/
def deliver (core : Nat) (wait : EntryWait) (ts : List TPart) (s : State) : Acc :=
  match wait with
  | .undelivered r =>
    match ts.filter (fun t => t.mt = 2 || (r = 0x0A && t.crosses core)) with
    | [] => .ok ts s
    | t :: more =>
      .trap { cls := 6, reason := r, info := t.part.va, info2 := ((more.getLast?).getD t).part.va
              fmask := laneSet (((t :: more).map (fun x => x.part.lane)).dedup) }
  | _ =>
    if ts.any (partHeld s (coreDie core)) then .held wait
    else if ts.any (fun t => t.mt = 2) then
      match wait with
      | .remote a d => if a ≤ s.now then .ok ts s else .held (.remote a d)
      | _ => if Config.acceptAfter s.free = 0 then .ok ts s
             else .held (.remote (s.now + Config.acceptAfter s.free) (s.now + 4200000))
    else .ok ts s

/-- Translate and check the parts of an access (R472 steps 3 and 4, and delivery); `obj` asks for the object test. -/
def Iss.reach (c : Iss) (s : State) (r : Right) (obj : Bool) (ps : List Part) : Acc :=
  match translateParts s c.core c.asid r c.warp.modeS c.maint ps with
  | (ts, [], s) =>
    match (if obj then objectTrap (s.ctxView c.wg) ps else none) with
    | some t => .trap t
    | none => deliver c.core c.entry.wait ts s
  | (_, x :: xs, _) =>
    match memTrap (x :: xs) with
    | some t => .trap t
    | none => .later

/-- A late result of the thread will be written to a byte of a part (R153, R253). -/
def AtomReq.fills (q : AtomReq) (t : TPart) : Bool :=
  q.late.any (fun p => p.parts.any (fun x => overlaps x.2.2.1 x.2.1 t.pa t.part.n))
/-- The request is for a byte of a part. -/
def AtomReq.reaches (q : AtomReq) (t : TPart) : Bool :=
  overlaps q.pa q.size t.pa t.part.n || (q.kind = 6 && overlaps q.twin q.size t.pa t.part.n)

/-- Something that the same thread has waiting at a unit is, by the test, for a byte of the parts (R153). -/
def ownWaiting (s : State) (wg w : Nat) (p : AtomReq → TPart → Bool) (ts : List TPart) : Bool :=
  s.atomQ.any (fun q => q.wg = wg && q.warp = w && ts.any (fun t => t.part.lane = q.lane && p q t))
def ownQueued (s : State) (wg w : Nat) (ts : List TPart) : Bool := ownWaiting s wg w (fun q t => q.reaches t || q.fills t) ts

/-- A write of the parts is one that an earlier command of its thread must not see (R167). -/
def writesSource (s : State) (wg w : Nat) (ts : List TPart) : Bool :=
  ts.any (fun t => beforeWrite s wg w t.part.lane ⟨none, t.part.va, t.part.n⟩)

/-- The checks of an access, and its place after the thread's own earlier accesses and commands (R153, R167). -/
def Iss.access (c : Iss) (s : State) (r : Right) (obj : Bool) (ps : List Part) : Acc :=
  match c.reach s r obj ps with
  | .ok ts s => if ownQueued s c.wg c.w ts || (r.wr && writesSource s c.wg c.w ts) then .later else .ok ts s
  | a => a

/-- Split a list into runs of the given lengths. -/
def regroup {α : Type} : List Nat → List α → List (List α)
  | [], _ => []
  | n :: ns, xs => xs.take n :: regroup ns (xs.drop n)

/-- The entry of an access that is not delivered yet waits. -/
def holdRemote (c : Iss) (w : EntryWait) : State :=
  ({ c.s0 with free := c.s0.free + 1 }).modWarp c.wg c.w (fun x => x.modEntry c.entry.pc (fun e =>
    { e with stall := max 1 e.stall, wait := w }))

/-- What an access that goes no further comes to. -/
def Acc.stop (a : Acc) (c : Iss) : Res :=
  match a with
  | .trap t => .trap t false
  | .held w => .other (holdRemote c w)
  | .later | .ok _ _ => .wait

/-- The instruction waits until write-backs of its core that a hold keeps at their unit are performed (R155, R277). -/
def Iss.awaitWriteback (c : Iss) (inB : Nat → Bool) : Res := .other (sendWritebacks (retry c) c.core inB)

/-! ### Deterministic buffering (R174, R177) -/

/-- A deterministic workgroup's writes find room (R174), or pass the tests of direct writes (R177), or the workgroup is
held, or the launch fails (R485, R486); nothing to test outside a deterministic launch. -/
inductive DetGate where
  | ok (s : State)
  | other (s : State)
  deriving DecidableEq, Repr

def detGate (c : Iss) (s : State) (ts : List TPart) (reds : Nat) : DetGate :=
  if c.s.wgDet c.wg && ts.any (fun t => s.heldWithin t.pa t.part.n c.wg (· ≠ c.w)) then .other (retry c)
  else match detTest s c.wg ts reds with
  | .ok s => .ok s
  | .full => .other ((holdFull c.s0 c.wg).modWarp c.wg c.w (fun x =>
      x.modEntry c.entry.pc (fun e => { e with stall := max 1 e.stall })))
  | .conflict va j => .other (failLaunch c.s0 c.g.lslot (conflictRecord c.s0 c.wg va j))
  | .preFull => .other (failLaunch c.s0 c.g.lslot (preimageRecord c.s0 c.wg))
  | .lost r => .other (failLaunch c.s0 c.g.lslot (lostRecord c.s0 c.wg r))

/-! ### Ranges of bits (R133 to R135) -/

/-- The parts of a lane's bit range [b, b + n). -/
def bitParts (lane b n : Nat) : List Part :=
  if n = 0 then [] else partsOf lane (b / 8) ((b + n - 1) / 8 - b / 8 + 1)

/-- Read translated parts by weak accesses: their bytes in order, and whether one was poisoned. -/
def readParts (s : State) (wg core hint : Nat) (ts : List TPart) : List Byte × Bool × State :=
  ts.foldl (fun (a : List Byte × Bool × State) t =>
    let r := weakRead a.2.2 wg core hint t
    (a.1 ++ r.1, a.2.1 || r.2.1, r.2.2)) ([], false, s)

/-- The masked bytes that writing the `n` low bits of `x` at bit address `b` touches. -/
def bitBytes (b n x : Nat) : List (Byte × Byte) :=
  let len := (b + n - 1) / 8 - b / 8 + 1
  (toLE len (x % 2 ^ n * 2 ^ (b % 8))).zip (toLE len ((2 ^ n - 1) * 2 ^ (b % 8)))

/-! ### Stores (R136, R154, R277) -/

/-- A store of a warp that goes to its unit finds the granule held by another warp, or first has a write-back of its line to
make that a hold keeps: it waits at the unit. -/
def storeHeld (s : State) (wg w core sco hint : Nat) (t : TPart) : Bool :=
  s.holdsLR ≠ [] && !s.wgDet wg && t.mt ≠ 2 && (wideScope sco || !storesInL1 s core t.pa hint t.mt) &&
  (s.heldFrom t.pa t.part.n wg w || lineHeld s core t.pa wg w)

/-- A store that waits at its unit, as a request of operation `idx`. -/
def storeRequest (s : State) (wg w idx : Nat) (t : TPart) (bs : List (Byte × Byte)) : AtomReq :=
  { wg := wg, warp := w, lane := t.part.lane, idx := idx, pa := t.pa, va := t.part.va, kind := 7, size := t.part.n, aop := 0,
    b := ofLE (bs.map (·.1)), c := ofLE (bs.map (·.2)), twin := t.pa, twinVa := t.part.va, dst := [], late := [],
    due := s.now, ctx := s.wgCtx wg, region := none }

/-- Store masked bytes over translated parts in order, weak or scoped: the state, and how many of them wait at their unit. -/
def storeParts (s : State) (wg w core idx sco hint : Nat) (ts : List TPart) (bs : List (Byte × Byte)) : State × Nat :=
  let r := ts.foldl (fun (a : State × Nat × List (Byte × Byte)) t =>
    let x := a.2.2.take t.part.n
    let rest := a.2.2.drop t.part.n
    if storeHeld a.1 wg w core sco hint t then
      ({ a.1 with atomQ := a.1.atomQ ++ [storeRequest a.1 wg w idx t x] }, a.2.1 + 1, rest)
    else
      (if sco = 0 then weakWrite a.1 wg core hint t x else scopedWrite a.1 wg core sco hint t x, a.2.1, rest)) (s, 0, bs)
  (r.1, r.2.1)
def Iss.store (c : Iss) (s : State) (sco hint : Nat) (ts : List TPart) (bs : List (Byte × Byte)) : State × Nat :=
  storeParts s c.wg c.w c.core c.warp.nextIdx sco hint ts bs

/-- What the write of masked bytes adds to `%shash` (R184): in each chunk, the mask counts the bytes touched, and bits
not written are zero. -/
def hashMasked (s : State) (wg va : Nat) (bs : List (Byte × Byte)) : State :=
  addHash s wg va (bs.map (fun e => e.1 &&& e.2))

/-! ### Streams (R251 to R254) -/

def Stream.V (x : Stream) : Bool := x.desc.getLsbD 127
def Stream.dir (x : Stream) : Bool := x.desc.getLsbD 126
def Stream.fs (x : Stream) : Nat := bits x.desc.toNat 123 3
def Stream.hint (x : Stream) : Nat := bits x.desc.toNat 120 3
def Stream.n0 (x : Stream) : Nat := bits x.desc.toNat 108 12 + 1
def Stream.n1 (x : Stream) : Nat := bits x.desc.toNat 96 12 + 1
def Stream.rs (x : Stream) : Nat := bits x.desc.toNat 80 16
def Stream.base (x : Stream) : Nat := bits x.desc.toNat 0 80
/-- I0 + N0·I1: elements taken so far. -/
def Stream.at (x : Stream) : Nat := bits x.pos.toNat 0 12 + x.n0 * bits x.pos.toNat 12 13
/-- The bit address of element `e` of W bits (R251). -/
def Stream.bitAddr (x : Stream) (w e : Nat) : Nat :=
  (8 * x.base + 128 * x.rs * (e / x.n0) + w * (e % x.n0)) % 2 ^ 83

/-- The position after `n` more elements (R252, R253). -/
def Stream.advance (x : Stream) (n : Nat) : Stream :=
  let total := x.n0 * x.n1
  let e := min total (x.at + n)
  let pos := e % x.n0 + (e / x.n0) * 2 ^ 12 +
    b2n (x.at / x.n0 < e / x.n0) * 2 ^ 29 + b2n (x.n1 ≤ e / x.n0) * 2 ^ 30 +
    b2n (bitB x.pos.toNat 31 || total < x.at + n) * 2 ^ 31
  { x with pos := BitVec.ofNat 64 pos }

/-- The slot `n` of a workgroup (R90, R101, R108). -/
def Wg.slot (g : Wg) (n : Nat) : Slot := Slot.of (g.fmt.get 0 n).toNat (bits g.amr.toNat (8 * n) 8)
def Iss.slot (c : Iss) (n : Nat) : Slot := c.g.slot n

/-- The runs of adjacent elements among `cnt` elements from `e` of a stream: (bit address, elements). -/
def streamRuns (x : Stream) (w e cnt : Nat) : List (Nat × Nat) :=
  (List.range cnt).foldl (fun (rs : List (Nat × Nat)) j =>
    if x.n0 * x.n1 ≤ e + j then rs
    else
      let b := x.bitAddr w (e + j)
      match rs.getLast? with
      | some (b0, n) => if (b0 + w * n) % 2 ^ 83 = b then rs.dropLast ++ [(b0, n + 1)] else rs ++ [(b, 1)]
      | none => [(b, 1)]) []

/-- Every lane's runs of a stream access: (lane, bit address, bits). -/
def streamRanges (x : Stream) (w cnt : Nat) (act : List Nat) : List (Nat × Nat × Nat) :=
  ((List.range act.length).zip act).flatMap (fun e =>
    (streamRuns x w (x.at + e.1 * cnt) cnt).map (fun r => (e.2, r.1, r.2 * w)))

/-- The input streams an instruction names in A, B and C, each once. -/
def inputStreams (i : Instr) : List Nat :=
  ((usedFields i).filterMap (fun e => if e.1 ≠ .d && isS e.2.1 then some (e.2.1 - 96) else none)).dedup
/-- The output stream it names in D. -/
def outputStream (i : Instr) : Option Nat :=
  (usedFields i).findSome? (fun e => if e.1 = .d && isS e.2.1 then some (e.2.1 - 96) else none)

/-- The register of a stream. -/
def Warp.stream (w : Warp) (n : Nat) : Stream := w.s.get Stream.init n

/-- Stream checks of step 6 (R443 reasons 0x0B and 0x11): defined, of the right direction, its slot valid. -/
def streamFails (c : Iss) (i : Instr) : List Fail :=
  let one (n : Nat) (out : Bool) : List Fail :=
    let x := c.warp.stream n
    (if !x.V || x.dir != out then [c.badState 0x11 n c.amask] else []) ++
    (if x.V && !(c.slot x.fs).valid then [⟨0x0B, .slot, x.fs, c.amask⟩] else [])
  (inputStreams i).flatMap (fun n => one n false) ++
  (match outputStream i with | some n => one n true | none => [])

/-- Take the elements of one input stream for every active lane (R253): lane, packed bits, poisoned. -/
def takeStream (c : Iss) (s : State) (n : Nat) : Except Acc (List (Nat × Nat × Bool) × State) :=
  let x := c.warp.stream n
  let sl := c.slot x.fs
  let rs := streamRanges x sl.W sl.L c.act
  let pss := rs.map (fun r => bitParts r.1 r.2.1 r.2.2)
  match c.access s rightR false pss.flatten with
  | .ok ts s =>
    let groups := rs.zip (regroup (pss.map List.length) ts)
    let vals := groups.foldl (fun (a : List (Nat × Nat × Nat × Bool) × State) g =>
      let r := readParts a.2 c.wg c.core x.hint g.2
      (a.1 ++ [(g.1.1, g.1.2.2, ofLE r.1 / 2 ^ (g.1.2.1 % 8) % 2 ^ g.1.2.2, r.2.1)], r.2.2)) ([], s)
    let lane (l : Nat) : Nat × Nat × Bool :=
      let mine := vals.1.filter (fun e => e.1 = l)
      let r := mine.foldl (fun (a : Nat × Nat) e => (a.1 + e.2.2.1 * 2 ^ a.2, a.2 + e.2.1)) (0, 0)
      (l, r.1, mine.any (fun e => e.2.2.2))
    let s := vals.2.modWarp c.wg c.w (fun w => { w with s := w.s.put n (x.advance (sl.L * c.act.length)) })
    .ok (c.act.map lane, s)
  | a => .error a

/-- Take the elements of every input stream the instruction names; where one cannot be read, what comes of it, with the elements
taken before it. -/
def takeStreams (c : Iss) : List Nat → Except (Acc × Iss) Iss
  | [] => .ok c
  | n :: ns =>
    match takeStream c c.s n with
    | .ok (vs, s) =>
      takeStreams { c with s := s, warp := s.getWarp c.wg c.w, strm := c.strm ++ vs.map (fun v => (n, v.1, v.2.1, v.2.2)) } ns
    | .error a => .error (a, c)

/-- A source's value is known: it is no stream, or its elements have been taken. -/
def Iss.known (c : Iss) (code : Nat) : Bool := !isS code || c.strm.any (fun e => e.1 = code - 96)
/-- A check of step 6 on a value read from l0 through a code: reason 0x0C. -/
def Iss.valueFails (c : Iss) (code : Nat) (bad : Bool) (x : Nat) : List Fail :=
  if c.known code && bad then [c.bad 0x0C x] else []

/-- The translated parts of a place in an output stream. -/
def LatePut.tparts (p : LatePut) (lane : Nat) : List TPart := p.parts.map (fun x => ⟨⟨lane, x.1, x.2.1⟩, x.2.2.1, x.2.2.2⟩)
/-- The place that translated parts make. -/
def latePut (bit n hint : Nat) (ts : List TPart) : LatePut :=
  { bit := bit, n := n, hint := hint, parts := ts.map (fun t => (t.part.va, t.part.n, t.pa, t.mt)) }

/-- Lay the low bits of `x` down at the places in turn: the state, and how many stores wait at their unit. -/
def fillPuts (s : State) (wg w core idx lane : Nat) (ps : List LatePut) (x : Nat) : State × Nat :=
  let r := ps.foldl (fun (a : State × Nat × Nat) p =>
    let bs := bitBytes p.bit p.n a.2.2
    let q := storeParts a.1 wg w core idx 0 p.hint (p.tparts lane) bs
    (hashMasked q.1 wg (p.bit / 8) bs, a.2.1 + q.2, a.2.2 / 2 ^ p.n)) (s, 0, x)
  (r.1, r.2.1)

/-- The places would receive a poisoned value: their blocks are poisoned instead (R478). -/
def poisonPuts (s : State) (core : Nat) (ps : List LatePut) : State :=
  (ps.flatMap (·.parts)).foldl (fun s x =>
    let s := dropLines s core (inLine (x.2.2.1 / 128))
    poisonBlock (poisonBlock s x.2.2.1) (x.2.2.1 + (x.2.1 - 1))) s

/-- The places that the results of the lanes take in an output stream, Lst·W bits for each lane in ascending order (R253); the
position advances at issue. -/
def reserveAppend (c : Iss) (s : State) (n : Nat) (lanes : List Nat) : Except Res (List (Nat × LatePut) × List TPart × State) :=
  let x := (s.getWarp c.wg c.w).stream n
  let sl := c.slot x.fs
  let rs := streamRanges x sl.W sl.L lanes
  let pss := rs.map (fun r => bitParts r.1 r.2.1 r.2.2)
  match c.access s rightW true pss.flatten with
  | .ok ts s =>
    .ok ((rs.zip (regroup (pss.map List.length) ts)).map (fun g => (g.1.1, latePut g.1.2.1 g.1.2.2 x.hint g.2)), ts,
      s.modWarp c.wg c.w (fun w => { w with s := w.s.put n (x.advance (sl.L * lanes.length)) }))
  | a => .error (a.stop c)

/-- The result of a lane: none when it is poisoned by an element taken from a stream, across lanes by any (R479).
[DEDUCED; log entry 132] -/
def Iss.result (c : Iss) (lane : Nat) (x : Option Nat) : Option Nat :=
  let bad := poisonedTakes c.strm
  if bad.contains lane || (c.op = 0x13 && bad ≠ []) then none else x

/-- Append every active lane's result to the output stream (R253); no value is a poisoned one. -/
def appendStream (c : Iss) (o : Out) (n : Nat) (vals : List (Nat × Option Nat)) : Res :=
  match reserveAppend c o.s n (vals.map (·.1)) with
  | .error r => r
  | .ok (ps, ts, s) =>
    match detGate c s ts 0 with
    | .other s => .other s
    | .ok s =>
      let r := vals.foldl (fun (a : State × Nat) e =>
        let mine := (ps.filter (fun x => x.1 = e.1)).map (·.2)
        match e.2 with
        | none => (poisonPuts a.1 c.core mine, a.2)
        | some x =>
          let q := fillPuts a.1 c.wg c.w c.core c.warp.nextIdx e.1 mine x
          (q.1, a.2 + q.2)) (s, 0)
      .out { o with s := r.1, awaits := o.awaits + r.2 }

/-! ### Destinations (R82, R208) -/

/-- The writes of results, one per active lane, to destination code `d`; `wide` results are 64 bits.  A `k` register
takes the value of the lowest active lane; `s` codes are the caller's. -/
def destWrites (w : Warp) (d : Nat) (wide : Bool) (vals : List (Nat × Nat)) : List RegWrite :=
  let lo (x : Nat) : Option Word := some (BitVec.ofNat 32 x)
  let hi (x : Nat) : Option Word := some (BitVec.ofNat 32 (x / 2 ^ 32))
  if isV d then
    vals.flatMap (fun e => .v e.1 (w.pos e.1 d) (lo e.2) :: (if wide then [.v e.1 (w.pos e.1 (d + 1)) (hi e.2)] else []))
  else if isK d then
    match vals with
    | [] => []
    | e :: _ => .k (d - 64) (lo e.2) :: (if wide then [.k (d - 63) (hi e.2)] else [])
  else if isP d then vals.map (fun e => .p e.1 (d - 112) (e.2 ≠ 0))
  else if isH d then vals.map (fun e => .h e.1 (d - 120) (some (BitVec.ofNat 64 e.2)))
  else []

/-- Lay results down in D: register writes through the pipeline, or elements appended to a stream. -/
def putD (c : Iss) (o : Out) (wide : Bool) (vals : List (Nat × Nat)) : Res :=
  let d := c.f.d.toNat
  if isS d then appendStream c o (d - 96) (vals.map (fun e => (e.1, c.result e.1 (some e.2))))
  else .out { o with writes := o.writes ++ destWrites c.warp d wide vals }

/-! ### Slot operands (R189, R232) -/

/-- An immediate of 20 bits as the register bits of a slot (R189). -/
def slotImm (n : Slot) (imm : Nat) : Nat :=
  let x := imm % 2 ^ 20
  let code : Nat :=
    if n.E = 0 then (if n.S = 1 then sextTo 20 (max n.W 20) x else x) % 2 ^ n.W
    else if n.W ≤ 20 then x % 2 ^ n.W
    else x * 2 ^ (n.W - 20)
  packE (List.replicate n.L code) n.W

/-- A source read in a slot. -/
def Iss.slotSrc (c : Iss) (code : Nat) (n : Slot) (lane : Nat) : Nat :=
  if code = 255 then slotImm n c.f.immN else c.read code false lane

/-- The destination slot FS and the source slot SS of R232. -/
def Iss.nd (c : Iss) : Slot := c.slot c.f.fs.toNat
def Iss.ns (c : Iss) : Slot := c.slot c.f.x3

/-- The source fields that an instruction reads in a slot, with the slot. -/
def slotOperands (c : Iss) (i : Instr) : List (Nat × Slot) :=
  let a := c.f.a.toNat
  let b := c.f.b.toNat
  match i with
  | .fclass _ | .fscale _ => [(a, c.nd)]
  | .fdot _ => [(a, c.ns), (b, c.ns), (c.f.c.toNat, c.nd)]
  | .fcvt _ | .fcvts _ | .f2i _ | .i2f _ | .funpack _ => [(a, c.ns)]
  | .fpack _ => [(a, c.ns), (b, c.ns)]
  | .redux _ | .scan _ => if c.f.mX % 8 < 6 then [] else [(a, c.nd)]
  | _ => if c.op = 0x10 || c.op = 0x12 then [(a, c.nd), (b, c.nd), (c.f.c.toNat, c.nd)] else []

/-- An immediate is too long for the slot that it is read in: bits above W of a code of at most 20 bits are reserved, E ≥ 1
(R3, R189). -/
def litBad (c : Iss) (i : Instr) : Bool :=
  (slotOperands c i).any (fun e => e.1 = 255 && e.2.valid && e.2.E ≠ 0 && e.2.W ≤ 20 && c.f.immN % 2 ^ 20 / 2 ^ e.2.W ≠ 0)

/-- The check of a slot that is read, or rounded into (R102, R109). -/
def slotFail (c : Iss) (n : Nat) (rounds : Bool) : List Fail :=
  if !(c.slot n).valid then [⟨0x0B, .slot, n, c.amask⟩]
  else if rounds && !(c.slot n).rndOk then [⟨0x0B, .slot, n + 8, c.amask⟩]
  else []

/-! ### The gate of an issue (R445), and the issue itself -/

/-- The failing encoding check that is reported, with a literal that is too long among them (R445 steps 2 and 4). -/
def encodingFail (c : Iss) (i : Instr) : Option (Nat × Fld) :=
  match encodingFailure i with
  | some (r, fld) => if litBad c i && (5 < r || (r = 5 && (fld = .fs || fld = .st))) then some (5, .imm) else some (r, fld)
  | none => if litBad c i then some (5, .imm) else none

/-- Encoding, privilege and declaration checks: steps 2 to 4 of R445. -/
def encodingGate (c : Iss) (i : Instr) : Option Trap :=
  let enc := encodingFail c i
  let level := if c.maint then 2 else if c.warp.modeS then 1 else 0
  let mk (e : Nat × Fld) : Trap := c.illegal ⟨e.1, e.2, fieldValue c.f e.2, c.amask⟩
  match enc with
  | some (2, fld) => some (mk (2, fld))
  | _ =>
    if level < privLevel i then
      some { cls := 2, reason := if c.op = 0x3C && (c.fn = 2 || c.fn = 3) then 2 else 1,
             info := c.op + c.fn * 2 ^ 8, fmask := c.amask }
    else
      match enc with
      | some e => some (mk e)
      | none => (declFail c i).map c.illegal

/-- A poisoned stream element taken by an instruction with no destination to mark (R479, R480), at the first element that its lane
took. [DEDUCED; log entry 132] -/
def streamPoison (c : Iss) (i : Instr) : Option Trap :=
  match shape i, c.strm.find? (fun e => e.2.2.2) with
  | some q, some e =>
    let x := (c.s0.getWarp c.wg c.w).stream e.1
    let sl := c.slot x.fs
    if q.d = .unused then
      some { cls := 7, reason := 2, info := x.bitAddr sl.W (x.at + sl.L * (c.act.idxOf e.2.1)) / 8
             fmask := laneSet (poisonedTakes c.strm) }
    else none
  | _, _ => none

/-- The wait of an instruction for its `h` sources, and the trap of one that may not be read (R58, R497, R499).  Observing their
completion drops the L1 (R168), once no write-back of it has to wait at its unit.  [all of the L1: log entry 56] -/
def handleGate (c : Iss) (i : Instr) : Gate :=
  let regs := blockingHandles i
  let hs := regs.flatMap (fun r => c.act.map (fun l => (l, (c.warp.getH l r).toNat)))
  match handleTrap c.s c.ctx hs with
  | some t => .trap t
  | none =>
    match regs.find? (fun r => c.act.any (fun l => handleState c.s c.ctx (c.warp.getH l r).toNat = .pending)) with
    | some r => .hold (parkOnHandle c r)
    | none =>
      if !hs.any (fun e => e.2 ≠ 0) then .go c
      else if writebackHeld c.s c.core (fun _ => true) then .hold (sendWritebacks (retry c) c.core (fun _ => true))
      else .go { c with s := dropAll c.s c.core }

/-- Everything from the encoding checks to the waits on handles. -/
def gate (c : Iss) (i : Instr) (b : Body) : Gate :=
  match encodingGate c i with
  | some t => .trap t
  | none =>
    if c.act = [] then .go c
    else
      match (stallTrap c i).orElse (fun _ => poisonTrap c i) with
      | some t => .trap t
      | none =>
        let fs := b.state c ++ streamFails c i
        match (if (streamFails c i).any (fun x => x.reason = 0x11) then .error (.later, c) else takeStreams c (inputStreams i)) with
        | .error (a, c') =>
          match lowestFail (b.vals c' ++ fs) with
          | some x => .trap (c.illegal x)
          | none => match a with
            | .trap t => .trap t
            | .held w => .hold (holdRemote c w)
            | _ => .hold (retry c)
        | .ok c' =>
          match (lowestFail (b.vals c' ++ fs)).map c.illegal with
          | some t => .trap t
          | none => match streamPoison c' i with
            | some t => .trap t
            | none => handleGate c' i

/-- A warp whose every live lane waits on a rejoin set (R74). -/
def rejoinDeadlock (w : Warp) : Bool :=
  w.live ≠ 0 &&
  (lanesOf w.live).all (fun l => match (w.lane l).hold with
    | some h => (match h.kind with | .rejoin _ => true | _ => false)
    | none => false)

/-- Rejoin deadlock (R458): the lowest set with arrivals lets its lanes go, and they trap with reason 0x02 of class
0x05.  Lanes with different resume PCs form one entry each, and the lowest of these traps.
[DEDUCED; log entry 52] -/
def settleDeadlock (s : State) (wg w : Nat) : State :=
  let x := s.getWarp wg w
  if !rejoinDeadlock x then s
  else
    match (List.range 16).find? (fun n => (x.j.get RjSet.init n).arr ≠ 0) with
    | none => s
    | some n =>
      let q := x.j.get RjSet.init n
      let sets := maskOf ((List.range 16).filter (fun m => (x.j.get RjSet.init m).arr ≠ 0))
      let ls := lanesOf q.arr
      let x := { x with j := x.j.put n { q with arr := 0 } }.releaseLanes ls
      let s := s.setWarp wg w x
      match x.table.find? (fun e => (e.mask &&& q.arr) ≠ 0) with
      | none => s
      | some e =>
        takeTrap s wg w e.pc e.mask e.pc.toNat
          { cls := 5, reason := 2, info := sets + n * 2 ^ 16, info2 := q.mem.toNat + q.arr.toNat * 2 ^ 32,
            fmask := e.mask } false

/-- A trap of the issuing entry, once the results it still waits for have come. [DEDUCED; log entry 49] -/
def trapNow (c : Iss) (t : Trap) (next : Bool) : State :=
  if c.warp.owes then retry c
  else takeTrap c.s0 c.wg c.w c.entry.pc c.amask (if next then c.cur.npc.toNat else c.entry.pc.toNat) t false

/-- Issue one instruction: check it, run its own part, and move on. -/
def issue (i : Instr) (b : Body) (s : State) : State :=
  match issuing s i with
  | none => s
  | some c =>
    let done :=
      match gate c i b with
      | .trap t => trapNow c t false
      | .hold s => s
      | .go c =>
        let dr := b.draws c
        if c.act = [] then commit c i b { s := c.s, draws := dr }
        else
          match b.run c with
          | .out o => commit c i b { o with draws := o.draws + dr }
          | .outThen o post => post (commit c i b { o with draws := o.draws + dr })
          | .trap t next => trapNow c t next
          | .wait => retry c
          | .other s => s
    settleDeadlock done c.wg c.w

end Sys2Proof.Machine
end

