-- ==== Sys2Proof/Machine/Integer.lean ====
section
/-!
DEFINITION. Integer, logical, move, predicate, shift and bit-field instructions: OP 0x02, 0x03, 0x04 and 0x05 (R207 to
R221).  Each is a function of one lane's operands, laid down by `putD`.
-/

namespace Sys2Proof.Machine

open Sys2Proof

/-- An instruction that computes one value for each active lane; `wide` results are 64 bits. -/
def laneBody (wide : Iss → Bool) (f : Iss → Nat → Nat) : Body where
  run := fun c => putD c { s := c.s } (wide c) (c.act.map (fun l => (l, f c l)))

/-- The same, of variable latency between the given bounds. -/
def laneBodyV (wide : Iss → Bool) (least span : Iss → Nat) (f : Iss → Nat → Nat) : Body where
  run := fun c => putD c { s := c.s, least := least c, span := some (span c) } (wide c) (c.act.map (fun l => (l, f c l)))

/-- w of R208. -/
def Iss.width (c : Iss) : Nat := if c.f.mW then 64 else 32
/-- The modifier W. -/
def Iss.W (c : Iss) : Bool := c.f.mW

/-- A w-bit register value read as an integer under U (R208). -/
def readInt (w : Nat) (u : Bool) (x : Nat) : Int := if u then ((x % 2 ^ w : Nat) : Int) else signed w x

/-- Writing an exact integer in w bits (R210). -/
def writeInt (w : Nat) (u sat : Bool) (x : Int) : Nat :=
  if sat then
    wrap w (if u then clampInt 0 ((2 ^ w : Nat) - 1 : Int) x
            else clampInt (-(2 ^ (w - 1) : Nat)) ((2 ^ (w - 1) : Nat) - 1 : Int) x)
  else wrap w x

/-- A, B and C as integers of the instruction's width and signedness. -/
def Iss.ia (c : Iss) (l : Nat) : Int := readInt c.width c.f.mU (c.a c.W l)
def Iss.ib (c : Iss) (l : Nat) : Int := readInt c.width c.f.mU (c.b c.W l)
def Iss.ic (c : Iss) (l : Nat) : Int := readInt c.width c.f.mU (c.c c.W l)

/-- An instruction of R211: an exact integer, written by R210. -/
def intBody (x : Iss → Nat → Int) : Body :=
  laneBody Iss.W (fun c l => writeInt c.width c.f.mU c.f.mSat (x c l))

/-- IADD (R211): a + b. -/
def execIadd (f : Fields) (s : State) : Host.Outcome State Fault Refusal :=
  .next (issue (.iadd f) (intBody (fun c l => c.ia l + c.ib l)) s)
/-- ISUM3 (R211): a + b + c. -/
def execIsum3 (f : Fields) (s : State) : Host.Outcome State Fault Refusal :=
  .next (issue (.isum3 f) (intBody (fun c l => c.ia l + c.ib l + c.ic l)) s)
/-- ISUB (R211): a − b. -/
def execIsub (f : Fields) (s : State) : Host.Outcome State Fault Refusal :=
  .next (issue (.isub f) (intBody (fun c l => c.ia l - c.ib l)) s)
/-- INEG (R211): −a. -/
def execIneg (f : Fields) (s : State) : Host.Outcome State Fault Refusal :=
  .next (issue (.ineg f) (intBody (fun c l => -c.ia l)) s)
/-- IABS (R211): |a|. -/
def execIabs (f : Fields) (s : State) : Host.Outcome State Fault Refusal :=
  .next (issue (.iabs f) (intBody (fun c l => ((c.ia l).natAbs : Int))) s)
/-- IMIN (R211). -/
def execImin (f : Fields) (s : State) : Host.Outcome State Fault Refusal :=
  .next (issue (.imin f) (intBody (fun c l => min (c.ia l) (c.ib l))) s)
/-- IMAX (R211). -/
def execImax (f : Fields) (s : State) : Host.Outcome State Fault Refusal :=
  .next (issue (.imax f) (intBody (fun c l => max (c.ia l) (c.ib l))) s)

/-- ISAT on a w-bit value (R214). -/
def isatVal (w : Nat) (u : Bool) (a n : Nat) : Nat :=
  let k := n % 2 ^ 7
  if k = 0 then 0
  else if w ≤ k then a % 2 ^ w
  else
    let x := readInt w u a
    wrap w (if u then clampInt 0 ((2 ^ k : Nat) - 1 : Int) x
            else clampInt (-(2 ^ (k - 1) : Nat)) ((2 ^ (k - 1) : Nat) - 1 : Int) x)

/-- ISAT (R214). -/
def execIsat (f : Fields) (s : State) : Host.Outcome State Fault Refusal :=
  .next (issue (.isat f) (laneBody Iss.W (fun c l => isatVal c.width c.f.mU (c.a c.W l) (c.b false l))) s)

/-- The comparison of ICMP (R212). -/
def icmpVal (cc : Nat) (a b : Int) : Bool :=
  match cc with
  | 0 => a = b
  | 1 => a ≠ b
  | 2 => a < b
  | 3 => a ≤ b
  | 4 => b < a
  | _ => b ≤ a

/-- ICMP (R212). -/
def execIcmp (f : Fields) (s : State) : Host.Outcome State Fault Refusal :=
  .next (issue (.icmp f) (laneBody (fun _ => false) (fun c l =>
    let t := icmpVal (c.f.mX % 8) (c.ia l) (c.ib l)
    let p := c.read c.f.c.toNat false l ≠ 0
    b2n (match c.f.mX / 8 with
      | 1 => t && p
      | 2 => t || p
      | _ => t))) s)

/-- SEL (R211): p ? a : b. -/
def execSel (f : Fields) (s : State) : Host.Outcome State Fault Refusal :=
  .next (issue (.sel f) (laneBody Iss.W (fun c l =>
    if c.read c.f.c.toNat false l ≠ 0 then c.a c.W l else c.b c.W l)) s)

/-- LEA (R213): a + n′·2^SH without saturation. -/
def execLea (f : Fields) (s : State) : Host.Outcome State Fault Refusal :=
  .next (issue (.lea f) (laneBody Iss.W (fun c l =>
    wrap c.width ((c.a c.W l : Int) + readInt 32 c.f.mU (c.b false l) * (2 ^ c.f.mX : Nat)))) s)

/-- IMUL (R211): a·b. -/
def execImul (f : Fields) (s : State) : Host.Outcome State Fault Refusal :=
  .next (issue (.imul f) (intBody (fun c l => c.ia l * c.ib l)) s)
/-- IMULH (R211): the high half of a·b. -/
def execImulh (f : Fields) (s : State) : Host.Outcome State Fault Refusal :=
  .next (issue (.imulh f) (laneBody Iss.W (fun c l =>
    wrap c.width (c.ia l * c.ib l / (2 ^ c.width : Nat)))) s)
/-- IMAD (R211): a·b + c. -/
def execImad (f : Fields) (s : State) : Host.Outcome State Fault Refusal :=
  .next (issue (.imad f) (intBody (fun c l => c.ia l * c.ib l + c.ic l)) s)
/-- IMADW (R215): 32-bit a and b, 64-bit c and d. -/
def execImadw (f : Fields) (s : State) : Host.Outcome State Fault Refusal :=
  .next (issue (.imadw f) (laneBody (fun _ => true) (fun c l =>
    writeInt 64 c.f.mU c.f.mSat
      (readInt 32 c.f.mU (c.a false l) * readInt 32 c.f.mU (c.b false l) + readInt 64 c.f.mU (c.c true l)))) s)

/-- The quotient of IDIV (R216). -/
def idivVal (w : Nat) (u : Bool) (a b : Nat) : Nat :=
  let x := readInt w u a
  let y := readInt w u b
  if y = 0 then 2 ^ w - 1 else wrap w (x.tdiv y)
/-- The remainder of IREM (R216). -/
def iremVal (w : Nat) (u : Bool) (a b : Nat) : Nat :=
  let x := readInt w u a
  let y := readInt w u b
  if y = 0 then a % 2 ^ w else wrap w (x - y * x.tdiv y)

/-- Cycles of a division (R216): 18 to 34, or 34 to 66 for 64 bits. -/
def divLeast (c : Iss) : Nat := if c.W then 34 else 18
def divSpan (c : Iss) : Nat := if c.W then 32 else 16

/-- IDIV (R216). -/
def execIdiv (f : Fields) (s : State) : Host.Outcome State Fault Refusal :=
  .next (issue (.idiv f) (laneBodyV Iss.W divLeast divSpan
    (fun c l => idivVal c.width c.f.mU (c.a c.W l) (c.b c.W l))) s)
/-- IREM (R216). -/
def execIrem (f : Fields) (s : State) : Host.Outcome State Fault Refusal :=
  .next (issue (.irem f) (laneBodyV Iss.W divLeast divSpan
    (fun c l => iremVal c.width c.f.mU (c.a c.W l) (c.b c.W l))) s)

/-! ### OP 0x04 (R217 to R219) -/

/-- AND (R217). -/
def execAnd (f : Fields) (s : State) : Host.Outcome State Fault Refusal :=
  .next (issue (.and f) (laneBody Iss.W (fun c l => c.a c.W l &&& c.b c.W l)) s)
/-- OR (R217). -/
def execOr (f : Fields) (s : State) : Host.Outcome State Fault Refusal :=
  .next (issue (.or f) (laneBody Iss.W (fun c l => c.a c.W l ||| c.b c.W l)) s)
/-- XOR (R217). -/
def execXor (f : Fields) (s : State) : Host.Outcome State Fault Refusal :=
  .next (issue (.xor f) (laneBody Iss.W (fun c l => c.a c.W l ^^^ c.b c.W l)) s)
/-- NOT (R217). -/
def execNot (f : Fields) (s : State) : Host.Outcome State Fault Refusal :=
  .next (issue (.not f) (laneBody Iss.W (fun c l => 2 ^ c.width - 1 - c.a c.W l % 2 ^ c.width)) s)

/-- A three-input table looked up in each of 32 bit positions (R217). -/
def blutVal (lut a b c : Nat) : Nat :=
  maskOf ((List.range 32).filter (fun i => bitB lut (bitN a i + 2 * bitN b i + 4 * bitN c i)))

/-- BLUT (R217). -/
def execBlut (f : Fields) (s : State) : Host.Outcome State Fault Refusal :=
  .next (issue (.blut f) (laneBody (fun _ => false) (fun c l =>
    blutVal (bits c.f.immN 20 8) (c.a false l) (c.b false l) (c.c false l))) s)

/-- PLUT (R219). -/
def execPlut (f : Fields) (s : State) : Host.Outcome State Fault Refusal :=
  .next (issue (.plut f) (laneBody (fun _ => false) (fun c l =>
    bitN (bits c.f.immN 20 8)
      (c.read c.f.a.toNat false l + 2 * c.read c.f.b.toNat false l + 4 * c.read c.f.c.toNat false l))) s)

/-- PMOV.get (R219): the predicates of the lane, bit 0 always 1. -/
def execPmovGet (f : Fields) (s : State) : Host.Outcome State Fault Refusal :=
  .next (issue (.pmovGet f) (laneBody (fun _ => false) (fun c l =>
    maskOf ((List.range 8).filter (fun i => c.warp.getP l i)))) s)

/-- PMOV.set (R219): for each i of the mask, p_i := a[i]. -/
def execPmovSet (f : Fields) (s : State) : Host.Outcome State Fault Refusal :=
  .next (issue (.pmovSet f)
    { run := fun c => .out { s := c.s, writes := c.act.flatMap (fun l =>
        ((List.range 8).filter (fun i => 1 ≤ i && bitB (bits c.f.immN 20 8) i)).map (fun i =>
          .p l i (bitB (c.read c.f.a.toNat false l) i))) } } s)

/-- MOV (R218): a copy; an `h` source is not waited for (R58). -/
def execMov (f : Fields) (s : State) : Host.Outcome State Fault Refusal :=
  .next (issue (.mov f) (laneBody Iss.W (fun c l => c.a c.W l)) s)
/-- MOVI (R218): IMM, sign-extended from 28 bits. -/
def execMovi (f : Fields) (s : State) : Host.Outcome State Fault Refusal :=
  .next (issue (.movi f) (laneBody (fun _ => false) (fun c _ => sextTo 28 32 c.f.immN)) s)
/-- MOVK (R218): one half-word of a is replaced. -/
def execMovk (f : Fields) (s : State) : Host.Outcome State Fault Refusal :=
  .next (issue (.movk f) (laneBody Iss.W (fun c l =>
    setBits (c.a c.W l) (16 * (c.f.mX % 4)) 16 (c.b false l))) s)

/-! ### OP 0x05 (R220, R221) -/

/-- SHL (R220). -/
def execShl (f : Fields) (s : State) : Host.Outcome State Fault Refusal :=
  .next (issue (.shl f) (laneBody Iss.W (fun c l =>
    let n := c.b false l
    if c.width ≤ n then 0 else c.a c.W l * 2 ^ n % 2 ^ c.width)) s)
/-- SHR (R220). -/
def execShr (f : Fields) (s : State) : Host.Outcome State Fault Refusal :=
  .next (issue (.shr f) (laneBody Iss.W (fun c l =>
    let n := c.b false l
    if c.width ≤ n then 0 else c.a c.W l / 2 ^ n)) s)
/-- SAR (R220). -/
def execSar (f : Fields) (s : State) : Host.Outcome State Fault Refusal :=
  .next (issue (.sar f) (laneBody Iss.W (fun c l =>
    wrap c.width (signed c.width (c.a c.W l) / (2 ^ min (c.b false l) c.width : Nat)))) s)
/-- FSHL (R220). -/
def execFshl (f : Fields) (s : State) : Host.Outcome State Fault Refusal :=
  .next (issue (.fshl f) (laneBody Iss.W (fun c l =>
    let t := c.a c.W l * 2 ^ c.width + c.b c.W l
    t * 2 ^ min (c.c false l) c.width / 2 ^ c.width % 2 ^ c.width)) s)
/-- FSHR (R220). -/
def execFshr (f : Fields) (s : State) : Host.Outcome State Fault Refusal :=
  .next (issue (.fshr f) (laneBody Iss.W (fun c l =>
    let t := c.b c.W l * 2 ^ c.width + c.a c.W l
    t / 2 ^ min (c.c false l) c.width % 2 ^ c.width)) s)

/-- BFE on a w-bit value (R221). -/
def bfeVal (w : Nat) (u : Bool) (a fd : Nat) : Nat :=
  let p := fd % 2 ^ 8
  let k := min (bits fd 8 8) w
  if k = 0 then 0
  else
    let v := wrap k (readInt w u a / (2 ^ p : Nat))
    if u then v else wrap w (signed k v)
/-- BFI (R221). -/
def bfiVal (w a fd t : Nat) : Nat :=
  let p := fd % 2 ^ 8
  let k := min (bits fd 8 8) w
  if w ≤ p then t % 2 ^ w else setBits (t % 2 ^ w) p (min k (w - p)) a

/-- BFE (R221). -/
def execBfe (f : Fields) (s : State) : Host.Outcome State Fault Refusal :=
  .next (issue (.bfe f) (laneBody Iss.W (fun c l => bfeVal c.width c.f.mU (c.a c.W l) (c.b false l))) s)
/-- BFI (R221). -/
def execBfi (f : Fields) (s : State) : Host.Outcome State Fault Refusal :=
  .next (issue (.bfi f) (laneBody Iss.W (fun c l => bfiVal c.width (c.a c.W l) (c.b false l) (c.c c.W l))) s)
/-- BREV (R220). -/
def execBrev (f : Fields) (s : State) : Host.Outcome State Fault Refusal :=
  .next (issue (.brev f) (laneBody Iss.W (fun c l =>
    maskOf ((List.range c.width).filter (fun i => bitB (c.a c.W l) (c.width - 1 - i))))) s)
/-- POPC (R220). -/
def execPopc (f : Fields) (s : State) : Host.Outcome State Fault Refusal :=
  .next (issue (.popc f) (laneBody (fun _ => false) (fun c l => popCount c.width (c.a c.W l))) s)
/-- CLZ (R220). -/
def execClz (f : Fields) (s : State) : Host.Outcome State Fault Refusal :=
  .next (issue (.clz f) (laneBody (fun _ => false) (fun c l =>
    let a := c.a c.W l
    if a = 0 then c.width else c.width - 1 - Nat.log2 a)) s)
/-- CTZ (R220). -/
def execCtz (f : Fields) (s : State) : Host.Outcome State Fault Refusal :=
  .next (issue (.ctz f) (laneBody (fun _ => false) (fun c l =>
    (lowestBit c.width (c.a c.W l)).getD c.width)) s)

/-- SEXT and ZEXT (R220). -/
def extVal (w : Nat) (sign : Bool) (a n : Nat) : Nat :=
  let k := n % 2 ^ 7
  if k = 0 then 0 else if w ≤ k then a % 2 ^ w else if sign then sextTo k w a else a % 2 ^ k

/-- SEXT (R220). -/
def execSext (f : Fields) (s : State) : Host.Outcome State Fault Refusal :=
  .next (issue (.sext f) (laneBody Iss.W (fun c l => extVal c.width true (c.a c.W l) (c.b false l))) s)
/-- ZEXT (R220). -/
def execZext (f : Fields) (s : State) : Host.Outcome State Fault Refusal :=
  .next (issue (.zext f) (laneBody Iss.W (fun c l => extVal c.width false (c.a c.W l) (c.b false l))) s)

end Sys2Proof.Machine
end

