-- ==== Sys2Proof/Machine/Rejoin.lean ====
section
/-!
DEFINITION. Rejoin sets (OP 0x01, R64 to R74, R230), reports that trap a warp later (R456, R498), and what they share
with the control instructions.
-/

namespace Sys2Proof.Machine

open Sys2Proof

/-- The rejoin set `n` of a warp. -/
def Warp.rj (w : Warp) (n : Nat) : RjSet := w.j.get RjSet.init n
def Warp.setRj (w : Warp) (n : Nat) (x : RjSet) : Warp := { w with j := w.j.set RjSet.init n x }
/-- The set index of IMM[23:20] (R230). -/
def Iss.set (c : Iss) : Nat := bits c.f.immN 20 4

/-- try_release (R67). -/
def tryRelease (w : Warp) (n : Nat) : Warp :=
  let q := w.rj n
  if q.arr ≠ 0 && q.arr = q.mem then (w.setRj n { q with arr := 0 }).releaseLanes (lanesOf q.arr) else w

/-- The call depth of a lane. -/
def Warp.depth (w : Warp) (l : Nat) : Nat := (w.lane l).depth

/-- Change the issuing warp. -/
def Iss.modWarp (c : Iss) (g : Warp → Warp) : State := c.s.modWarp c.wg c.w g

/-- RJOPEN with the mask given for l0's operand (R66). -/
def rjopenBody (mask : Iss → LaneSet) : Body where
  state := fun c =>
    let bad := c.act.filter (fun l => c.warp.depth l ≠ c.warp.depth c.l0)
    if (c.warp.rj c.set).isOpen then [c.badState 0x0E c.set c.amask]
    else if bad ≠ [] then [c.badState 0x0E c.set (laneSet bad)] else []
  run := fun c => .out { s := c.modWarp (fun w => w.setRj c.set
    { mem := mask c, arr := 0, depth := c.warp.depth c.l0, isOpen := true, orph := false }) }

/-- RJOPEN (R66). -/
def execRjopen (f : Fields) (s : State) : Host.Outcome State Fault Refusal :=
  .next (issue (.rjopen f) (rjopenBody Iss.amask) s)
/-- RJOPEN with a mask operand (R66). -/
def execRjopenMask (f : Fields) (s : State) : Host.Outcome State Fault Refusal :=
  .next (issue (.rjopenMask f) (rjopenBody (fun c => c.amask &&& BitVec.ofNat 32 (c.a false c.l0))) s)

/-- The set is open, or the use is illegal. -/
def needOpen (c : Iss) : List Fail := if (c.warp.rj c.set).isOpen then [] else [c.badState 0x0E c.set c.amask]

/-- RJJOIN (R66). -/
def execRjjoin (f : Fields) (s : State) : Host.Outcome State Fault Refusal :=
  .next (issue (.rjjoin f)
    { state := fun c =>
        let bad := c.act.filter (fun l => c.warp.depth l < (c.warp.rj c.set).depth)
        needOpen c ++ (if bad ≠ [] then [c.badState 0x0E c.set (laneSet bad)] else [])
      run := fun c => .out { s := c.modWarp (fun w =>
        w.setRj c.set { w.rj c.set with mem := (w.rj c.set).mem ||| c.amask }) } } s)

/-- RJQUIT (R66). -/
def execRjquit (f : Fields) (s : State) : Host.Outcome State Fault Refusal :=
  .next (issue (.rjquit f)
    { state := needOpen
      run := fun c => .outThen { s := c.modWarp (fun w =>
          w.setRj c.set { w.rj c.set with mem := (w.rj c.set).mem &&& ~~~c.amask }) }
        (fun s => s.modWarp c.wg c.w (fun w => tryRelease w c.set)) } s)

/-- RJWAIT (R66): the active members park; if that completes the set, all are released in this cycle. -/
def execRjwait (f : Fields) (s : State) : Host.Outcome State Fault Refusal :=
  .next (issue (.rjwait f)
    { state := needOpen
      run := fun c =>
        let ws := c.amask &&& (c.warp.rj c.set).mem
        .outThen
          { s := c.modWarp (fun w => (w.setRj c.set { w.rj c.set with arr := (w.rj c.set).arr ||| ws }).park
              (lanesOf ws) (.rejoin c.set) c.cur.npc 0)
            moves := (lanesOf ws).map (fun l => (l, none)) }
          (fun s => s.modWarp c.wg c.w (fun w => tryRelease w c.set)) } s)

/-- RJTEST (R66). -/
def execRjtest (f : Fields) (s : State) : Host.Outcome State Fault Refusal :=
  .next (issue (.rjtest f) (laneBody (fun _ => false) (fun c _ =>
    let q := c.warp.rj c.set
    b2n (q.isOpen && (q.mem &&& ~~~q.arr &&& ~~~c.amask) = 0))) s)
/-- RJMASK (R66). -/
def execRjmask (f : Fields) (s : State) : Host.Outcome State Fault Refusal :=
  .next (issue (.rjmask f) (laneBody (fun _ => false) (fun c _ => (c.warp.rj c.set).mem.toNat)) s)
/-- RJCLOSE (R66). -/
def execRjclose (f : Fields) (s : State) : Host.Outcome State Fault Refusal :=
  .next (issue (.rjclose f)
    { state := fun c => if (c.warp.rj c.set).arr ≠ 0 then [c.badState 0x0E c.set c.amask] else []
      run := fun c => .out { s := c.modWarp (fun w => w.setRj c.set RjSet.init) } } s)

/-! ### Reports (R429, R456, R483, R487, R498, R501 to R503) -/

/-- The entry of a warp that a report would trap now: with lanes named, the one that holds the lowest of them that
stands in the table; otherwise the entry with the lowest PC (R498). -/
def reportEntry (w : Warp) (r : Report) : Option Entry :=
  if r.lanes = 0 then w.table.head?
  else (lanesOf r.lanes).findSome? (fun l => w.table.find? (fun e => e.mask.getLsbD l))

/-- A report can trap: its entry is there, and a held one waits for mode P (R429). -/
def reportReady (w : Warp) (r : Report) : Bool := (reportEntry w r).isSome && !(r.held && w.modeS)

/-- The earlier issued of two reports; the first, where neither is (R429). -/
def Report.earlier (a : Option Report) (r : Report) : Option Report :=
  match a with
  | some x => if r.order < x.order then some r else some x
  | none => some r

/-- The earliest issued report of a warp that a test admits and that can trap (R429). -/
def nextReport (w : Warp) (p : Report → Bool) : Option Report :=
  (w.reports.filter (fun r => p r && reportReady w r)).foldl Report.earlier none

/-- Take the trap of the earliest report of a warp that the test admits (R456, R498): RPC is its entry's PC.  A workgroup whose buffer
is full is held at the write of the frame (R177), and the report stays. -/
def deliverReport (s : State) (wg w : Nat) (p : Report → Bool) : State :=
  let x := s.getWarp wg w
  match nextReport x p with
  | none => s
  | some r =>
    match reportEntry x r with
    | none => s
    | some e =>
      if x.owes then s
      else
        let s := takeTrap (s.setWarp wg w { x with reports := x.reports.erase r }) wg w e.pc (if r.amask = 0 then e.mask else r.amask) e.pc.toNat
          { cls := r.cause / 256, reason := r.cause % 256, info := r.info, info2 := r.info2,
            fmask := if r.fmask = 0 then e.mask else r.fmask } r.held
        if (s.getWg wg).det.held then s.modWarp wg w (fun x => { x with reports := r :: x.reports }) else s

/-- An orphan report (R456). -/
def isOrphan (r : Report) : Bool := r.cause = 0x501

/-- ORPHANED_SET_TRAP (R456). -/
def execOrphanedSetTrap (wg warp : Nat) (s : State) : Host.Outcome State Fault Refusal :=
  .next (deliverReport s wg warp isOrphan)

/-- The warp to which the engine's reports of a warp without a live lane go: the lowest that has one (R498). -/
def reportHeir (s : State) (wg w : Nat) : Option Nat :=
  let x := s.getWarp wg w
  if x.live = 0 && x.reports.any (·.engine) then (s.wgWarps wg).find? (fun v => (s.getWarp wg v).live ≠ 0) else none

/-- REPORTED_TRAP_DELIVERY (R498), and the other traps a warp takes in its next issue cycle (R428, R483, R501 to R503). -/
def execReportedTrapDelivery (wg warp : Nat) (s : State) : Host.Outcome State Fault Refusal :=
  .next (match reportHeir s wg warp with
    | some v =>
      let rs := (s.getWarp wg warp).reports
      (s.modWarp wg warp (fun x => { x with reports := rs.filter (fun r => !r.engine) })).modWarp wg v
        (fun x => { x with reports := x.reports ++ (rs.filter (·.engine)).map (fun r => { r with held := x.modeS }) })
    | none => deliverReport s wg warp (fun r => !isOrphan r))

end Sys2Proof.Machine
end

