-- ==== Sys2Proof/Machine/Control.lean ====
section
/-!
DEFINITION. Control instructions: OP 0x00 (R222 to R229), with calls and returns (R51 to R55, R402), EXIT (R38, R71,
R79), and the ends of sleep (R228).
-/

namespace Sys2Proof.Machine

open Sys2Proof

/-- NOP (R222). -/
def execNop (f : Fields) (s : State) : Host.Outcome State Fault Refusal :=
  .next (issue (.nop f) { run := fun c => .out { s := c.s } } s)

/-- The PC a transfer to target base `t` reaches (R193, R203). -/
def Iss.entryPc (c : Iss) (t : Int) : Nat := wrap 80 (if c.qpf then t else t + 4)

/-- BRA (R223). -/
def execBra (f : Fields) (s : State) : Host.Outcome State Fault Refusal :=
  .next (issue (.bra f)
    { run := fun c => .out { s := c.s, moves := c.act.map (fun l =>
        (l, some (c.entryPc (c.direct (signed 28 c.f.immN))))) } } s)

/-- A misaligned indirect target (R224, R450): the lanes that fail, with the lowest lane's value. -/
def targetFails (c : Iss) : List Fail :=
  let m := if c.qpf then 16 else 64
  match c.act.filter (fun l => c.known c.f.a.toNat && c.a false l % m ≠ 0) with
  | [] => []
  | l :: ls => [⟨4, .value, c.a false l, laneSet (l :: ls)⟩]

/-- A trap of class 0x05 or 0x04 for the lanes of a list, if there are any. -/
def laneTrap (cls reason info2 : Nat) (info : Nat → Nat) (ls : List Nat) : Option Trap :=
  match ls with
  | [] => none
  | l :: _ => some { cls := cls, reason := reason, info := info l, info2 := info2, fmask := laneSet ls }

/-- The first trap of a list of checks. -/
def firstTrap (ts : List (Option Trap)) : Option Trap := ts.findSome? id

/-- Lanes whose indirect target lies at or beyond the section (R461). -/
def beyondSection (c : Iss) : List Nat := c.act.filter (fun l => c.sect.2 ≤ c.a false l)

/-- BRX (R224). -/
def execBrx (f : Fields) (s : State) : Host.Outcome State Fault Refusal :=
  .next (issue (.brx f)
    { vals := targetFails
      run := fun c =>
        match laneTrap 5 8 c.sect.2 (fun l => c.a false l) (beyondSection c) with
        | some t => .trap t false
        | none => .out { s := c.s, moves := c.act.map (fun l =>
            (l, some (c.entryPc ((c.sect.1 : Int) + c.a false l)))) } } s)

/-- A lane needs a spill at a call with frame f (R52). -/
def needsSpill (c : Iss) (f l : Nat) : Bool :=
  (c.warp.lane l).rb + 16 * c.lr.stack < (c.warp.lane l).fp + f + 64

/-- The call of R52 to each active lane's section-relative or absolute target: checks of R455 in order, then the
effect. `tgt` is a lane's target base, `off` its section offset. -/
def callRun (c : Iss) (indirect : Bool) (tgt : Nat → Int) : Res :=
  let off (l : Nat) : Nat := (tgt l - c.sect.1).toNat
  let f (l : Nat) : Nat := 16 * c.frameCode (off l)
  let deep := c.act.filter (fun l => c.warp.depth l = 65535)
  let wild := if indirect then
      c.act.filter (fun l => c.sect.2 ≤ c.a false l || (c.qpf && (c.funcs.find? (fun e => e.1 = off l)).isNone))
    else []
  let spill := c.act.filter (fun l => needsSpill c (f l) l)
  let noRoom := spill.filter (fun l => c.lr.spsize / 2048 ≤ (c.warp.lane l).rb / 16)
  match firstTrap [laneTrap 5 6 0 (fun _ => 65535) deep, laneTrap 5 8 c.sect.2 (fun l => c.a false l) wild,
                   laneTrap 5 7 c.lr.spsize (fun l => (c.warp.lane l).rb / 16) noRoom,
                   laneTrap 4 1 0 (fun _ => 0) spill] with
  | some t => .trap t false
  | none =>
    let link (l : Nat) : Word :=
      BitVec.ofNat 32 ((f l / 16) * 2 ^ 28 + (c.cur.npc.toNat - c.sect.1) % 2 ^ 28)
    .out { s := c.modWarp (fun w => c.act.foldl (fun w l =>
             w.modLane l (fun x => { x with fp := x.fp + f l, depth := x.depth + 1 })) w)
           writes := c.act.map (fun l => .v l ((c.warp.lane l).fp + f l + 63) (some (link l)))
           moves := c.act.map (fun l => (l, some (c.entryPc (tgt l)))) }

/-- CALL (R225). -/
def execCall (f : Fields) (s : State) : Host.Outcome State Fault Refusal :=
  .next (issue (.call f) { run := fun c => callRun c false (fun _ => c.direct (signed 26 c.f.immN)) } s)
/-- CALLX (R225). -/
def execCallx (f : Fields) (s : State) : Host.Outcome State Fault Refusal :=
  .next (issue (.callx f)
    { vals := targetFails, run := fun c => callRun c true (fun l => (c.sect.1 : Int) + c.a false l) } s)

/-- The orphan report of a RET that has brought lanes to lower depths (R70, R456): sets newly orphaned gain ORPH.
[A set already orphaned is not reported again; DEDUCED, log entry 58] -/
def orphan (w : Warp) (act : List Nat) : Warp :=
  let out (n l : Nat) : Bool :=
    let q := w.rj n
    q.isOpen && !q.orph && q.mem.getLsbD l && w.depth l < q.depth
  let sets := (List.range 16).filter (fun n => act.any (out n))
  let lanes := act.filter (fun l => sets.any (fun n => out n l))
  match lanes with
  | [] => w
  | l :: _ =>
    let w' := sets.foldl (fun w n => w.setRj n { w.rj n with orph := true }) w
    w'.report { w'.newReport 0x501 (maskOf sets) (w.depth l) (laneSet lanes) (laneSet [l]) (laneSet act) with held := false }

/-- RET (R53, R226). -/
def execRet (f : Fields) (s : State) : Host.Outcome State Fault Refusal :=
  .next (issue (.ret f)
    { run := fun c =>
        let link (l : Nat) : Nat := (c.warp.getV l (c.warp.pos l 63)).toNat
        let f (l : Nat) : Nat := 16 * bits (link l) 28 2
        let offs (l : Nat) : Nat := link l % 2 ^ 28
        let x (l : Nat) : Lane := c.warp.lane l
        let zero := c.act.filter (fun l => (x l).depth = 0)
        let bad := c.act.filter (fun l => bits (link l) 30 2 ≠ 0 || c.sect.2 ≤ offs l || (x l).fp < f l)
        let fill := c.act.filter (fun l => (x l).fp < (x l).rb + f l)
        match firstTrap [laneTrap 5 3 0 (fun _ => 0) zero, laneTrap 5 4 0 link bad, laneTrap 4 2 0 (fun _ => 0) fill] with
        | some t => .trap t false
        | none =>
          .out { s := c.modWarp (fun w => orphan (c.act.foldl (fun w l =>
                   w.modLane l (fun y => { y with fp := y.fp - f l, depth := y.depth - 1 })) w) c.act)
                 moves := c.act.map (fun l => (l, some ((c.sect.1 + offs l) % 2 ^ 80))) } } s)

/-! ### EXIT -/

/-- The signing register `n`. -/
def Wg.sign (g : Wg) (n : Nat) : SignReg := g.g.get SignReg.init n

/-- Release the signers of a round (R77, R79, R502), with the report that each of their warps then traps with, if any:
of the lanes of a warp, those of the lowest resume PC. -/
def releaseSigners (s : State) (wg : Nat) (signers : List (Nat × Nat × Nat)) (cause info : Nat) : State :=
  (s.wgWarps wg).foldl (fun s w =>
    let ls := (signers.filter (fun e => e.1 = w)).map (fun e => e.2.1)
    if ls = [] then s
    else s.modWarp wg w (fun x =>
      let pcs := ls.map (fun l => ((x.lane l).hold.map (fun h => h.rpc.toNat)).getD 0)
      let low := pcs.foldl min (pcs.headD 0)
      let grp := laneSet (ls.filter (fun l => ((x.lane l).hold.map (fun h => h.rpc.toNat)).getD 0 = low))
      let x := x.releaseLanes ls
      if cause = 0 then x else x.report (x.newReport cause info 0 grp grp grp))) s

/-- Let the operations of released signers come to their end (R77). -/
def settleSigners (s : State) (wg : Nat) (signers : List (Nat × Nat × Nat)) : State :=
  (s.wgWarps wg).foldl (fun s w =>
    let ls := laneSet ((signers.filter (fun e => e.1 = w)).map (fun e => e.2.1))
    if ls = 0 then s
    else s.modWarp wg w (fun x => { x with pend := x.pend.map (fun b =>
      if b.op = 0x31 && parkedDue ≤ b.due && (b.lanes &&& ls) ≠ 0 then { b with due := s.now } else b) })) s

/-- End every signing round of a workgroup that can no longer complete (R79, R501). -/
def deadRounds (s : State) (wg : Nat) : State :=
  (List.range 8).foldl (fun s n =>
    let r := (s.getWg wg).sign n
    if r.sgn ≠ 0 && liveThreads s wg - r.sgn < r.decl - r.sgn then
      let s := s.modWg wg (fun g => { g with g := g.g.put n { r with sgn := 0, latch := none, signers := [] } })
      releaseSigners (settleSigners s wg r.signers) wg r.signers 0x904 (n + r.decl * 2 ^ 16 + r.sgn * 2 ^ 32)
    else s) s

/-- EXIT of the lanes, as to their warp: they are gone, and they quit every open set (R71). -/
def exitLanes (w : Warp) (ls : List Nat) : Warp :=
  let w := ls.foldl (fun w l => w.modLane l (fun x => { x with exited := true, resv := none, sinceLR := 0 })) w
  (List.range 16).foldl (fun w n =>
    let q := w.rj n
    if q.isOpen && (q.mem &&& laneSet ls) ≠ 0 then tryRelease (w.setRj n { q with mem := q.mem &&& ~~~laneSet ls }) n
    else w) w

/-- EXIT (R38, R71, R226). -/
def execExit (f : Fields) (s : State) : Host.Outcome State Fault Refusal :=
  .next (issue (.exit f)
    { run := fun c => .outThen { s := c.s, moves := c.act.map (fun l => (l, none)) }
        (fun s =>
          let s := s.modWarp c.wg c.w (fun w => exitLanes w c.act)
          deadRounds (barsRecheck s c.wg) c.wg) } s)

/-- YIELD (R227): the entry, and then the warp, are passed over once. -/
def execYield (f : Fields) (s : State) : Host.Outcome State Fault Refusal :=
  .next (issue (.yield f)
    { run := fun c => .outThen { s := c.s } (fun s => s.modWarp c.wg c.w (fun w =>
        { w.modEntry c.cur.npc (fun e => { e with yielded := true }) with skip := true })) } s)

/-- SLEEP (R228). -/
def execSleep (f : Fields) (s : State) : Host.Outcome State Fault Refusal :=
  .next (issue (.sleep f)
    { run := fun c =>
        let n := c.a false c.l0
        if n = 0 then .out { s := c.s }
        else .out { s := c.modWarp (fun w => w.park c.act .sleep c.cur.npc (c.s.now + n))
                    moves := c.act.map (fun l => (l, none)) } } s)

/-- PARTSET (R229). -/
def execPartset (f : Fields) (s : State) : Host.Outcome State Fault Refusal :=
  .next (issue (.partset f)
    { vals := fun c =>
        let t := c.a false c.l0
        c.valueFails c.f.a.toNat (!(t = 2 || t = 4 || t = 8 || t = 16 || t = 32)) t
      run := fun c => .out { s := c.modWarp (fun w => { w with part := c.a false c.l0 }) } } s)

/-- PARTGET (R229). -/
def execPartget (f : Fields) (s : State) : Host.Outcome State Fault Refusal :=
  .next (issue (.partget f) (laneBody (fun _ => false) (fun c _ => c.warp.part)) s)

/-- SLEEP_WAKE (R228): sleeping lanes whose wake cycle has come are released together. -/
def execSleepWake (wg warp wake : Nat) (s : State) : Host.Outcome State Fault Refusal :=
  .next (if s.now < wake then s else s.modWarp wg warp (fun w =>
    w.releaseLanes (w.heldLanes.filter (fun l => match (w.lane l).hold with
      | some h => h.kind = .sleep && h.wake = wake
      | none => false))))

/-- FAIRNESS_OVERDUE (R45): an entry whose counter has reached F is overdue.  It stays so until it issues, also when MTS then
raises F above its counter (R87). [DEDUCED; log entry 128] -/
def execFairnessOverdue (wg warp pc : Nat) (s : State) : Host.Outcome State Fault Refusal :=
  .next (s.modWarp wg warp (fun w => w.modEntry (BitVec.ofNat 80 pc) (fun e =>
    if w.fairness ≤ e.fair then { e with overdue := true } else e)))

end Sys2Proof.Machine
end

