-- ==== Sys2Proof/Machine/Elementwise.lean ====
section
/-!
DEFINITION. Element-wise arithmetic, conversions, functions, random numbers and cross-lane instructions: OP 0x10 to 0x13
(R232 to R250).  Each computes element codes and flags per lane from the slots of Flags.lean.
-/

namespace Sys2Proof.Machine

open Sys2Proof

/-! ### Slots, draws and results -/

/-- `draw(seed, gid_l, d_l + i)` (R117, R118). -/
def Iss.drawAt (c : Iss) (l i : Nat) : Nat := draw c.lr.seed (gidOf c.s c.wg c.w l) ((c.warp.lane l).draw + i)

/-- Draws consumed by rounding `n` registers into FS (R118, R234). -/
def slotDraws (n : Nat) (c : Iss) : Nat := if c.nd.rnd = 5 then n * c.nd.L else 0

/-- Results with flags, one per lane, laid down in D (R114). -/
def putFlagged (c : Iss) (o : Out) (wide : Bool) (rs : List (Nat × Nat × Nat)) : Res :=
  putD c { o with flags := rs.foldl (fun f r => f ||| r.2.2) o.flags
                  laneFlags := (rs.map (fun r => (r.1, r.2.2))).filter (fun e => e.2 ≠ 0) }
    wide (rs.map (fun r => (r.1, r.2.1)))

/-- D is read as a source when some of its elements are kept (R233): a poisoned one traps as a source does (R479). -/
def keptPoison (c : Iss) : Option Trap :=
  let d := c.f.d.toNat
  match c.act.filter (fun l =>
    (isV d && c.warp.poison.get false (poisonV (c.warp.pos l d) l)) ||
    (isK d && c.warp.poison.get false (poisonK (d - 64)))) with
  | [] => none
  | l :: ls => some { cls := 7, reason := 1, info := d + l * 2 ^ 8, fmask := laneSet (l :: ls) }

/-- An instruction that rounds `regs` registers of results into FS, one lane at a time. -/
def slotBody (checks : Iss → List Fail) (regs : Nat) (keeps : Iss → Bool) (f : Iss → Nat → Nat × Nat) : Body where
  state := checks
  draws := slotDraws regs
  flagged := true
  run := fun c =>
    match (if keeps c then keptPoison c else none) with
    | some t => .trap t false
    | none => putFlagged c { s := c.s } (regs = 2) (c.act.map (fun l => (l, f c l)))

/-! ### Pairing (R233) -/

/-- The limit on GRP of R233. -/
def grpLimit (ld ls : Nat) : Nat := if ld = ls then 1 else max ld ls / max 1 (min ld ls)

/-- The slot checks of an instruction that reads `ns` (number `sn`) and rounds into FS, with those of GRP under a limit
(R445: slots first). -/
def pairChecks (sn : Iss → Nat) (limit : Iss → Nat) (req : Iss → List Fail) (c : Iss) : List Fail :=
  let fs := c.f.fs.toNat
  let slots := slotFail c fs true ++ slotFail c (sn c) false
  if slots ≠ [] then slots
  else req c ++ (if limit c ≤ c.f.grp then [⟨0x0B, .slot, fs, c.amask⟩] else [])

/-- The pairs (source element, destination element) of R233. -/
def pairsOf (g ld ls : Nat) : List (Nat × Nat) :=
  if ld = ls then (List.range ld).map (fun i => (i, i))
  else
    let n := min ld ls
    (List.range n).map (fun i => (if n < ls then g * n + i else i, if n < ld then g * n + i else i))

/-- The register and flags that results at given destination elements give, the others keeping their values. -/
def assemble (nd : Slot) (old : Nat) (rs : List (Nat × Nat × Nat)) : Nat × Nat :=
  (packE ((List.range nd.L).map (fun i =>
     ((List.find? (fun r : Nat × Nat × Nat => r.1 = i) rs).map (fun r => r.2.1)).getD (elem old i nd))) nd.W,
   rs.foldl (fun f r => f ||| r.2.2) 0)

/-- Some destination elements keep their values. -/
def Iss.keepsSome (c : Iss) : Bool := c.ns.L < c.nd.L

/-- An instruction whose sources are read in FS: every element by `f` of the source values and the draw. -/
def sameSlot (n : Nat) (f : Iss → List Val → Nat → Nat × Nat) : Body :=
  slotBody (pairChecks (fun c => c.f.fs.toNat) (fun _ => 1) (fun _ => [])) 1 (fun _ => false) (fun c l =>
    let srcs := ([c.f.a.toNat, c.f.b.toNat, c.f.c.toNat].take n).map (fun x => c.slotSrc x c.nd l)
    assemble c.nd 0 ((List.range c.nd.L).map (fun i =>
      (i, f c (srcs.map (fun r => decodeVal (elem r i c.nd) c.nd)) (c.drawAt l i)))))

/-- Round an exact value with its own flags into FS. -/
def roundInto (n : Slot) (x : Val × Nat) (u : Nat) : Nat × Nat :=
  let r := roundVal n x.1 u
  (r.1, r.2 ||| x.2)

/-- Value `i` of a list of operands. -/
def val (vs : List Val) (i : Nat) : Val := (vs[i]?).getD (.num false (.rat 0 1))

/-- Round down, for the sign of zero sums (R236). -/
def Slot.rdn (n : Slot) : Bool := n.rnd = 2

/-! ### OP 0x10 (R235 to R240) -/

/-- FADD (R235). -/
def execFadd (f : Fields) (s : State) : Host.Outcome State Fault Refusal :=
  .next (issue (.fadd f) (sameSlot 2 (fun c vs u => roundInto c.nd (addVal (Slot.rdn c.nd) (val vs 0) (val vs 1)) u)) s)
/-- FSUB (R235). -/
def execFsub (f : Fields) (s : State) : Host.Outcome State Fault Refusal :=
  .next (issue (.fsub f) (sameSlot 2 (fun c vs u => roundInto c.nd (subVal (Slot.rdn c.nd) (val vs 0) (val vs 1)) u)) s)
/-- FMUL (R235). -/
def execFmul (f : Fields) (s : State) : Host.Outcome State Fault Refusal :=
  .next (issue (.fmul f) (sameSlot 2 (fun c vs u => roundInto c.nd (mulVals (val vs 0) (val vs 1)) u)) s)
/-- FFMA (R235): rounded once. -/
def execFfma (f : Fields) (s : State) : Host.Outcome State Fault Refusal :=
  .next (issue (.ffma f) (sameSlot 3 (fun c vs u =>
    roundInto c.nd (fmaVal (Slot.rdn c.nd) (val vs 0) (val vs 1) (val vs 2)) u)) s)
/-- The result of FMIN or FMAX (R237): no invalid flag. -/
def minMaxInto (isMax : Bool) (n : Slot) (a b : Val) (u : Nat) : Nat × Nat :=
  let r := roundVal n (minMaxVal isMax a b) u
  (r.1, r.2 &&& 15)
/-- FMIN (R237). -/
def execFmin (f : Fields) (s : State) : Host.Outcome State Fault Refusal :=
  .next (issue (.fmin f) (sameSlot 2 (fun c vs u => minMaxInto false c.nd (val vs 0) (val vs 1) u)) s)
/-- FMAX (R237). -/
def execFmax (f : Fields) (s : State) : Host.Outcome State Fault Refusal :=
  .next (issue (.fmax f) (sameSlot 2 (fun c vs u => minMaxInto true c.nd (val vs 0) (val vs 1) u)) s)

/-- The comparison of FCMP (R238). -/
def fcmpVal (cc : Nat) (a b : Val) : Bool :=
  let un : Bool := a.isNan || b.isNan
  match cc with
  | 0 => !un && eqVal a b
  | 1 => un || !eqVal a b
  | 2 => !un && ltVal a b
  | 3 => !un && (ltVal a b || eqVal a b)
  | 4 => !un && ltVal b a
  | 5 => !un && (ltVal b a || eqVal a b)
  | 6 => un
  | _ => !un

/-- A test of every element (R238): a mask in a `v` or `k` register, the element GRP in a predicate. -/
def testBody (t : Iss → Nat → Nat → Bool) : Body where
  state := fun c =>
    let fs := slotFail c c.f.fs.toNat false
    if fs ≠ [] then fs
    else if isP c.f.d.toNat && c.nd.L ≤ c.f.grp then [⟨0x0B, .slot, c.f.fs.toNat, c.amask⟩] else []
  run := fun c => putD c { s := c.s } false (c.act.map (fun l =>
    (l, if isP c.f.d.toNat then b2n (t c l c.f.grp) else maskOf ((List.range c.nd.L).filter (t c l)))))

/-- FCMP (R238). -/
def execFcmp (f : Fields) (s : State) : Host.Outcome State Fault Refusal :=
  .next (issue (.fcmp f) (testBody (fun c l i =>
    fcmpVal c.f.x3 (decodeVal (elem (c.slotSrc c.f.a.toNat c.nd l) i c.nd) c.nd)
      (decodeVal (elem (c.slotSrc c.f.b.toNat c.nd l) i c.nd) c.nd))) s)
/-- FCLASS (R238): m is an integer. -/
def execFclass (f : Fields) (s : State) : Host.Outcome State Fault Refusal :=
  .next (issue (.fclass f) (testBody (fun c l i =>
    bitB (c.b false l) (classOf (elem (c.slotSrc c.f.a.toNat c.nd l) i c.nd) c.nd))) s)

/-- FRND (R239): X3 overrides the mode by which the integer is chosen. -/
def execFrnd (f : Fields) (s : State) : Host.Outcome State Fault Refusal :=
  .next (issue (.frnd f) (sameSlot 1 (fun c vs u =>
    roundVal c.nd (rndVal (if c.f.x3 = 0 then c.nd.rnd else c.f.x3 - 1) (val vs 0) u) u)) s)

/-- FSCALE (R235): a·2^k, k one signed integer. -/
def execFscale (f : Fields) (s : State) : Host.Outcome State Fault Refusal :=
  .next (issue (.fscale f)
    (slotBody (pairChecks (fun c => c.f.fs.toNat) (fun _ => 1) (fun _ => [])) 1 (fun _ => false) (fun c l =>
      assemble c.nd 0 ((List.range c.nd.L).map (fun i =>
        (i, roundVal c.nd (scaleVal (decodeVal (elem (c.slotSrc c.f.a.toNat c.nd l) i c.nd) c.nd)
          (signed 32 (c.b false l))) (c.drawAt l i)))))) s)

/-- FDOT (R240). -/
def execFdot (f : Fields) (s : State) : Host.Outcome State Fault Refusal :=
  .next (issue (.fdot f)
    (slotBody (pairChecks (fun c => c.f.x3) (fun _ => 1)
        (fun c => if c.nd.W ≤ 16 then [⟨0x0B, .slot, c.f.fs.toNat, c.amask⟩] else [])) 1 (fun _ => false) (fun c l =>
      let el (code : Nat) := (elems (c.slotSrc code c.ns l) c.ns).map (fun x => decodeVal x c.ns)
      let r := roundInto c.nd (dotVal (Slot.rdn c.nd) (decodeVal (elem (c.slotSrc c.f.c.toNat c.nd l) 0 c.nd) c.nd)
        ((el c.f.a.toNat).zip (el c.f.b.toNat))) (c.drawAt l 0)
      assemble c.nd 0 [(0, r)])) s)

/-! ### OP 0x11 (R241 to R243, R246) -/

/-- A conversion of each paired element from SS to FS, by `g` of the source element's number, its code and the draw. -/
def convBody (req : Iss → List Fail) (g : Iss → Nat → Nat → Nat → Nat → Nat × Nat) : Body :=
  slotBody (pairChecks (fun c => c.f.x3) (fun c => grpLimit c.nd.L c.ns.L) req) 1 Iss.keepsSome (fun c l =>
    let a := c.slotSrc c.f.a.toNat c.ns l
    assemble c.nd (if c.keepsSome then c.read c.f.d.toNat false l else 0)
      ((pairsOf c.f.grp c.nd.L c.ns.L).map (fun p => (p.2, g c l p.1 (elem a p.1 c.ns) (c.drawAt l p.2)))))

/-- FCVT (R241). -/
def execFcvt (f : Fields) (s : State) : Host.Outcome State Fault Refusal :=
  .next (issue (.fcvt f) (convBody (fun _ => []) (fun c _ _ x u => cvt x c.ns c.nd u)) s)
/-- F2I (R241): FS has E = 0 and BIAS = 0. -/
def execF2i (f : Fields) (s : State) : Host.Outcome State Fault Refusal :=
  .next (issue (.f2i f) (convBody
    (fun c => if c.nd.E = 0 && c.nd.B = 0 then [] else [⟨0x0B, .slot, c.f.fs.toNat, c.amask⟩])
    (fun c _ _ x u => cvt x c.ns c.nd u)) s)
/-- I2F (R241): SS has E = 0. -/
def execI2f (f : Fields) (s : State) : Host.Outcome State Fault Refusal :=
  .next (issue (.i2f f) (convBody
    (fun c => if c.ns.E = 0 then [] else [⟨0x0B, .slot, c.f.x3, c.amask⟩])
    (fun c _ _ x u => cvt x c.ns c.nd u)) s)

/-- FP32 1.0, to which every scale register is set when the engine is acquired (R91). -/
def one32 : Word := 0x3F800000
/-- Scale register `n` of an engine. -/
def Mx.scale (m : Mx) (n : Nat) : Nat := (m.sc.get one32 (n % 256)).toNat

/-- The workgroup owns its core's matrix engine (R91); it does not once it has issued MXREL (R496). -/
def Iss.owns (c : Iss) : Bool := (c.s.getCore c.core).mx.owner = some c.wg && !(c.s.getCore c.core).mx.held
/-- The check of R91: reason 0x0F. -/
def ownFail (c : Iss) : List Fail := if c.owns then [] else [c.badState 0x0F 0 c.amask]

/-- The updates of `mx`k by the source elements of every active lane (R116, R125). -/
def mxUpdates (c : Iss) (k : Nat) : State :=
  let vals := c.act.flatMap (fun l =>
    (pairsOf c.f.grp c.nd.L c.ns.L).map (fun p => decodeVal (elem (c.slotSrc c.f.a.toNat c.ns l) p.1 c.ns) c.ns))
  c.s.modCore c.core (fun x => { x with mx := { x.mx with
    mx := x.mx.mx.set 0 k (BitVec.ofNat 32 (vals.foldl amaxUpdate (x.mx.mx.get 0 k).toNat)) } })

/-- FCVTS (R242). -/
def execFcvts (f : Fields) (s : State) : Host.Outcome State Fault Refusal :=
  let b := convBody (fun _ => []) (fun c l j x u =>
    scaledCode (decodeVal x c.ns) c.nd ((c.s.getCore c.core).mx.scale (c.b false l % 256 + j)) u)
  .next (issue (.fcvts f)
    { b with
      state := fun c => b.state c ++ ownFail c
      run := fun c => b.run (if bitB c.f.immN 20 then { c with s := mxUpdates c (bits c.f.immN 17 3) } else c) } s)

/-- FPACK (R243). -/
def execFpack (f : Fields) (s : State) : Host.Outcome State Fault Refusal :=
  .next (issue (.fpack f)
    (slotBody (pairChecks (fun c => c.f.x3) (fun c => c.nd.L / max 1 (2 * c.ns.L)) (fun _ => [])) 1
      (fun c => 2 * c.ns.L < c.nd.L) (fun c l =>
        let n := c.ns.L
        let el (code i at_ : Nat) := (at_, cvt (elem (c.slotSrc code c.ns l) i c.ns) c.ns c.nd (c.drawAt l at_))
        assemble c.nd (c.read c.f.d.toNat false l)
          ((List.range n).map (fun i => el c.f.a.toNat i (c.f.grp * 2 * n + i)) ++
           (List.range n).map (fun i => el c.f.b.toNat i (c.f.grp * 2 * n + n + i))))) s)

/-- FUNPACK (R243): both registers in one write-back. -/
def execFunpack (f : Fields) (s : State) : Host.Outcome State Fault Refusal :=
  .next (issue (.funpack f)
    (slotBody (pairChecks (fun c => c.f.x3) (fun c => c.ns.L / max 1 (2 * c.nd.L)) (fun _ => [])) 2 (fun _ => false)
      (fun c l =>
        let n := c.nd.L
        let half (h : Nat) := assemble c.nd 0 ((List.range n).map (fun i =>
          (i, cvt (elem (c.slotSrc c.f.a.toNat c.ns l) (c.f.grp * 2 * n + h * n + i) c.ns) c.ns c.nd
            (c.drawAt l (h * n + i)))))
        let lo := half 0
        let hi := half 1
        (lo.1 + 2 ^ 32 * hi.1, lo.2 ||| hi.2))) s)

/-- RAND (R246). -/
def execRand (f : Fields) (s : State) : Host.Outcome State Fault Refusal :=
  .next (issue (.rand f)
    { state := fun c => if c.f.x3 = 0 then [] else slotFail c c.f.fs.toNat true
      draws := fun c => if c.f.x3 = 0 then 1 else c.nd.L
      run := fun c => putD c { s := c.s } false (c.act.map (fun l =>
        (l, if c.f.x3 = 0 then c.drawAt l 0
            else packE ((List.range c.nd.L).map (fun i =>
              (roundVal (c.nd.withRnd 1) (.num false (.rat (c.drawAt l i % 2 ^ 24) (2 ^ 24))) 0).1)) c.nd.W))) } s)

/-! ### OP 0x12 (R244, R245) -/

/-- A function of one operand. -/
def funBody (g : Val → Val × Nat) : Body := sameSlot 1 (fun c vs u => roundInto c.nd (g (val vs 0)) u)

/-- The cycles of a variable-latency operation added to its results. -/
def Body.latency (b : Body) (least span : Nat) : Body :=
  { b with run := fun c => match b.run c with
      | .out o => .out { o with least := least, span := some span }
      | r => r }

/-- FRCP (R244). -/
def execFrcp (f : Fields) (s : State) : Host.Outcome State Fault Refusal := .next (issue (.frcp f) (funBody rcpVal) s)
/-- FRSQ (R244). -/
def execFrsq (f : Fields) (s : State) : Host.Outcome State Fault Refusal := .next (issue (.frsq f) (funBody rsqVal) s)
/-- FSQRT (R244): 16 to 32 cycles. -/
def execFsqrt (f : Fields) (s : State) : Host.Outcome State Fault Refusal :=
  .next (issue (.fsqrt f) (Body.latency (funBody sqrtVal) 16 16) s)
/-- FDIV (R244): 20 to 40 cycles. -/
def execFdiv (f : Fields) (s : State) : Host.Outcome State Fault Refusal :=
  .next (issue (.fdiv f)
    (Body.latency (sameSlot 2 (fun c vs u => roundInto c.nd (divVal (val vs 0) (val vs 1)) u)) 20 20) s)
/-- FEXP2 (R244). -/
def execFexp2 (f : Fields) (s : State) : Host.Outcome State Fault Refusal := .next (issue (.fexp2 f) (funBody exp2Val) s)
/-- FLOG2 (R244). -/
def execFlog2 (f : Fields) (s : State) : Host.Outcome State Fault Refusal := .next (issue (.flog2 f) (funBody log2Val) s)
/-- FSIN (R244). -/
def execFsin (f : Fields) (s : State) : Host.Outcome State Fault Refusal := .next (issue (.fsin f) (funBody sinVal) s)
/-- FCOS (R244). -/
def execFcos (f : Fields) (s : State) : Host.Outcome State Fault Refusal := .next (issue (.fcos f) (funBody cosVal) s)
/-- A code is subnormal. -/
def isSubnormal (n : Slot) (x : Nat) : Bool := n.E ≠ 0 && bits x n.M n.E = 0 && bits x 0 n.M ≠ 0

/-- FTANH of a code (R244); with erratum 0x0001 emulated, +0 for a subnormal operand (R408, R409). -/
def tanhCode (compat : Bool) (n : Slot) (x : Nat) : Val × Nat :=
  if compat && isSubnormal n x then (.num false (.rat 0 1), 0) else tanhVal (decodeVal x n)

/-- The compatibility bit of a workgroup's context (R409). -/
def State.compatOf (s : State) (wg : Nat) : Bool := (s.getCtx (s.wgCtx wg)).compat

/-- FTANH (R244). -/
def execFtanh (f : Fields) (s : State) : Host.Outcome State Fault Refusal :=
  .next (issue (.ftanh f)
    (slotBody (pairChecks (fun c => c.f.fs.toNat) (fun _ => 1) (fun _ => [])) 1 (fun _ => false) (fun c l =>
      let r := c.slotSrc c.f.a.toNat c.nd l
      assemble c.nd 0 ((List.range c.nd.L).map (fun i =>
        (i, roundInto c.nd (tanhCode (c.s.compatOf c.wg) c.nd (elem r i c.nd)) (c.drawAt l i)))))) s)

/-! ### OP 0x13 (R247 to R250) -/

/-- The lanes of a lane's tile (R48). -/
def Iss.tile (c : Iss) (l : Nat) : List Nat :=
  let t := max 1 c.warp.part
  (List.range 32).filter (fun s => s / t = l / t)
/-- The valid lanes of a lane's tile (R49): those that issue this instruction. -/
def Iss.valid (c : Iss) (l : Nat) : List Nat := (c.tile l).filter (fun s => c.act.contains s)
/-- Every lane of the tile is valid. -/
def Iss.tileFull (c : Iss) (l : Nat) : Bool := (c.tile l).all (fun s => c.act.contains s)

/-- The writes of the validity predicate VP (R247). -/
def vpWrites (c : Iss) (ok : Nat → Bool) : List RegWrite :=
  let n := bits c.f.immN 25 3
  if n = 0 then [] else c.act.map (fun l => .p l n (ok l))

/-- A cross-lane instruction: results by reader, and the validity predicate. -/
def crossBody (wide : Iss → Bool) (ok : Iss → Nat → Bool) (g : Iss → Nat → Nat) : Body where
  run := fun c => putD c { s := c.s, writes := vpWrites c (ok c) } (wide c) (c.act.map (fun l => (l, g c l)))

/-- VOTE (R249). -/
def execVote (f : Fields) (s : State) : Host.Outcome State Fault Refusal :=
  .next (issue (.vote f) (crossBody (fun _ => false) Iss.tileFull (fun c l =>
    let vs := c.valid l
    match c.f.mX % 4 with
    | 0 => b2n (vs.all (fun s => c.a false s ≠ 0))
    | 1 => b2n (vs.any (fun s => c.a false s ≠ 0))
    | 2 => b2n (vs.all (fun s => c.a false s = c.a false l))
    | _ => maskOf (vs.filter (fun s => c.a false s ≠ 0)))) s)

/-- The source lane of SHFL for reader `l` (R248). -/
def shflSource (c : Iss) (l : Nat) : Int :=
  let k := c.b false l % 32
  match c.f.mX % 4 with
  | 0 => (c.tile l).headD 0 + k
  | 1 => (l : Int) - k
  | 2 => (l : Int) + k
  | _ => ((l ^^^ k : Nat) : Int)
/-- The read of SHFL is valid. -/
def shflValid (c : Iss) (l : Nat) : Bool :=
  let s := shflSource c l
  0 ≤ s && (c.valid l).contains s.toNat

/-- SHFL (R248). -/
def execShfl (f : Fields) (s : State) : Host.Outcome State Fault Refusal :=
  .next (issue (.shfl f) (crossBody (fun c => bitB c.f.mX 2) shflValid (fun c l =>
    c.a (bitB c.f.mX 2) (if shflValid c l then (shflSource c l).toNat else l))) s)

/-- The combination of integers of REDUX and SCAN (R250), from the identity. -/
def reduxInt (op w : Nat) (u : Bool) (xs : List Nat) : Nat :=
  match op with
  | 0 => xs.foldl (· + ·) 0 % 2 ^ w
  | 1 => wrap w ((xs.map (readInt w u)).foldl min (if u then (2 ^ w : Nat) - 1 else (2 ^ (w - 1) : Nat) - 1))
  | 2 => wrap w ((xs.map (readInt w u)).foldl max (if u then 0 else -(2 ^ (w - 1) : Nat)))
  | 3 => xs.foldl (· &&& ·) (2 ^ w - 1)
  | 4 => xs.foldl (· ||| ·) 0
  | _ => xs.foldl (· ^^^ ·) 0

/-- One element of `.fadd` (R250): the exact sum, rounded once; a NaN is the lowest lane's; +0 of no lanes. -/
def reduxAdd (n : Slot) (vs : List Val) (u : Nat) : Nat × Nat :=
  if vs.isEmpty then roundVal n (.num false (.rat 0 1)) u
  else roundInto n (((firstNan vs).map (·, 0)).getD (sumVals (Slot.rdn n) vs)) u
/-- One element of `.fmax`. -/
def reduxMax (n : Slot) (vs : List Val) (u : Nat) : Nat × Nat :=
  match vs with
  | [] => (0, 0)
  | v :: vs => let r := roundVal n (vs.foldl (minMaxVal true) v) u; (r.1, r.2 &&& 15)

/-- REDUX and SCAN (R250) over the lanes `srcs` of each reader. -/
def reduxBody (wide : Iss → Bool) (srcs : Iss → Nat → List Nat) : Body where
  state := fun c => if c.f.mX % 8 < 6 then [] else slotFail c c.f.fs.toNat true
  draws := fun c => if c.f.mX % 8 < 6 then 0 else slotDraws 1 c
  flagged := true
  run := fun c =>
    let op := c.f.mX % 8
    let w := if wide c then 64 else 32
    let one (l : Nat) : Nat × Nat :=
      let ss := srcs c l
      if op < 6 then (reduxInt op w (bitB c.f.mX 3) (ss.map (fun s => c.a (wide c) s)), 0)
      else
        let rs := (List.range c.nd.L).map (fun i =>
          let vs := ss.map (fun s => decodeVal (elem (c.slotSrc c.f.a.toNat c.nd s) i c.nd) c.nd)
          (i, if op = 6 then reduxAdd c.nd vs (c.drawAt l i) else reduxMax c.nd vs (c.drawAt l i)))
        assemble c.nd 0 rs
    putFlagged c { s := c.s, writes := vpWrites c c.tileFull } (wide c) (c.act.map (fun l => (l, one l)))

/-- REDUX (R250). -/
def execRedux (f : Fields) (s : State) : Host.Outcome State Fault Refusal :=
  .next (issue (.redux f) (reduxBody (fun c => bitB c.f.mX 4 && c.f.mX % 8 < 6) Iss.valid) s)
/-- SCAN (R250): lanes up to the reader, or below it with `.ex`. -/
def execScan (f : Fields) (s : State) : Host.Outcome State Fault Refusal :=
  .next (issue (.scan f) (reduxBody (fun _ => false) (fun c l =>
    (c.valid l).filter (fun s => if bitB c.f.mX 4 then s < l else s ≤ l))) s)

/-- MATCH (R249). -/
def execMatchL (f : Fields) (s : State) : Host.Outcome State Fault Refusal :=
  .next (issue (.matchL f) (crossBody (fun _ => false) Iss.tileFull (fun c l =>
    let w := bitB c.f.mX 0
    maskOf ((c.valid l).filter (fun s => c.a w s = c.a w l)))) s)

end Sys2Proof.Machine
end

