-- ==== Sys2Proof/Machine/Streams.lean ====
section
/-!
DEFINITION. Streams and CHAIN: OP 0x14 (R251 to R259).
-/

namespace Sys2Proof.Machine

open Sys2Proof

/-! ### Stream management (R255) -/

/-- The stream index N. -/
def Iss.sn (c : Iss) : Nat := bits c.f.immN 20 4

/-- An access to the stream is outstanding (R255): an operation under way uses it. -/
def Iss.streamBusy (c : Iss) (n : Nat) : Bool := c.warp.pend.any (fun b => b.reads.contains (.s n))

/-- The descriptor that SDEF takes from four `k` registers. -/
def Iss.kDesc (c : Iss) : Nat :=
  let a := c.f.a.toNat - 64
  (List.range 4).foldl (fun x i => x + (c.warp.getK (a + i)).toNat * 2 ^ (32 * i)) 0

/-- SDEF (R255). -/
def execSdef (f : Fields) (s : State) : Host.Outcome State Fault Refusal :=
  .next (issue (.sdef f)
    { vals := fun c => if 5 ≤ bits c.kDesc 120 3 then [c.bad 0x0C (bits c.kDesc 96 32)] else []
      run := fun c =>
        if c.streamBusy c.sn then .wait
        else .out { s := c.s.modWarp c.wg c.w (fun w =>
          { w with s := w.s.put c.sn { desc := BitVec.ofNat 128 c.kDesc, pos := 0 } }) } } s)

/-- The position SSEEK sets: EOS recomputed. -/
def seekPos (x : Stream) (a : Nat) : Nat :=
  bits a 0 12 + bits a 12 13 * 2 ^ 12 + b2n (bits a 12 13 = x.n1) * 2 ^ 30

/-- SSEEK (R255). -/
def execSseek (f : Fields) (s : State) : Host.Outcome State Fault Refusal :=
  .next (issue (.sseek f)
    { state := fun c => if (c.warp.stream c.sn).V then [] else [c.badState 0x11 c.sn c.amask]
      vals := fun c =>
        let a := c.a true c.l0
        let x := c.warp.stream c.sn
        c.valueFails c.f.a.toNat (x.n0 ≤ bits a 0 12 || x.n1 < bits a 12 13 || (bits a 12 13 = x.n1 && bits a 0 12 ≠ 0)) a
      run := fun c =>
        if c.streamBusy c.sn then .wait
        else .out { s := c.s.modWarp c.wg c.w (fun w =>
          let x := w.stream c.sn
          { w with s := w.s.put c.sn { x with pos := BitVec.ofNat 64 (seekPos x (c.a true c.l0)) } }) } } s)

/-- SPOS (R255). -/
def execSpos (f : Fields) (s : State) : Host.Outcome State Fault Refusal :=
  .next (issue (.spos f)
    { laneBody (fun _ => true) (fun c _ => (c.warp.stream c.sn).pos.toNat) with
      state := fun c => if (c.warp.stream c.sn).V then [] else [c.badState 0x11 c.sn c.amask] } s)

/-- SFLAG (R255). -/
def execSflag (f : Fields) (s : State) : Host.Outcome State Fault Refusal :=
  .next (issue (.sflag f)
    { state := fun c => if (c.warp.stream c.sn).V then [] else [c.badState 0x11 c.sn c.amask]
      run := fun c =>
        if c.streamBusy c.sn then .wait
        else putD c { s := c.s } false (c.act.map (fun l =>
          (l, bitN (c.warp.stream c.sn).pos.toNat (29 + bits c.f.immN 24 2)))) } s)

/-! ### CHAIN (R257 to R259) -/

/-- The fields of a step word (R257). -/
def stLast (x : Nat) : Bool := bitB x 63
def stFs (x : Nat) : Nat := bits x 60 3
def stOps (x : Nat) : Nat := bits x 58 2
def stFn (x : Nat) : Nat := bits x 54 4
def stMod (x : Nat) : Nat := bits x 16 8
def stOut (x : Nat) : Nat := bits x 0 8
/-- X3 of the modifier byte. -/
def stX3 (x : Nat) : Nat := bits (stMod x) 1 3
/-- The selectors A, B, C. -/
def stSel (x : Nat) : List Nat := [bits x 40 8, bits x 32 8, bits x 24 8]
/-- The slot in which the step reads its sources. -/
def stSrcSlot (x : Nat) : Nat := if stOps x = 1 then stX3 x else stFs x

/-- Sources of a step operation, none where it is not allowed (R257). -/
def stArity (x : Nat) : Option Nat :=
  match stOps x, stFn x with
  | 0, 3 => some 3
  | 0, 8 => some 1
  | 0, n => if n ≤ 5 || n = 9 then some 2 else none
  | 1, n => if n = 0 || n = 2 || n = 3 then some 1 else none
  | 2, 3 => some 2
  | 2, n => if n ≤ 8 then some 1 else none
  | _, _ => none

/-- The steps of a program: up to the first with LAST. -/
def chainSteps : List Nat → List Nat
  | [] => []
  | x :: xs => if stLast x then [x] else x :: chainSteps xs

/-- The input streams that steps name, and the output streams, each with its step. -/
def chainIns (ps : List Nat) : List Nat :=
  (ps.flatMap (fun x => ((stSel x).filter isS).map (· - 96))).dedup
def chainOuts (ps : List Nat) : List (Nat × Nat) :=
  ((List.range ps.length).zip ps).filterMap (fun e => if stOut e.2 = 0 then none else some (stOut e.2 - 96, e.1))

/-- Step `k`, a word `x` of program `ps`, breaks a rule of R257. -/
def stBad (w : Warp) (ps : List Nat) (k x : Nat) : Bool :=
  match stArity x with
  | none => true
  | some n =>
    let used := (stSel x).take n
    let okSel (q : Nat) : Bool := (q < 8 && q < k) || isK q || isS q || (192 ≤ q && q < 255)
    let str (m : Nat) : Stream := w.stream m
    bits x 48 6 ≠ 0 || bits x 8 8 ≠ 0 ||
    ((stSel x).drop n).any (· ≠ 0) || used.any (fun q => !okSel q) ||
    bits (stMod x) 4 4 ≠ 0 || bitB (stMod x) 0 ||
    (stOps x ≠ 1 && !(stOps x = 0 && stFn x = 8) && stX3 x ≠ 0) ||
    (stOps x = 0 && stFn x = 8 && 6 ≤ stX3 x) ||
    used.any (fun q => isS q && (!(str (q - 96)).V || (str (q - 96)).dir || (str (q - 96)).fs ≠ stSrcSlot x)) ||
    (stOut x ≠ 0 && (!isS (stOut x) || !(str (stOut x - 96)).V || !(str (stOut x - 96)).dir ||
      (str (stOut x - 96)).fs ≠ stFs x ||
      1 < ((chainOuts ps).filter (fun e => e.1 = stOut x - 96)).length))

/-- The slot checks of a step (R241, R260): reason 0x0B. -/
def stSlotFails (c : Iss) (x : Nat) : List Fail :=
  let fs := slotFail c (stFs x) true ++ slotFail c (stSrcSlot x) false
  if fs ≠ [] then fs
  else
    let d := c.slot (stFs x)
    if stOps x = 1 && stFn x = 2 && !(d.E = 0 && d.B = 0) then [⟨0x0B, .slot, stFs x, c.amask⟩]
    else if stOps x = 1 && stFn x = 3 && (c.slot (stSrcSlot x)).E ≠ 0 then [⟨0x0B, .slot, stSrcSlot x, c.amask⟩]
    else []

/-- The first failing check of a program. -/
def chainFail (c : Iss) (ps : List Nat) : Option Fail :=
  let ix := (List.range ps.length).zip ps
  lowestFail (ix.flatMap (fun e => if (stArity e.2).isNone then [] else stSlotFails c e.2) ++
    ix.flatMap (fun e => if stBad c.warp ps e.1 e.2 then [c.badState 0x11 e.1 c.amask] else []))

/-- One element of a step: the code and the flags (R235 to R245), from source codes and the draw. -/
def stEval (compat : Bool) (nd ns : Slot) (x : Nat) (xs : List Nat) (u : Nat) : Nat × Nat :=
  let raw (i : Nat) : Nat := (xs[i]?).getD 0
  let v (i : Nat) : Val := decodeVal (elem (raw i) 0 ns) ns
  match stOps x, stFn x with
  | 0, 0 => roundInto nd (addVal (Slot.rdn nd) (v 0) (v 1)) u
  | 0, 1 => roundInto nd (subVal (Slot.rdn nd) (v 0) (v 1)) u
  | 0, 2 => roundInto nd (mulVals (v 0) (v 1)) u
  | 0, 3 => roundInto nd (fmaVal (Slot.rdn nd) (v 0) (v 1) (v 2)) u
  | 0, 4 => minMaxInto false nd (v 0) (v 1) u
  | 0, 5 => minMaxInto true nd (v 0) (v 1) u
  | 0, 8 => roundVal nd (rndVal (if stX3 x = 0 then nd.rnd else stX3 x - 1) (v 0) u) u
  | 0, _ => roundVal nd (scaleVal (v 0) (signed 32 (raw 1))) u
  | 1, _ => cvt (elem (raw 0) 0 ns) ns nd u
  | _, 0 => roundInto nd (rcpVal (v 0)) u
  | _, 1 => roundInto nd (rsqVal (v 0)) u
  | _, 2 => roundInto nd (sqrtVal (v 0)) u
  | _, 3 => roundInto nd (divVal (v 0) (v 1)) u
  | _, 4 => roundInto nd (exp2Val (v 0)) u
  | _, 5 => roundInto nd (log2Val (v 0)) u
  | _, 6 => roundInto nd (sinVal (v 0)) u
  | _, 7 => roundInto nd (cosVal (v 0)) u
  | _, _ => roundInto nd (tanhCode compat ns (elem (raw 0) 0 ns)) u

/-- Slot `n` as a CHAIN read it at issue (R109). -/
def Chain.slot (ch : Chain) (n : Nat) : Slot := Slot.of ((ch.fmt[n]?).getD 0).toNat (bits ch.amr.toNat (8 * n) 8)

/-- All steps of one element: results by step, and flags; `e` are the elements taken from the input streams. -/
def chainEval (compat : Bool) (ch : Chain) (seed : Nat) (e : List (Nat × Nat)) : List (Nat × Nat) → List Nat → Nat → List Nat × Nat
  | [], ts, fl => (ts, fl)
  | (k, x) :: xs, ts, fl =>
    let src (q : Nat) : Nat :=
      if q < 8 then (ts[q]?).getD 0
      else if isK q then (((List.find? (fun y : Nat × Word => y.1 = q - 64) ch.ks).map Prod.snd).getD 0).toNat
      else if isS q then ((List.find? (fun y : Nat × Nat => y.1 = q - 96) e).map Prod.snd).getD 0
      else q - 192
    let r := stEval compat (ch.slot (stFs x)) (ch.slot (stSrcSlot x)) x ((stSel x).map src)
      (draw seed ch.g0 (ch.d0 + 8 * ch.done + k))
    chainEval compat ch seed e xs (ts ++ [r.1]) (fl ||| r.2)

/-- The CHAIN of a warp ends: its flags and its token go with its operation (R88, R114, R488). -/
def chainEnd (w : Warp) (ch : Chain) : Warp :=
  let en := (ch.flags.toNat &&& w.xen) ≠ 0
  { w with
    chain := none
    pend := w.pend.map (fun b => if b.idx = ch.idx then
      { b with awaits := b.awaits - 1, flags := ch.flags, flagLanes := if en then laneSet [ch.lane0] else 0 } else b) }

/-- A fault at an element (R258): the elements before it stand, the CHAIN ends, and the warp takes the trap at its next
issue. [How it is reported is not in the spec; DEDUCED, log entry 59] -/
def chainFault (s : State) (wg w : Nat) (ch : Chain) (t : Trap) : State :=
  s.modWarp wg w (fun x =>
    let l0 := laneSet [ch.lane0]
    let act := ((x.pend.find? (fun b => b.idx = ch.idx)).map (·.lanes)).getD l0
    let x := chainEnd x ch
    x.report { x.newReport t.cause t.info t.info2 l0 l0 act with order := ch.idx })

/-- The next element of the CHAIN of a warp (R258), unless a yield is pending (R259). -/
def chainElement (s : State) (wg w : Nat) : State :=
  let x := s.getWarp wg w
  match x.chain with
  | none => s
  | some ch =>
    if x.yp || (s.getWg wg).det.held then s
    else if ch.n ≤ ch.done then s.modWarp wg w (fun x => chainEnd x ch)
    else
      let core := (s.getWg wg).core
      let asid := s.wgAsid wg
      let maint : Bool := ch.modeS && bitB (s.wgRec wg).flags 1
      let ps := chainSteps (ch.prog.map (·.toNat))
      let there (n : Nat) : Bool := (x.stream n).at < (x.stream n).n0 * (x.stream n).n1
      let width (n : Nat) : Nat := (ch.slot (x.stream n).fs).W
      let addr (n : Nat) : Nat := (x.stream n).bitAddr (width n) (x.stream n).at
      let ins := chainIns ps
      let outs := chainOuts ps
      let inParts := (ins.filter there).map (fun n => (n, bitParts ch.lane0 (addr n) (width n)))
      let outParts := (outs.filter (fun e => there e.1)).map (fun e => (e, bitParts ch.lane0 (addr e.1) (width e.1)))
      let ti := translateParts s core asid rightR ch.modeS maint (inParts.flatMap (·.2))
      let tw := translateParts ti.2.2 core asid rightW ch.modeS maint (outParts.flatMap (·.2))
      let crossing := ti.1 ++ tw.1
      match memTrap (ti.2.1 ++ tw.2.1), objectTrap (s.ctxView wg) (outParts.flatMap (·.2)) with
      | some t, _ => chainFault s wg w ch t
      | none, some t => chainFault s wg w ch t
      | none, none =>
        if crossing.any (partHeld s (coreDie core)) || ownQueued s wg w crossing || writesSource s wg w tw.1 ||
            (s.wgDet wg && tw.1.any (fun t => s.heldWithin t.pa t.part.n wg (· ≠ w))) then s
        else
          match (crossing.filter (fun t => t.mt = 2)).map (·.part.va), detRoom tw.2.2 wg tw.1 with
          | _, .error s => s
          | vas, .ok s1 =>
            if vas ≠ [] && 4200000 ≤ Config.acceptAfter s.free then
              chainFault s wg w ch { cls := 6, reason := 9, info := vas.headD 0, info2 := (vas.getLast?).getD 0
                                     fmask := laneSet [ch.lane0] }
            else
            let rd := (inParts.zip (regroup (inParts.map (fun e => e.2.length)) ti.1)).foldl
              (fun (a : List (Nat × Nat) × Option Nat × State) g =>
                let n := g.1.1
                let r := readParts a.2.2 wg core (x.stream n).hint g.2
                (a.1 ++ [(n, ofLE r.1 / 2 ^ (addr n % 8) % 2 ^ width n)],
                 if r.2.1 && a.2.1.isNone then some (addr n / 8) else a.2.1, r.2.2)) ([], none, s1)
            match rd.2.1 with
            | some va => chainFault s wg w ch { cls := 7, reason := 2, info := va, fmask := laneSet [ch.lane0] }
            | none =>
              let ev := chainEval (s.compatOf wg) ch (s.wgRec wg).seed rd.1 ((List.range ps.length).zip ps) [] 0
              let s2 := (outParts.zip (regroup (outParts.map (fun e => e.2.length)) tw.1)).foldl (fun (a : State × Nat) g =>
                let n := g.1.1.1
                let q := fillPuts a.1 wg w core ch.idx ch.lane0 [latePut (addr n) (width n) (x.stream n).hint g.2]
                  ((ev.1[g.1.1.2]?).getD 0)
                (q.1, a.2 + q.2)) (rd.2.2, 0)
              s2.1.modWarp wg w (fun y =>
                let y := { y with pend := y.pend.map (fun b =>
                  if b.idx = ch.idx then { b with awaits := b.awaits + s2.2 } else b) }
                let y := (ins ++ outs.map (·.1)).foldl (fun y n => { y with s := y.s.put n ((y.stream n).advance 1) }) y
                let ch' := { ch with done := ch.done + 1, flags := ch.flags ||| BitVec.ofNat 5 ev.2 }
                if ch'.n ≤ ch'.done then chainEnd y ch' else { y with chain := some ch' })

/-- CHAIN (R258): reads and checks its program, consumes its draws, and goes under way. -/
def execChain (f : Fields) (s : State) : Host.Outcome State Fault Refusal :=
  .next (issue (.chain f)
    { vals := fun c =>
        if c.a true c.l0 % 64 ≠ 0 then [c.bad 0x0C (c.a true c.l0)] else []
      flagged := true
      run := fun c =>
        let n := c.b false c.l0
        if c.warp.chain.isSome then .wait
        else if n = 0 then .out { s := c.s }
        else
          match c.access c.s rightR false (partsOf c.l0 (sextVa (c.a true c.l0)) 64) with
          | .ok ts s =>
            let r := readParts s c.wg c.core 0 ts
            let words := (List.range 8).map (fun i => leAt r.1 (8 * i) 8)
            let ps := chainSteps words
            if r.2.1 then
              .trap { cls := 7, reason := 2, info := sextVa (c.a true c.l0), fmask := laneSet [c.l0] } false
            else
              match chainFail c ps with
              | some x => .trap (c.illegal x) false
              | none =>
                let names := (chainIns ps ++ (chainOuts ps).map (·.1)).dedup
                if names.any c.streamBusy then .wait
                else
                  let ks := (ps.flatMap (fun x => ((stSel x).filter isK).map (· - 64))).dedup
                  let ch : Chain :=
                    { prog := words.map (BitVec.ofNat 64), n := n, done := 0, st := c.f.st.toNat, idx := c.warp.nextIdx,
                      lane0 := c.l0, ks := ks.map (fun k => (k, c.warp.getK k)), d0 := (c.warp.lane c.l0).draw,
                      g0 := gidOf c.s c.wg c.w c.l0, flags := 0, fmt := (List.range 8).map (fun i => c.g.fmt.get 0 i),
                      amr := c.g.amr, modeS := c.warp.modeS }
                  .out { s := r.2.2.modWarp c.wg c.w (fun w => { w with chain := some ch })
                         draws := 8 * n, awaits := 1, reads := names.map .s ++ ks.map .k }
          | a => a.stop c } s)

end Sys2Proof.Machine
end

