-- ==== Sys2Proof/Machine/Memory.lean ====
section
/-!
DEFINITION. Loads and stores: OP 0x20 but for STPAIR (R265 to R268), and OP 0x21, the scratchpad and the quad window
(R129 to R131, R270 to R272).
-/

namespace Sys2Proof.Machine

open Sys2Proof

/-! ### Register operands of an access (R264) -/

/-- Access size in bytes. -/
def Iss.size (c : Iss) : Nat := szBytes c.f.sz

/-- The data of an n-byte access through a code. -/
def Iss.data (c : Iss) (code n lane : Nat) : Nat :=
  if n ≤ 4 then c.read code false lane % 2 ^ (8 * n)
  else if n = 8 then c.read code true lane
  else c.read code true lane + 2 ^ 64 * c.read (code + 2) true lane

/-- The write of word `i` of a result to a register; no value is a poisoned one (R478), which a predicate cannot hold. -/
def keyWrite (k : RegKey) (i : Nat) (x : Option Nat) : Option RegWrite :=
  match k with
  | .v l p => some (.v l p (x.map (fun y => BitVec.ofNat 32 (y / 2 ^ (32 * i)))))
  | .k n => some (.k n (x.map (fun y => BitVec.ofNat 32 (y / 2 ^ (32 * i)))))
  | .p l n => x.map (fun y => .p l n (y ≠ 0))
  | .h l n => some (.h l n (x.map (BitVec.ofNat 64)))
  | .s _ => none

/-- The writes of a result to registers, lowest word first. -/
def resultWrites (keys : List RegKey) (x : Option Nat) : List RegWrite :=
  ((List.range keys.length).zip keys).filterMap (fun e => keyWrite e.2 e.1 x)

/-- The registers of a lane that an n-byte result goes to. -/
def loadKeys (w : Warp) (lane d n : Nat) : List RegKey := regKeys w lane d (if isVK d then max 1 (n / 4) else 1)

/-- The writes of loaded values, by lane: a `k` register takes the lowest active lane's (R82). -/
def loadWrites (w : Warp) (d n : Nat) (vals : List (Nat × Option Nat)) : List RegWrite :=
  (if isK d then vals.take 1 else vals).flatMap (fun e => resultWrites (loadKeys w e.1 d n) e.2)

/-- The register value of loaded bytes (R264): none when poisoned. -/
def loadVal (c : Iss) (r : List Byte × Bool) : Option Nat :=
  let n := r.1.length
  if r.2 then none else some (if c.f.sx && n ≤ 2 then sextTo (8 * n) 32 (ofLE r.1) else ofLE r.1)

/-! ### Global accesses (R263, R265) -/

/-- Read one lane's translated parts, weak or scoped. -/
def readLane (c : Iss) (s : State) (ts : List TPart) : List Byte × Bool × State :=
  if c.f.sco = 0 then readParts s c.wg c.core c.f.hint ts
  else
    ts.foldl (fun (a : List Byte × Bool × State) t =>
      let r := scopedRead a.2.2 c.wg c.core c.f.sco c.f.hint t
      (a.1 ++ r.1, a.2.1 || r.2.1, r.2.2)) ([], false, s)

/-- Read every lane's parts in turn. -/
def readLanes (c : Iss) (s : State) (gs : List (Nat × List TPart)) : List (Nat × List Byte × Bool) × State :=
  gs.foldl (fun (a : List (Nat × List Byte × Bool) × State) g =>
    let r := readLane c a.2 g.2
    (a.1 ++ [(g.1, r.1, r.2.1)], r.2.2)) ([], s)

/-- Turn the checks of an access into an answer. -/
def withAccess (c : Iss) (s : State) (r : Right) (obj : Bool) (ps : List Part) (k : List TPart → State → Res) : Res :=
  match c.access s r obj ps with
  | .ok ts s => k ts s
  | a => a.stop c

/-- The checks of an access that joins the queues of the atomic units, where it takes its place by line (R141); what a late result
of the thread will write comes first (R153). -/
def withReach (c : Iss) (s : State) (r : Right) (obj : Bool) (ps : List Part) (k : List TPart → State → Res) : Res :=
  match c.reach s r obj ps with
  | .ok ts s =>
    if ownWaiting s c.wg c.w AtomReq.fills ts || (r.wr && writesSource s c.wg c.w ts) then .wait else k ts s
  | a => a.stop c

/-- Lay loaded values down in D (R264): registers, or elements of an output stream; no value is a poisoned one. -/
def putLoad (c : Iss) (o : Out) (n : Nat) (vals : List (Nat × Option Nat)) : Res :=
  let d := c.f.d.toNat
  if isS d then appendStream c o (d - 96) (vals.map (fun e => (e.1, c.result e.1 e.2)))
  else .out { o with writes := o.writes ++ loadWrites c.warp d n vals }

/-- A scoped access first writes back the core's dirty bytes of its lines; an LR hold keeps one of them at its unit (R152, R277). -/
def scopeHeld (c : Iss) (s : State) (ts : List TPart) : Bool :=
  c.f.sco ≠ 0 && !s.wgDet c.wg && ts.any (fun t => t.mt ≠ 2 && lineHeld s c.core t.pa c.wg c.w)
/-- The lines of an access. -/
def inParts (ts : List TPart) (a : Nat) : Bool := ts.any (fun t => inLine (t.pa / 128) a)

/-- LD (R265). -/
def execLd (f : Fields) (s : State) : Host.Outcome State Fault Refusal :=
  .next (issue (.ld f)
    { run := fun c =>
        let pss := c.act.map (fun l => partsOf l (c.addr l) c.size)
        withAccess c c.s rightR false pss.flatten (fun ts s =>
          if scopeHeld c s ts then c.awaitWriteback (inParts ts)
          else
            let rs := readLanes c s (c.act.zip (regroup (pss.map List.length) ts))
            putLoad c { s := rs.2 } c.size (rs.1.map (fun r => (r.1, loadVal c r.2)))) } s)

/-- The state after an access whose writes buffering admits (R174, R177). -/
def withRoom (c : Iss) (s : State) (ts : List TPart) (reds : Nat) (k : State → Res) : Res :=
  match detGate c s ts reds with
  | .other s => .other s
  | .ok s => k s

/-- Store masked bytes for each lane in turn, counted in the store hash (R136, R184): `va` and `bs` by lane. -/
def storeLanes (c : Iss) (s : State) (sco : Nat) (gs : List (Nat × List TPart)) (va : Nat → Nat) (bs : Nat → List (Byte × Byte)) : Res :=
  let r := gs.foldl (fun (a : State × Nat) g =>
    let q := c.store a.1 sco c.f.hint g.2 (bs g.1)
    (hashMasked q.1 c.wg (va g.1) (bs g.1), a.2 + q.2)) (s, 0)
  .out { s := r.1, awaits := r.2 }

/-- ST (R265): lanes in ascending order, so that the highest keeps a byte. -/
def execSt (f : Fields) (s : State) : Host.Outcome State Fault Refusal :=
  .next (issue (.st f)
    { run := fun c =>
        let pss := c.act.map (fun l => partsOf l (c.addr l) c.size)
        withAccess c c.s rightW true pss.flatten (fun ts s =>
          if !wideScope c.f.sco && scopeHeld c s ts then c.awaitWriteback (inParts ts)
          else withRoom c s ts 0 (fun s =>
            storeLanes c s c.f.sco (c.act.zip (regroup (pss.map List.length) ts)) c.addr
              (fun l => fullMask (toLE c.size (c.data c.f.b.toNat c.size l))))) } s)

/-- LDK (R266): one weak load at the lowest active lane's address. -/
def execLdk (f : Fields) (s : State) : Host.Outcome State Fault Refusal :=
  .next (issue (.ldk f)
    { run := fun c =>
        withAccess c c.s rightR false (partsOf c.l0 (c.addr c.l0) c.size) (fun ts s =>
          let r := readParts s c.wg c.core c.f.hint ts
          .out { s := r.2.2
                 writes := loadWrites c.warp c.f.d.toNat c.size [(c.l0, loadVal c (r.1, r.2.1))] }) } s)

/-! ### Packed accesses (R133 to R135, R267) -/

/-- Bits of one register's elements, and of the lane's range. -/
def Iss.pkBits (c : Iss) : Nat := c.nd.L * c.nd.W
def Iss.pkSpan (c : Iss) : Nat := if c.f.sx then 2 * c.pkBits else c.pkBits
/-- The bit address of a lane. -/
def Iss.pkAddr (c : Iss) (l : Nat) : Nat := (8 * c.addr l + c.read c.f.b.toNat false l) % 2 ^ 83

/-- LDPK (R267). -/
def execLdpk (f : Fields) (s : State) : Host.Outcome State Fault Refusal :=
  .next (issue (.ldpk f)
    { state := fun c => slotFail c c.f.fs.toNat false
      run := fun c =>
        let pss := c.act.map (fun l => bitParts l (c.pkAddr l) c.pkSpan)
        withAccess c c.s rightR false pss.flatten (fun ts s =>
          let rs := (c.act.zip (regroup (pss.map List.length) ts)).foldl
            (fun (a : List (Nat × Nat × Bool) × State) g =>
              let r := readParts a.2 c.wg c.core c.f.hint g.2
              let x := ofLE r.1 / 2 ^ (c.pkAddr g.1 % 8) % 2 ^ c.pkSpan
              (a.1 ++ [(g.1, x % 2 ^ c.pkBits + (if c.f.sx then x / 2 ^ c.pkBits * 2 ^ 32 else 0), r.2.1)], r.2.2))
            ([], s)
          let bad := (rs.1.filter (fun r => r.2.2)).map (·.1)
          if isS c.f.d.toNat then putLoad c { s := rs.2 } 4 (rs.1.map (fun r => (r.1, if r.2.2 then none else some r.2.1)))
          else .out { s := rs.2, writes := poisonLanes bad (bad.contains c.l0)
                        (destWrites c.warp c.f.d.toNat c.f.sx (rs.1.map (fun r => (r.1, r.2.1)))) }) } s)

/-- STPK (R267). -/
def execStpk (f : Fields) (s : State) : Host.Outcome State Fault Refusal :=
  .next (issue (.stpk f)
    { state := fun c => slotFail c c.f.fs.toNat false
      run := fun c =>
        let pss := c.act.map (fun l => bitParts l (c.pkAddr l) c.pkSpan)
        withAccess c c.s rightW true pss.flatten (fun ts s =>
          withRoom c s ts 0 (fun s =>
            storeLanes c s 0 (c.act.zip (regroup (pss.map List.length) ts)) (fun l => c.pkAddr l / 8) (fun l =>
              let x := c.read c.f.c.toNat c.f.sx l
              bitBytes (c.pkAddr l) c.pkSpan (x % 2 ^ c.pkBits + x / 2 ^ 32 % 2 ^ c.pkBits * 2 ^ c.pkBits)))) } s)

/-- The core has the translation of an address in a TLB it reaches (R148). -/
def inTlb (s : State) (p asid va : Nat) : Bool :=
  (s.getCore p).tlb.any (fun e => e.covers asid va) || (s.quadTlb.get [] (coreQuad p)).any (fun e => e.covers asid va) ||
  (s.dieTlb.get [] (coreDie p)).any (fun e => e.covers asid va)

/-- The fill of one line by a prefetch, where its translation allows any access at all (R268, R471). -/
def prefetchLine (s : State) (p asid va hint : Nat) (modeS : Bool) : State :=
  match translatePart s p asid ⟨false, false, false⟩ modeS false ⟨0, va / 128 * 128, 128⟩ with
  | (.ok t, s) =>
    -- poison that a prefetch meets is recorded (R437, R479)
    let s := if (List.range 2).any (fun i => blockPoison s (t.pa + 64 * i)) then
        writeRecord s { hubEvent .unconsumedPoison 0 5 with ctx := s.ctxOfAsid asid, core := some p, addr := t.part.va, paddr := t.pa }
      else s
    l1Load s p t.pa 128 hint t.mt asid t.part.va
  | (.error _, s) => s

/-- PREF (R268): a fill where the translation is at hand, else a walk to come. -/
def execPref (f : Fields) (s : State) : Host.Outcome State Fault Refusal :=
  .next (issue (.pref f)
    { run := fun c =>
        .out { s := if c.s.wgDet c.wg then c.s else
                 c.act.foldl (fun s l =>
                   let va := c.addr l
                   if inTlb s c.core c.asid va then prefetchLine s c.core c.asid va c.f.hint c.warp.modeS
                   else { s with walks := s.walks ++
                            [{ core := c.core, asid := c.asid, va := va, hint := c.f.hint, modeS := c.warp.modeS }] }) c.s } } s)

/-- PAGE_WALK_COMPLETE (R148): the walk for a page ends, and every prefetch that waited for it is answered. -/
def execPageWalkComplete (asid va : Nat) (s : State) : Host.Outcome State Fault Refusal :=
  let mine (w : Walk) : Bool := w.asid = asid && w.va / 65536 = va / 65536
  .next ((s.walks.filter mine).foldl (fun s w => prefetchLine s w.core w.asid w.va w.hint w.modeS)
    { s with walks := s.walks.filter (fun w => !mine w) })

/-! ### The scratchpad and the quad window (R129 to R131, R270 to R272) -/

/-- S′ (R129). -/
def scratchLen (s : State) (wg : Nat) : Nat := roundUp (s.wgRec wg).scratch 64

/-- Bytes of a workgroup's scratchpad, and whether a word of them is poisoned. -/
def scratchRead (s : State) (wg off n : Nat) : List Byte × Bool :=
  let g := s.getWg wg
  ((List.range n).map (fun i => Sparse.get g.scratch 0 (off + i)),
   (List.range n).any (fun i => Sparse.get g.scratchPoison false ((off + i) / 4)))

/-- Write bytes of a workgroup's scratchpad; a word written whole is no longer poisoned (R478). -/
def scratchWrite (s : State) (wg off : Nat) (bs : List Byte) : State :=
  let n := bs.length
  s.modWg wg (fun g => { g with
    scratch := ((List.range n).zip bs).foldl (fun m e => Sparse.set m 0 (off + e.1) e.2) g.scratch
    scratchPoison := g.scratchPoison.filter (fun e => !(off ≤ 4 * e.1 && 4 * e.1 + 4 ≤ off + n)) })

/-- The member of the quad group at a position (R32, R131). -/
def Iss.peer (c : Iss) (q : Nat) : Nat := wgKey c.g.lslot (c.g.index - c.g.qgpos + q)

/-- The quad position of LDQ and STQ (R271). -/
def Iss.qpos (c : Iss) : Nat :=
  let qp := bits c.f.immN 19 2
  if bitB c.f.immN 18 then (c.g.qgpos + qp) % 4 else qp

/-- The scratchpad offset of a lane (R262). -/
def Iss.padOff (c : Iss) (off : Int) (l : Nat) : Nat := wrap 32 ((c.read c.f.a.toNat false l : Int) + off)

/-- The trap of scratchpad accesses (lane, position, offset) of n bytes (R472 step 2): reasons 0x06 and 0x05. -/
def padTrap (c : Iss) (n : Nat) (xs : List (Nat × Nat × Nat)) : Option Trap :=
  let info (e : Nat × Nat × Nat) : Nat := e.2.2 % 2 ^ 32 + e.2.1 % 4 * 2 ^ 32
  let mk (reason : Nat) (bad : List (Nat × Nat × Nat)) : Option Trap :=
    match bad with
    | [] => none
    | e :: _ => some { cls := 6, reason := reason, info := info e, info2 := info ((bad.getLast?).getD e)
                       fmask := laneSet ((bad.map (·.1)).dedup) }
  (mk 6 (xs.filter (fun e => c.g.qgsize ≤ e.2.1))).orElse (fun _ =>
    mk 5 (xs.filter (fun e => scratchLen c.s c.wg < e.2.2 + n)))

/-- A load from the scratchpad of the member at `q`. -/
def padLoad (c : Iss) (q : Nat) : Res :=
  let off (l : Nat) : Nat := c.padOff (offOf c.f) l
  match padTrap c c.size (c.act.map (fun l => (l, q, off l))) with
  | some t => .trap t false
  | none => putLoad c { s := c.s } c.size (c.act.map (fun l => (l, loadVal c (scratchRead c.s (c.peer q) (off l) c.size))))

/-- A command that a lane issued earlier reads scratchpad bytes that it is to write: (lane, member, offset), n bytes (R167). -/
def padSource (c : Iss) (n : Nat) (xs : List (Nat × Nat × Nat)) : Bool :=
  xs.any (fun e => beforeWrite c.s c.wg c.w e.1 ⟨some (c.peer e.2.1), e.2.2, n⟩)

/-- A store to the scratchpad of the member at `q`. -/
def padStore (c : Iss) (q : Nat) : Res :=
  let off (l : Nat) : Nat := c.padOff (offOf c.f) l
  match padTrap c c.size (c.act.map (fun l => (l, q, off l))) with
  | some t => .trap t false
  | none =>
    if padSource c c.size (c.act.map (fun l => (l, q, off l))) then .wait
    else .out { s := c.act.foldl (fun s l =>
                     scratchWrite s (c.peer q) (off l) (toLE c.size (c.data c.f.b.toNat c.size l))) c.s }

/-- LDS (R270). -/
def execLds (f : Fields) (s : State) : Host.Outcome State Fault Refusal :=
  .next (issue (.lds f) { run := fun c => padLoad c c.g.qgpos } s)
/-- STS (R270). -/
def execSts (f : Fields) (s : State) : Host.Outcome State Fault Refusal :=
  .next (issue (.sts f) { run := fun c => padStore c c.g.qgpos } s)
/-- LDQ (R271). -/
def execLdq (f : Fields) (s : State) : Host.Outcome State Fault Refusal :=
  .next (issue (.ldq f) { run := fun c => padLoad c c.qpos } s)
/-- STQ (R271). -/
def execStq (f : Fields) (s : State) : Host.Outcome State Fault Refusal :=
  .next (issue (.stq f) { run := fun c => padStore c c.qpos } s)

/-- LDMC (R272): a weak load of each lane, written at its offset in every named member's scratchpad. -/
def execLdmc (f : Fields) (s : State) : Host.Outcome State Fault Refusal :=
  .next (issue (.ldmc f)
    { run := fun c =>
        let qs := setBitsOf 4 (bits c.f.immN 17 4)
        let off (l : Nat) : Nat := c.read c.f.b.toNat false l
        let va (l : Nat) : Nat := c.ea c.f.a.toNat false (offOf c.f) l
        match padTrap c c.size (c.act.flatMap (fun l => qs.map (fun q => (l, q, off l)))) with
        | some t => .trap t false
        | none =>
          let pss := c.act.map (fun l => partsOf l (va l) c.size)
          if padSource c c.size (c.act.flatMap (fun l => qs.map (fun q => (l, q, off l)))) then .wait else
          withAccess c c.s rightR false pss.flatten (fun ts s =>
            let rs := (c.act.zip (regroup (pss.map List.length) ts)).foldl
              (fun (a : List (Nat × List Byte × Bool) × State) g =>
                let r := readParts a.2 c.wg c.core c.f.hint g.2
                (a.1 ++ [(g.1, r.1, r.2.1)], r.2.2)) ([], s)
            match rs.1.filter (fun r => r.2.2) with
            | x :: xs =>
              -- a poisoned block by a path that R479 does not name (R480)
              .trap { cls := 7, reason := 2, info := va x.1, fmask := laneSet ((x :: xs).map (·.1)) } false
            | [] =>
              .out { s := rs.1.foldl (fun s r => qs.foldl (fun s q => scratchWrite s (c.peer q) (off r.1) r.2.1) s) rs.2 }) } s)

end Sys2Proof.Machine
end

