-- ==== Sys2Proof/Machine/Stops.lean ====
section
/-!
DEFINITION. When a unit under a pending yield has stopped (R59 to R62, R439, R463).
-/

namespace Sys2Proof.Machine

open Sys2Proof

/-- No lane of the entry is between BARA and BARW: it may stop (R282). -/
def Entry.mayStop (e : Entry) (x : Warp) : Bool := (lanesOf e.mask).all (fun l => (x.lane l).arrived = [])

/-- An entry counts as stopped: it stopped at a stopping point; or it waits in ACQ.ge (R280, R463), or, under R428, for the
CHAIN alone, which stops between elements (R259) [DEDUCED; log entry 123]. -/
def Entry.halted (e : Entry) (x : Warp) : Bool :=
  (e.stopped && e.mayStop x) || (match e.wait with | .seq _ _ => true | _ => false) || (e.owed ≠ [] && e.owed.all x.isChain)

/-- An operation that does not keep a warp from being stopped: a CHAIN, which stops between elements (R259), and a
signer that is parked (R80). -/
def pendStops (x : Warp) (b : Writeback) : Bool :=
  x.isChain b.idx || (b.op = 0x31 && parkedDue ≤ b.due)

/-- A warp under a pending yield is stopped (R61, R439, R463): in mode P, every entry stopped, every register write-back
done, no request of it at a unit, and no trap that can be delivered still owed. -/
def warpStopped (s : State) (wg w : Nat) : Bool :=
  let x := s.getWarp wg w
  !x.modeS && x.table.all (fun e => e.halted x) && x.pend.all (pendStops x) && x.reports.all (fun r => (reportEntry x r).isNone) &&
  !s.atomQ.any (fun q => q.wg = wg && q.warp = w)

/-- A workgroup's warps are all stopped. -/
def wgStopped (s : State) (wg : Nat) : Bool := (s.wgWarps wg).all (warpStopped s wg)

/-- The launch is a GANG launch (R362). -/
def isGang (r : LRec) : Bool := bitB r.flags 2

/-- A workgroup is under a pending yield. -/
def Wg.stopping (g : Wg) : Bool := match g.phase with | .stopping _ _ => true | _ => false
/-- A workgroup's image stands in the save pool. -/
def Wg.isSaved (g : Wg) : Bool := match g.phase with | .saved _ _ => true | _ => false
/-- A workgroup is on its core and not ended. -/
def Wg.alive (g : Wg) : Bool := match g.phase with | .running | .stopping _ _ => true | _ => false

/-- The workgroups that are stopped and saved together (R62, R281, R375): the whole launch of a GANG launch, the quad
group, or the workgroup alone; those that exist in the phases that `p` admits. -/
def unitOf (s : State) (wg : Nat) (p : Wg → Bool) : List Nat :=
  let g := s.getWg wg
  let same (e : Nat × Wg) : Bool :=
    e.2.lslot = g.lslot && (isGang (s.wgRec wg) || e.1 = wg ||
      (1 < g.qgsize && e.2.index / max 1 (s.wgRec wg).qgs = g.index / max 1 (s.wgRec wg).qgs))
  ((s.wgs.filter (fun e => same e && p e.2)).map (·.1))

/-- Every workgroup of the unit is stopped. -/
def unitStopped (s : State) (wg : Nat) : Bool :=
  (s.getWg wg).stopping && (unitOf s wg Wg.alive).all (wgStopped s)

/-- The matrix engine of a core is to pause after its native step (R62, R317): its owner's unit has stopped. -/
def enginePauses (s : State) (core : Nat) : Bool :=
  match (s.getCore core).mx.owner with
  | some wg => unitStopped s wg
  | none => false

end Sys2Proof.Machine
end

