-- ==== Sys2Proof/Machine/Atomics.lean ====
section
/-!
DEFINITION. Atomics, reductions, reservations and pair updates: OP 0x22 and STPAIR (R141, R142, R145, R164, R269, R273 to
R277), with the order gate and its log (R180 to R183, R483, R484, R541).
-/

namespace Sys2Proof.Machine

open Sys2Proof

/-! ### The operations (R274, R275) -/

/-- The new value of an integer operation on w bits; none when `.cas` does not write. -/
def atomInt (aop w old b c : Nat) : Option Nat :=
  let sg (x : Nat) : Int := signed w x
  match aop with
  | 0 => some ((old + b) % 2 ^ w)
  | 1 => some (if sg b < sg old then b else old)
  | 2 => some (min old b)
  | 3 => some (if sg old < sg b then b else old)
  | 4 => some (max old b)
  | 5 => some (old &&& b)
  | 6 => some (old ||| b)
  | 7 => some (old ^^^ b)
  | 8 => some b
  | _ => if old = b then some c else none

/-- A binary32 reduction (R141, R275): the sum, the minimum or the maximum, independent of `amr`. -/
def atomF32 (aop old b : Nat) : Nat :=
  let x := decodeVal old f32
  let y := decodeVal b f32
  match aop with
  | 0 => (roundVal f32 (addVal false x y).1 0).1
  | 1 => (roundVal f32 (minMaxVal false x y) 0).1
  | _ => (roundVal f32 (minMaxVal true x y) 0).1

/-- The new value a request writes over `old`, if it writes. -/
def AtomReq.newVal (q : AtomReq) (old : Nat) : Option Nat :=
  match q.kind with
  | 0 | 4 => atomInt q.aop (8 * q.size) old q.b q.c
  | 1 | 5 => some (atomF32 q.aop old q.b)
  | _ => some q.b

/-! ### The order gate and its log (R180 to R183, R541) -/

/-- Requester group (R180). -/
def groupOf (index gbase : Nat) : Nat := if gbase ≤ index && index - gbase ≤ 254 then index - gbase else 255

/-- Bytes with the rights of Kettle firmware, as a workgroup sees them (R173, R541). -/
def logRead (s : State) (wg asid va n : Nat) : Option (List Byte) :=
  if s.wgDet wg then
    if kettleMapped s asid va n then
      some ((List.range n).map (fun i => ((kettlePa s asid (va + i)).map (fun pa => detByte s wg pa)).getD 0))
    else none
  else kettleRead s asid va n

/-- The header of a log: RECN, PLAYN, STAT; none where the log has no translation (R541). -/
def logHeader (s : State) (wg asid log : Nat) : Option (Nat × Nat × Nat) :=
  (logRead s wg asid log 20).map (fun b => (leAt b 0 8, leAt b 8 8, leAt b 16 4))

/-- Chunk `i` of a log: GRP and RUN. -/
def logChunk (s : State) (wg asid log i : Nat) : Option (Nat × Nat) :=
  (logRead s wg asid (log + 0x40 + 4 * i) 4).map (fun b => (leAt b 3 1, leAt b 0 3))

/-- What logging one request of a group does in record mode (R182, R541). -/
inductive LogPlan where
  /-- the log is full already -/
  | closed
  /-- the log is found full -/
  | full
  /-- chunk `i` is written with GRP and RUN; `recn` is RECN after it -/
  | put (i run recn : Nat)
  /-- the log cannot be reached -/
  | lost
  deriving DecidableEq, Repr

def logPlan (s : State) (wg asid : Nat) (r : Region) (grp : Nat) : LogPlan :=
  match logHeader s wg asid r.log with
  | none => .lost
  | some (recn, _, stat) =>
    let fresh : LogPlan :=
      if r.logn ≤ recn then .full
      else if kettleMapped s asid (r.log + 0x40 + 4 * recn) 4 then .put recn 1 (recn + 1) else .lost
    if bitB stat 0 then .closed
    else if recn = 0 then fresh
    else match logChunk s wg asid r.log (recn - 1) with
      | none => .lost
      | some (g, run) => if g = grp && run < 0xFFFFFF then .put (recn - 1) (run + 1) recn else fresh

/-- What the gate says of a request. -/
inductive Admission where
  /-- performed, with nothing to log -/
  | plain
  /-- performed, then logged in record mode -/
  | record
  /-- performed in replay, against chunk PLAYN -/
  | replay
  /-- performed in replay past the last chunk -/
  | exhausted
  /-- performed, the log being out of reach -/
  | lost
  /-- it waits at the gate -/
  | waits
  deriving DecidableEq, Repr

/-- The requester group of a request for a region (R180). -/
def AtomReq.group (q : AtomReq) (s : State) (r : Region) : Nat := groupOf (s.getWg q.wg).index r.gbase

/-- The gate's decision on a request (R182, R183); an entry that has been changed since the issue gates it no more. -/
def admission (s : State) (q : AtomReq) : Admission :=
  match q.region with
  | none => .plain
  | some n =>
    let x := s.getCtx q.ctx
    let r := x.regions.get Region.init n
    if !r.valid || r.rrm = 0 || q.va < r.base || r.base + r.size ≤ q.va then .plain
    else if r.rrm = 1 then (if logPlan s q.wg x.asid r (q.group s r) = .lost then .lost else .record)
    else
      match logHeader s q.wg x.asid r.log with
      | none => .lost
      | some (recn, playn, _) =>
        if recn ≤ playn then .exhausted
        else
          match logChunk s q.wg x.asid r.log playn with
          | none => .lost
          | some (grp, _) => if grp = q.group s r then .replay else .waits

/-- Write a log header field or chunk; a log out of reach leaves the state as it is. -/
def logPut (s : State) (asid va : Nat) (bs : List Byte) : State := (kettleWrite s asid va bs).getD s

/-- Log one performed request in record mode (R182), with the report of a full log (R483). -/
def logRecord (s : State) (q : AtomReq) (n : Nat) : State :=
  let x := s.getCtx q.ctx
  let r := x.regions.get Region.init n
  let grp := q.group s r
  match logPlan s q.wg x.asid r grp, logHeader s q.wg x.asid r.log with
  | .put i run recn, _ =>
    logPut (logPut s x.asid (r.log + 0x40 + 4 * i) (toLE 4 (run + grp * 2 ^ 24))) x.asid r.log (toLE 8 recn)
  | .full, some (_, _, stat) =>
    (logPut s x.asid (r.log + 16) (toLE 4 (stat ||| 1))).modWarp q.wg q.warp (fun w =>
      w.report { w.newReport 0xA05 n 0 (laneSet [q.lane]) (laneSet [q.lane]) 0 with order := q.idx })
  | _, _ => s

/-- Count one admission in replay (R183). -/
def logReplay (s : State) (q : AtomReq) (n : Nat) : State :=
  let x := s.getCtx q.ctx
  let r := x.regions.get Region.init n
  match logHeader s q.wg x.asid r.log with
  | none => s
  | some (recn, playn, stat) =>
    let run := ((logChunk s q.wg x.asid r.log playn).map (·.2)).getD 0
    let done : Bool := run ≤ r.taken + 1
    let r' : Region := { r with taken := if done then 0 else r.taken + 1, lastAdmit := s.now }
    let s := s.modCtx q.ctx (fun c => { c with regions := c.regions.put n r' })
    if !done then s
    else
      let s := logPut s x.asid (r.log + 8) (toLE 8 (playn + 1))
      if recn ≤ playn + 1 then logPut s x.asid (r.log + 16) (toLE 4 (stat ||| 2)) else s

/-- The log of a replay has come to its end (R183). -/
def logEnd (s : State) (q : AtomReq) (n : Nat) : State :=
  let x := s.getCtx q.ctx
  let r := x.regions.get Region.init n
  match logHeader s q.wg x.asid r.log with
  | some (_, _, stat) => if bitB stat 1 then s else logPut s x.asid (r.log + 16) (toLE 4 (stat ||| 2))
  | none => s

/-! ### Performing a request (R141, R142, R276, R277) -/

/-- The block of a request is poisoned (R479). -/
def atomPoison (s : State) (q : AtomReq) : Bool := blockPoison s q.pa || (q.kind = 6 && blockPoison s q.twin)

/-- The core's copies of a line leave its L1, dirty bytes written back first (R152). -/
def ownLine (s : State) (wg pa : Nat) : State := dropLines s (s.getWg wg).core (inLine (pa / 128))

/-- A record of class 0x0C about poison at an address (R479). -/
def poisonRecord (s : State) (wg va pa : Nat) : State :=
  writeRecord s { wgEvent s wg .poisonedRequest 1 1 with addr := va, paddr := pa }

/-- Change a lane of the request's warp. -/
def AtomReq.onLane (q : AtomReq) (s : State) (f : Lane → Lane) : State :=
  s.modWarp q.wg q.warp (fun w => w.modLane q.lane f)

/-- Write a request's new value, counted in the store hash (R184): of a reduction the operand, else the value. -/
def atomStore (s : State) (q : AtomReq) (pa va v : Nat) : State :=
  let s := l2Write s pa (toLE q.size v)
  addHash s q.wg va (toLE q.size (if q.kind = 4 || q.kind = 5 then q.b else v))

/-- The masked bytes of a store that waited at its unit. -/
def AtomReq.bytes (q : AtomReq) : List (Byte × Byte) := (toLE q.size q.b).zip (toLE q.size q.c)

/-- Perform one request at its unit, poison apart: the result for its registers. -/
def atomRun (s : State) (q : AtomReq) : Nat × State :=
  if q.kind = 8 then (0, writeback s q.idx (fun a => a / 32 = q.pa / 32))
  else
  let s := ownLine s q.wg q.pa
  let old := memNat s q.pa q.size
  let g := q.pa / 32
  match q.kind with
  | 2 =>
    let s := q.onLane s (fun l => { l with resv := some g })
    let s : State := { s with holdsLR := s.holdsLR.filter (fun h => h.lasts s) }
    let h : LrHold := { granule := g, wg := q.wg, warp := q.warp }
    (old, if q.region.isSome || (s.holder g).isSome then s else { s with holdsLR := s.holdsLR ++ [h] })
  | 3 =>
    let ok := ((s.getWarp q.wg q.warp).lane q.lane).resv = some g
    let s := q.onLane s (fun l => { l with resv := none, sinceLR := 0 })
    (b2n ok, if ok then atomStore s q q.pa q.va q.b else s)
  | 6 =>
    -- a pair update (R145): both copies, each from its own old value
    let s := ownLine s q.wg q.twin
    let new (old : Nat) : Nat := if q.aop = 1 then atomF32 0 old q.b else q.b
    let old2 := memNat s q.twin q.size
    (old, atomStore (atomStore s q q.pa q.va (new old)) q q.twin q.twinVa (new old2))
  | 7 => (old, mergeBytes s q.pa q.bytes)
  | 9 => (old, l2Write s q.pa (toLE q.size (old + q.b)))
  | _ =>
    match q.newVal old with
    | some v => (old, atomStore s q q.pa q.va v)
    | none =>
      -- a `.cas` that does not write still clears reservations (R142)
      (old, clearResv s q.pa (fun wg => !s.wgDet wg))

/-- Lay a late result down in an output stream (R253), none for a poisoned one; and how many stores of it wait at their unit. -/
def putLate (s : State) (q : AtomReq) (r : Option Nat) : State × Nat :=
  let core := (s.getWg q.wg).core
  match r with
  | some x => fillPuts s q.wg q.warp core q.idx q.lane q.late x
  | none => (poisonPuts s core q.late, 0)

/-- Give a request's result to the operation that waits for it. -/
def atomDeliver (s : State) (q : AtomReq) (r : Option Nat) : State :=
  let x := putLate s q r
  x.1.modWarp q.wg q.warp (fun w => { w with pend := w.pend.map (fun b => if b.idx = q.idx then
    { b with writes := b.writes ++ resultWrites q.dst r, awaits := b.awaits + x.2 - 1, due := max b.due (s.now + 1) } else b) })

/-- The request is not performed: its block is poisoned (R479). -/
def AtomReq.refused (q : AtomReq) (s : State) : Bool := q.kind ≤ 6 && atomPoison s q

/-- Perform a request and deliver its result, without log or gate. -/
def performRaw (s : State) (q : AtomReq) : State :=
  if q.kind = 8 then (atomRun s q).2
  else if q.refused s then
    let s := atomDeliver s q none
    if 4 ≤ q.kind then poisonRecord s q.wg q.va q.pa else s
  else
    let r := atomRun s q
    atomDeliver r.2 q (some r.1)

/-- The requests that have reached the gate of an entry, in arrival order. -/
def atGate (s : State) (ctx n : Nat) : List AtomReq :=
  (s.atomQ.filter (fun q => q.ctx = ctx && q.region = some n && q.due ≤ s.now)).mergeSort (fun a b => a.due ≤ b.due)

/-- Requests that wait at a region's gate are performed unlogged, in arrival order (R180). -/
def drainGate (s : State) (ctx n : Nat) : State :=
  (atGate s ctx n).foldl performRaw
    { s with atomQ := s.atomQ.filter (fun q => !(q.ctx = ctx && q.region = some n && q.due ≤ s.now)) }

/-- A log that cannot be reached any more (R541): the region's mode goes off, its waiting requests are admitted unlogged, and the
launch of the requesting workgroup is failed with reason 0x09. -/
def logLost (s : State) (ctx n wg : Nat) : State :=
  let r := (s.getCtx ctx).regions.get Region.init n
  let r' : Region := { r with rrm := 0 }
  let s := drainGate (s.modCtx ctx (fun c => { c with regions := c.regions.put n r' })) ctx n
  failLaunch s (s.getWg wg).lslot { wgErr s wg 0x0A 9 3 3 with addr := r.log, detail := n }

/-- What the gate does once it has let a request through: what is performed is logged, what is admitted counts. -/
def afterAdmission (s : State) (q : AtomReq) (performed : Bool) (a : Admission) : State :=
  match a, q.region with
  | .record, some n => if performed then logRecord s q n else s
  | .replay, some n => logReplay s q n
  | .exhausted, some n => logEnd s q n
  | .lost, some n => logLost s q.ctx n q.wg
  | _, _ => s

/-- Perform a request as its gate admits it. -/
def atomPerform (s : State) (q : AtomReq) : State := afterAdmission (performRaw s q) q (!q.refused s) (admission s q)

/-- The lines of a request. -/
def AtomReq.lines (q : AtomReq) : List Nat := if q.kind = 6 then [q.pa / 128, q.twin / 128] else [q.pa / 128]
/-- Two requests of a warp keep their order: for a line of both, or in a gated region (R141, R180). -/
def AtomReq.ordered (p q : AtomReq) : Bool :=
  p.wg = q.wg && p.warp = q.warp &&
  (p.lines.any (fun l => q.lines.contains l) || (p.region.isSome && p.region = q.region && p.ctx = q.ctx))

/-- The granules of a request are held by another warp, or a write-back of its line comes first that a hold keeps (R152, R277). -/
def AtomReq.heldUp (q : AtomReq) (s : State) : Bool :=
  let at_ (pa : Nat) : Bool := s.heldFrom pa q.size q.wg q.warp ||
    (q.kind ≠ 8 && lineHeld s (s.getWg q.wg).core pa q.wg q.warp)
  s.holdsLR ≠ [] && (at_ q.pa || (q.kind = 6 && at_ q.twin))

/-- Request `i` of the queue may be performed: it has arrived, the gate admits it, no earlier request of its warp must come
first, and no hold keeps it waiting (R141, R183, R277). -/
def atomReady (s : State) (i : Nat) : Bool :=
  match s.atomQ[i]? with
  | none => false
  | some q =>
    q.due ≤ s.now && admission s q ≠ .waits && !((s.atomQ.take i).any (fun p => p.ordered q)) && !q.heldUp s

/-- The request of the queue that is performed next: of those that may be, the one that arrived first. -/
def nextAtom (s : State) : Option Nat :=
  let due (i : Nat) : Nat := ((s.atomQ[i]?).map (·.due)).getD 0
  ((List.range s.atomQ.length).filter (atomReady s)).foldl (fun (a : Option Nat) i =>
    match a with
    | none => some i
    | some j => if due i < due j then some i else a) none

/-- LR_HOLD_EXPIRY (R277, R289): a lane with the reservation has issued its seventeenth instruction after the LR, or a yield has
stopped the warp. -/
def holdExpired (s : State) (h : LrHold) : Bool :=
  (s.getWarp h.wg h.warp).lanes.any (fun x => x.2.resv = some h.granule && 19 ≤ x.2.sinceLR) ||
  ((s.getWarp h.wg h.warp).yp && warpStopped s h.wg h.warp)
def execLrHoldExpiry (granule : Nat) (s : State) : Host.Outcome State Fault Refusal :=
  .next { s with holdsLR := s.holdsLR.filter (fun h => !(h.granule = granule && holdExpired s h)) }

/-- REPLAY_DIVERGENCE (R484): the gate of entry `entry` can admit nothing more, and a request waits there, whose launch fails.
[DEDUCED; log entry 141] -/
def diverged (s : State) (ctx n : Nat) : Bool :=
  let x := s.getCtx ctx
  let r := x.regions.get Region.init n
  let mine := atGate s ctx n
  r.valid && r.rrm = 2 &&
  (match kettleRead s x.asid r.log 16 with
   | none => false
   | some h =>
     leAt h 8 8 < leAt h 0 8 &&
     (match mine, kettleRead s x.asid (r.log + 0x40 + 4 * leAt h 8 8) 4 with
      | q :: _, some c =>
        mine.all (fun q => admission s q = .waits) &&
        (r.lastAdmit + 420000 ≤ s.now ||
          (let l := s.getLaunch (s.getWg q.wg).lslot
           ((launchWgs s (s.getWg q.wg).lslot).filter (fun i => groupOf i r.gbase = leAt c 3 1)).all (fun i =>
             l.done.get false i || l.gone.contains i)))
      | _, _ => false))
def execReplayDivergence (ctx entry : Nat) (s : State) : Host.Outcome State Fault Refusal :=
  .next (if !diverged s ctx entry then s
    else
      let x := s.getCtx ctx
      let r := x.regions.get Region.init entry
      let playn := ((kettleRead s x.asid (r.log + 8) 8).map ofLE).getD 0
      match (atGate s ctx entry).head? with
      | some q =>
        let lslot := (s.getWg q.wg).lslot
        let s := { s with atomQ := s.atomQ.filter (fun p => !(p.ctx = ctx && p.region = some entry &&
          (s.getWg p.wg).lslot = lslot)) }
        failLaunch s lslot { wgErr s q.wg 0x0A 6 3 3 with addr := r.base, detail := playn % 2 ^ 32 }
      | none => s)

/-! ### Requests of an instruction -/

/-- OFF of R273. -/
def Iss.aOff (c : Iss) : Int := signed 13 (bits c.f.immN 0 13)
/-- The global address of a lane's atomic. -/
def Iss.atomVa (c : Iss) (l : Nat) : Nat := c.ea c.f.a.toNat c.f.xh c.aOff l
/-- The region entry that gates an address (R180). -/
def gateOf (s : State) (ctx va : Nat) : Option Nat :=
  match (s.getCtx ctx).regionAt va with
  | some (n, r) => if r.rrm = 1 || r.rrm = 2 then some n else none
  | none => none

/-- One lane's request. -/
def Iss.request (c : Iss) (kind : Nat) (t : TPart) (l : Nat) (keys : List RegKey) : AtomReq :=
  { wg := c.wg, warp := c.w, lane := l, idx := c.warp.nextIdx, pa := t.pa, va := t.part.va, kind := kind, size := c.size,
    aop := c.f.aop, b := c.data c.f.b.toNat c.size l,
    c := if c.f.aop = 9 then c.data c.f.c.toNat c.size l else 0,
    twin := 0, twinVa := 0, dst := keys, late := [], due := c.s.now, ctx := c.ctx, region := gateOf c.s c.ctx t.part.va }

/-- A reduction of a deterministic workgroup (R174): buffered, or applied after its release (R177). -/
def detReduce (s : State) (wg : Nat) (r : DetRed) : State :=
  let g := s.getWg wg
  if g.det.direct then
    let old := memNat s r.pa r.size
    let v := if r.float then atomF32 r.aop old r.val else (atomInt r.aop (8 * r.size) old r.val 0).getD old
    let s := (List.range r.size).foldl (fun s i => s.modLaunch g.lslot (fun l => noteWriter l (r.pa + i) g.index false)) s
    l2Write s r.pa (toLE r.size v)
  else
    s.modWg wg (fun g =>
      let d := { g.det with reds := g.det.reds ++ [r] }
      { g with det := { d with used := detUsed d } })

/-- One lane's request in a deterministic launch, on the workgroup's view (R173, R290): the result and the state. -/
def detRun (s : State) (q : AtomReq) : Nat × State :=
  let old := ofLE ((List.range q.size).map (fun i => detByte s q.wg (q.pa + i)))
  let put (s : State) (pa va v : Nat) : State :=
    addHash (detWrite s q.wg ⟨⟨q.lane, va, q.size⟩, pa, 0⟩ (fullMask (toLE q.size v))) q.wg va (toLE q.size v)
  let red (float : Bool) : State :=
    addHash (detReduce s q.wg { pa := q.pa, va := q.va, size := q.size, aop := q.aop, float := float, val := q.b
                                tid := 32 * q.warp + q.lane, engine := false }) q.wg q.va (toLE q.size q.b)
  match q.kind with
  | 2 =>
    let s := q.onLane s (fun l => { l with resv := some (q.pa / 32) })
    let h : LrHold := { granule := q.pa / 32, wg := q.wg, warp := q.warp }
    (old, { s with holdsLR := s.holdsLR.filter (fun x => x.lasts s && x ≠ h) ++ [h] })
  | 3 =>
    let ok := ((s.getWarp q.wg q.warp).lane q.lane).resv = some (q.pa / 32)
    let s := q.onLane s (fun l => { l with resv := none, sinceLR := 0 })
    (b2n ok, if ok then put s q.pa q.va q.b else s)
  | 4 => (old, red false)
  | 5 => (old, red true)
  | 6 =>
    let new (old : Nat) : Nat := if q.aop = 1 then atomF32 0 old q.b else q.b
    let old2 := ofLE ((List.range q.size).map (fun i => detByte s q.wg (q.twin + i)))
    (old, put (put s q.pa q.va (new old)) q.twin q.twinVa (new old2))
  | _ =>
    match q.newVal old with
    | some v => (old, put s q.pa q.va v)
    | none => (old, clearResv s q.pa (· = q.wg))

/-- A request of a deterministic workgroup writes memory, as its view stands: an SC that fails and a `.cas` that does not match
write nothing (R176). -/
def detWrites (s : State) (q : AtomReq) : Bool :=
  match q.kind with
  | 2 => false
  | 3 => ((s.getWarp q.wg q.warp).lane q.lane).resv = some (q.pa / 32)
  | 0 => (q.newVal (ofLE ((List.range q.size).map (fun i => detByte s q.wg (q.pa + i))))).isSome
  | _ => true

/-- The parts that a request writes. -/
def AtomReq.wparts (q : AtomReq) : List TPart :=
  ⟨⟨q.lane, q.va, q.size⟩, q.pa, 0⟩ :: (if q.kind = 6 then [⟨⟨q.lane, q.twinVa, q.size⟩, q.twin, 0⟩] else [])

/-- Perform requests one after another on a workgroup's view: results by lane, none on a poisoned block (R479); the parts written;
and the state. -/
def detAll (s : State) (qs : List AtomReq) : List (Nat × Option Nat) × List TPart × State :=
  qs.foldl (fun (a : List (Nat × Option Nat) × List TPart × State) q =>
    let s := a.2.2
    if atomPoison s q then
      (a.1 ++ [(q.lane, none)], a.2.1, if 4 ≤ q.kind then poisonRecord s q.wg q.va q.pa else s)
    else
      let r := detRun s q
      (a.1 ++ [(q.lane, some r.1)], a.2.1 ++ (if detWrites s q then q.wparts else []), r.2)) ([], [], s)

/-- Put requests in the queue: each reaches its unit some cycles later, after those of its warp that it follows (R141). -/
def enqueueAtoms (s : State) (qs : List AtomReq) : State :=
  qs.foldl (fun s q =>
    let due := ((s.atomQ.filter (fun p => p.ordered q)).map (·.due)).foldl max (s.now + Config.delay (s.free + 1))
    { s with free := s.free + 1, atomQ := s.atomQ ++ [{ q with due := due }] }) s

/-- A request goes to a region in record mode: it may find the log full, and the trap for that comes before any later issue of its
entry, which waits for the request therefore (R426, R483). [DEDUCED; log entry 140] -/
def inRecordMode (s : State) (q : AtomReq) : Bool :=
  match q.region with
  | some n => ((s.getCtx q.ctx).regions.get Region.init n).rrm = 1
  | none => false

/-- An instruction's requests: in a deterministic launch performed on the view at once, else queued; the results for an output
stream have their places there from the issue (R253). -/
def sendRequests (c : Iss) (s : State) (qs : List AtomReq) (reds : Nat) : Res :=
  let d := c.f.d.toNat
  if c.s.wgDet c.wg then
    if qs.any (fun q => q.wparts.any (fun t => s.heldWithin t.pa t.part.n c.wg (· ≠ c.w))) then .wait
    else withRoom c s (detAll s qs).2.1 reds (fun s =>
      let r := detAll s qs
      if isS d then appendStream c { s := r.2.2 } (d - 96) r.1
      else .out { s := r.2.2, writes := ((qs.zip r.1).flatMap (fun e => resultWrites e.1.dst e.2.2)) })
  else if isS d then
    match reserveAppend c s (d - 96) (qs.map (·.lane)) with
    | .error r => r
    | .ok (ps, _, s) =>
      .out { s := enqueueAtoms s (qs.map (fun q => { q with late := (ps.filter (fun p => p.1 = q.lane)).map (·.2) }))
             awaits := qs.length, stays := qs.any (inRecordMode s) }
  else
    .out { s := enqueueAtoms s qs, writes := qs.flatMap (fun q => resultWrites q.dst (some 0)), awaits := qs.length
           stays := qs.any (inRecordMode s) }

/-- The registers that lane `l`, the `i`-th active one, writes. -/
def Iss.resultKeys (c : Iss) (n i l : Nat) : List RegKey :=
  let d := c.f.d.toNat
  if isK d && i ≠ 0 then [] else loadKeys c.warp l d n

/-- The requests of a global atomic of a kind. -/
def globalAtom (c : Iss) (kind : Nat) (r : Right) (obj : Bool) (hasD : Bool) : Res :=
  match alignTrap (c.act.map (fun l => (l, c.atomVa l))) c.size with
  | some t => .trap t false
  | none =>
    withReach c c.s r obj (c.act.map (fun l => ⟨l, c.atomVa l, c.size⟩)) (fun ts s =>
      let n := if kind = 3 then 4 else c.size
      let qs := ((List.range c.act.length).zip (c.act.zip ts)).map (fun e =>
        c.request kind e.2.2 e.2.1 (if hasD then c.resultKeys n e.1 e.2.1 else []))
      -- LR and SC act on memory of type 00 or 01 only (R276)
      match (if kind = 2 || kind = 3 then memTrap ((ts.filter (fun t => t.mt = 2)).map (fun t => (t.part, 7))) else none) with
      | some t => .trap t false
      | none => sendRequests c s qs (if kind = 4 || kind = 5 then qs.length else 0))

/-- An atomic on a scratchpad (R131, R273): performed at once, lanes in ascending order. -/
def padAtom (c : Iss) (hasD : Bool) (new : Nat → Nat → Option Nat) : Res :=
  let q := if c.f.spc = 2 then c.f.qp13 else c.g.qgpos
  let off (l : Nat) : Nat := c.padOff c.aOff l
  match (alignTrap (c.act.map (fun l => (l, off l))) c.size).orElse (fun _ =>
      padTrap c c.size (c.act.map (fun l => (l, q, off l)))) with
  | some t => .trap t false
  | none =>
    match c.act.filter (fun l => (scratchRead c.s (c.peer q) (off l) c.size).2) with
    | l :: ls =>
      -- a poisoned word by a path that R479 does not name (R480)
      .trap { cls := 7, reason := 3, info := off l + q * 2 ^ 32, fmask := laneSet (l :: ls) } false
    | [] =>
      if padSource c c.size (c.act.map (fun l => (l, q, off l))) then .wait else
      let r := c.act.foldl (fun (a : List (Nat × Option Nat) × State) l =>
        let old := ofLE (scratchRead a.2 (c.peer q) (off l) c.size).1
        (a.1 ++ [(l, some old)],
         match new l old with
         | some v => scratchWrite a.2 (c.peer q) (off l) (toLE c.size v)
         | none => a.2)) ([], c.s)
      if hasD then putLoad c { s := r.2 } c.size r.1 else .out { s := r.2 }

/-- An integer atomic. -/
def intAtom (c : Iss) (kind : Nat) (r : Right) (hasD : Bool) : Res :=
  if c.f.spc = 0 then globalAtom c kind r true hasD
  else padAtom c hasD (fun l old => atomInt c.f.aop (8 * c.size) old (c.data c.f.b.toNat c.size l)
    (if c.f.aop = 9 then c.data c.f.c.toNat c.size l else 0))
/-- A binary32 atomic. -/
def floatAtom (c : Iss) (kind : Nat) (r : Right) (hasD : Bool) : Res :=
  if c.f.spc = 0 then globalAtom c kind r true hasD
  else padAtom c hasD (fun l old => some (atomF32 c.f.aop old (c.data c.f.b.toNat 4 l)))

/-- ATOM (R274). -/
def execAtom (f : Fields) (s : State) : Host.Outcome State Fault Refusal :=
  .next (issue (.atom f) { run := fun c => intAtom c 0 rightRW true } s)
/-- ATOMF (R275). -/
def execAtomf (f : Fields) (s : State) : Host.Outcome State Fault Refusal :=
  .next (issue (.atomf f) { run := fun c => floatAtom c 1 rightRW true } s)
/-- RED (R274). -/
def execRed (f : Fields) (s : State) : Host.Outcome State Fault Refusal :=
  .next (issue (.red f) { run := fun c => intAtom c 4 rightW false } s)
/-- REDF (R275). -/
def execRedf (f : Fields) (s : State) : Host.Outcome State Fault Refusal :=
  .next (issue (.redf f) { run := fun c => floatAtom c 5 rightW false } s)
/-- LR (R276): the lane's earlier reservation goes at once. -/
def execLr (f : Fields) (s : State) : Host.Outcome State Fault Refusal :=
  .next (issue (.lr f)
    { run := fun c =>
        match globalAtom c 2 rightRW false true with
        | .out o => .out { o with s := o.s.modWarp c.wg c.w (fun w => c.act.foldl (fun w l =>
            w.modLane l (fun x => { x with resv := if c.s.wgDet c.wg then x.resv else none, sinceLR := 1 })) w) }
        | r => r } s)
/-- SC (R276). -/
def execSc (f : Fields) (s : State) : Host.Outcome State Fault Refusal :=
  .next (issue (.sc f) { run := fun c => globalAtom c 3 rightRW true true } s)

/-- The twin address of STPAIR (R269). -/
def Iss.twinVa (c : Iss) (l : Nat) : Nat := c.ea c.f.c.toNat c.f.xh 0 l

/-- STPAIR (R269): one pair update per lane. -/
def execStpair (f : Fields) (s : State) : Host.Outcome State Fault Refusal :=
  .next (issue (.stpair f)
    { run := fun c =>
        match alignTrap (c.act.flatMap (fun l => [(l, c.addr l), (l, c.twinVa l)])) c.size with
        | some t => .trap t false
        | none =>
          withReach c c.s rightRW true (c.act.flatMap (fun l => [⟨l, c.addr l, c.size⟩, ⟨l, c.twinVa l, c.size⟩]))
            (fun ts s =>
              match memTrap ((ts.filter (fun t => t.mt = 2)).map (fun t => (t.part, 7))) with
              | some t => .trap t false
              | none =>
                let qs := (c.act.zip (regroup (c.act.map (fun _ => 2)) ts)).filterMap (fun e =>
                  match e.2 with
                  | [t, u] => some { c.request 6 t e.1 [] with
                      aop := b2n c.f.sx, c := 0, twin := u.pa, twinVa := u.part.va, region := none }
                  | _ => none)
                sendRequests c s qs 0) } s)

end Sys2Proof.Machine
end

