-- ==== Sys2Proof/Machine/Sync.lean ====
section
/-!
DEFINITION. Fences, regions, acquire and release, barriers, record and replay modes, and cache control: OP 0x23 and 0x24
(R155 to R163, R278 to R288).
-/

namespace Sys2Proof.Machine

open Sys2Proof

/-! ### Fences (R155, R156, R279) -/

/-- An access of an active lane is not yet complete, or a CHAIN is under way: visible(S) does not hold (R155). -/
def memPending (c : Iss) : Bool :=
  c.warp.pend.any (fun b => (b.lanes &&& c.amask) ≠ 0 &&
    (b.awaits ≠ 0 || (b.isVar && 0x20 ≤ b.op && b.op ≤ 0x24) || b.reads.any (fun k => match k with | .s _ => true | _ => false)))

/-- The first two steps of R156 at a scope: the state after them, or, while they must wait, the state that waits. -/
def fenceFirst (c : Iss) (s : State) (sco : Nat) : Except State State :=
  if memPending c then .error (retry c)
  else if wideScope sco then
    (if writebackHeld s c.core (fun _ => true) then .error (sendWritebacks (retry c) c.core (fun _ => true))
     else .ok (writebackAll s c.core))
  else .ok s

/-- FENCE (R279). -/
def execFence (f : Fields) (s : State) : Host.Outcome State Fault Refusal :=
  .next (issue (.fence f)
    { run := fun c =>
        match fenceFirst c c.s c.f.sco with
        | .error s => .other s
        | .ok s => .out { s := if wideScope c.f.sco then dropAll s c.core else s } } s)

/-! ### Ranges of virtual addresses in physical memory -/

/-- The physical pieces of a virtual range, pages without a translation left out. -/
def physRanges (s : State) (p asid va n : Nat) : List (Nat × Nat) :=
  (pagesOf va n).filterMap (fun page =>
    let lo := max page va
    let hi := min (page + 65536) (va + n)
    match (translate s p asid (lo % 2 ^ 80)).1 with
    | .ok e => some (e.pa + lo % 2 ^ e.size, hi - lo)
    | .error _ => none)

/-- A byte lies in a piece. -/
def inPieces (ps : List (Nat × Nat)) (a : Nat) : Bool := ps.any (fun e => e.1 ≤ a && a < e.1 + e.2)
/-- The line of a byte meets a piece. -/
def lineInPieces (ps : List (Nat × Nat)) (a : Nat) : Bool :=
  ps.any (fun e => e.1 / 128 ≤ a / 128 && a / 128 ≤ (e.1 + e.2 - 1) / 128)

/-! ### The region table (R158 to R160, R283) -/

/-- The entry number n. -/
def Iss.rn (c : Iss) : Nat := bits c.f.immN 20 8
/-- Entry n of the context's region table, as the workgroup sees it (R173). -/
def Iss.region (c : Iss) : Region := (c.s.ctxView c.wg).regions.get Region.init c.rn

/-- Set an entry of the region table; an invalid entry is not listed. -/
def setRegion (s : State) (ctx n : Nat) (r : Region) : State :=
  s.modCtx ctx (fun x => { x with regions := x.regions.set Region.init n r })

/-- A workgroup sets an entry: within an interval of a deterministic launch, in its view until it merges (R173). -/
def putRegion (c : Iss) (s : State) (r : Region) : State :=
  if s.wgDet c.wg then s.modWg c.wg (fun g => { g with det := { g.det with regions := g.det.regions.put c.rn r } })
  else setRegion s c.ctx c.rn r
/-- Requests at the gate of the entry are performed before it changes (R180). -/
def passGate (c : Iss) (s : State) : State := if s.wgDet c.wg then s else drainGate s c.ctx c.rn

/-- The fault of a BIND (R159, R160, R481). -/
def bindTrap (c : Iss) (base size obj : Nat) : Option Trap :=
  let m := laneSet [c.l0]
  if base % 64 ≠ 0 || size % 64 ≠ 0 || size = 0 || obj % 64 ≠ 0 || 2 ^ 80 < base + size then
    some { cls := 0x0A, reason := 1, info := base, info2 := obj, fmask := m }
  else if base ≤ obj && obj < base + size then
    some { cls := 0x0A, reason := 2, info := base, info2 := c.rn, fmask := m }
  else
    match List.find? (fun (e : Nat × Region) =>
        overlaps base size e.2.base e.2.size || (base ≤ e.2.obj && e.2.obj < base + size) ||
        (e.2.base ≤ obj && obj < e.2.base + e.2.size)) (c.s.ctxView c.wg).validRegions with
    | some e => some { cls := 0x0A, reason := 2, info := base, info2 := e.1, fmask := m }
    | none => none

/-- BIND (R283). -/
def execBind (f : Fields) (s : State) : Host.Outcome State Fault Refusal :=
  .next (issue (.bind f)
    { state := fun c => if c.region.valid then [c.badState 0x0E c.rn c.amask] else []
      run := fun c =>
        let xh := bitB c.f.immN 19
        let base := c.ea c.f.a.toNat xh 0 c.l0
        let size := c.read c.f.b.toNat true c.l0
        let obj := c.ea c.f.c.toNat xh 0 c.l0
        match bindTrap c base size obj with
        | some t => .trap t false
        | none =>
          let r : Region := { Region.init with base := base, size := size, obj := obj, valid := true }
          .out { s := putRegion c c.s r } } s)

/-- UNBIND (R283). -/
def execUnbind (f : Fields) (s : State) : Host.Outcome State Fault Refusal :=
  .next (issue (.unbind f)
    { run := fun c => .out { s := putRegion c (passGate c c.s) Region.init } } s)

/-! ### Acquire and release (R161, R162, R280) -/

/-- The pieces of memory bound to an object. -/
def boundPieces (c : Iss) (s : State) (o : Nat) : List (Nat × Nat) :=
  ((s.ctxView c.wg).validRegions.filter (fun e => e.2.obj = o)).flatMap (fun e =>
    physRanges s c.core c.asid e.2.base e.2.size)

/-- SEQ of an object as a workgroup reads it at the unit, or in its view (R173). -/
def seqNow (s : State) (wg pa : Nat) : Nat :=
  if s.wgDet wg then ofLE ((List.range 8).map (fun i => detByte s wg (pa + i))) else memNat s pa 8

/-- The checks of an object operand (R280, R472, R481): alignment, translation, that it is named, poison. -/
def withObject (c : Iss) (r : Right) (k : Nat → TPart → State → Res) : Res :=
  let o := c.addr c.l0
  match alignTrap [(c.l0, o)] 64 with
  | some t => .trap t false
  | none =>
    withAccess c c.s r false [⟨c.l0, o, 8⟩] (fun ts s =>
      match ts with
      | [] => .wait
      | t :: _ =>
        if !((s.ctxView c.wg).validRegions.any (fun e => e.2.obj = o)) then
          .trap { cls := 0x0A, reason := 3, info := o, fmask := laneSet [c.l0] } false
        else if blockPoison s t.pa then .trap { cls := 7, reason := 2, info := o, fmask := laneSet [c.l0] } false
        else k o t s)

/-- The object's line is read at its unit: the core's dirty bytes of it are written back first (R152). -/
def objectLine (c : Iss) (s : State) (t : TPart) (k : State → Res) : Res :=
  if !s.wgDet c.wg && lineHeld s c.core t.pa c.wg c.w then c.awaitWriteback (inLine (t.pa / 128))
  else k (ownLine s c.wg t.pa)

/-- The effect of an ACQ that completes: drop(B) for wide scopes, once no write-back of it has to wait, and SEQ to D. -/
def acqDone (c : Iss) (s : State) (o seq : Nat) : Res :=
  let ps := boundPieces c s o
  let drops : Bool := wideScope c.f.sco && !s.wgDet c.wg
  if drops && writebackHeld s c.core (lineInPieces ps) then c.awaitWriteback (lineInPieces ps)
  else .out { s := if drops then dropLines s c.core (inPieces ps) else s, writes := if c.f.d.toNat = 112 then []
                           else destWrites c.warp c.f.d.toNat true (c.act.map (fun l => (l, seq))) }

/-- ACQ (R162, R280). -/
def execAcq (f : Fields) (s : State) : Host.Outcome State Fault Refusal :=
  .next (issue (.acq f)
    { run := fun c => withObject c rightR (fun o t s =>
        objectLine c s t (fun s => acqDone c s o (seqNow s c.wg t.pa))) } s)

/-- ACQ.ge (R280): it completes, or its entry waits at it for SEQ to change. -/
def execAcqGe (f : Fields) (s : State) : Host.Outcome State Fault Refusal :=
  .next (issue (.acqGe f)
    { run := fun c => withObject c rightR (fun o t s => objectLine c s t (fun s =>
        let seq := seqNow s c.wg t.pa
        if (seq + 2 ^ 64 - c.read c.f.b.toNat true c.l0 % 2 ^ 64) % 2 ^ 64 < 2 ^ 63 then acqDone c s o seq
        else .other (c.s0.modWarp c.wg c.w (fun w => w.modEntry c.entry.pc (fun e =>
          { e with wait := .seq t.pa seq, stall := max 1 e.stall }))))) } s)

/-- A waiting ACQ.ge whose SEQ has changed. -/
def seqChanged (s : State) (wg : Nat) (e : Entry) : Bool :=
  match e.wait with
  | .seq pa old => seqNow s wg pa ≠ old
  | _ => false

/-- ACQ_GE_WAKE (R280): entries whose SEQ has changed are ready again. -/
def execAcqGeWake (wg warp : Nat) (s : State) : Host.Outcome State Fault Refusal :=
  let wake (e : Entry) : Entry := if seqChanged s wg e then { e with wait := .none } else e
  .next (s.modWarp wg warp (fun w => { w with table := w.table.map wake, aside := w.aside.map wake }))

/-- REL (R161, R280). -/
def execRel (f : Fields) (s : State) : Host.Outcome State Fault Refusal :=
  .next (issue (.rel f)
    { run := fun c => withObject c rightW (fun o t s =>
        let k := c.act.length
        if s.wgDet c.wg then
          let red : DetRed := { pa := t.pa, va := o, size := 8, aop := 0, float := false, val := k
                                tid := 32 * c.w + c.l0, engine := false }
          withRoom c s [t] 1 (fun s => .out { s := detReduce s c.wg red })
        else
          let ps := boundPieces c s o
          if memPending c then .wait
          else if wideScope c.f.sco && writebackHeld s c.core (inPieces ps) then c.awaitWriteback (inPieces ps)
          else
            let s := if wideScope c.f.sco then writeback s c.core (inPieces ps) else s
            let q : AtomReq := { storeRequest s c.wg c.w c.warp.nextIdx t [] with kind := 9, size := 8, b := k }
            -- a hold on SEQ keeps the addition at its unit, in arrival order (R277)
            if s.heldFrom t.pa 8 c.wg c.w || lineHeld s c.core t.pa c.wg c.w then
              .out { s := { s with atomQ := s.atomQ ++ [q] }, awaits := 1 }
            else .out { s := (atomRun s q).2 }) } s)

/-! ### Barriers (R157, R281, R282) -/

/-- The barrier number. -/
def Iss.bn (c : Iss) : Nat := bits c.f.immN 20 4
/-- The phase in which a lane has arrived and which it has not yet left. -/
def Iss.arrivedIn (c : Iss) (l : Nat) : Option Nat :=
  ((c.warp.lane l).arrived.find? (fun a => a.1 = c.f.sco && a.2.1 = c.bn)).map (fun a => a.2.2)

/-- Lanes for which an arrival is out of order (R282). -/
def barFails (c : Iss) (bad : Option Nat → Bool) : List Fail :=
  match c.act.filter (fun l => bad (c.arrivedIn l)) with
  | [] => []
  | ls => [c.badState 0x0E c.bn (laneSet ls)]

/-- The arrival of the active lanes (R157, R281). -/
def arrive (c : Iss) (s : State) : State :=
  let b := (s.getWg c.wg).bar c.f.sco c.bn
  let b' : Bar := { b with count := b.count + c.act.length }
  let s := s.modWg c.wg (fun g => { g with bars := g.bars.put (barKey c.f.sco c.bn) b' })
  s.modWarp c.wg c.w (fun w => c.act.foldl (fun w l =>
    w.modLane l (fun x => { x with arrived := (c.f.sco, c.bn, b.phase) :: x.arrived })) w)

/-- Park lanes at the barrier, to go on at the next PC. -/
def parkAtBar (c : Iss) (s : State) (ls : List Nat) (phase : Nat) : State :=
  s.modWarp c.wg c.w (fun w => w.park ls (.barrier c.f.sco c.bn phase) c.cur.npc 0)

/-- BAR (R282). -/
def execBar (f : Fields) (s : State) : Host.Outcome State Fault Refusal :=
  .next (issue (.bar f)
    { state := fun c => barFails c (fun a => a.isSome)
      run := fun c =>
        match fenceFirst c c.s c.f.sco with
        | .error s => .other s
        | .ok s =>
          let ph := ((s.getWg c.wg).bar c.f.sco c.bn).phase
          .outThen { s := parkAtBar c (arrive c s) c.act ph, moves := c.act.map (fun l => (l, none)) }
            (fun s => barTry s c.wg c.f.sco c.bn) } s)

/-- BARA (R282). -/
def execBara (f : Fields) (s : State) : Host.Outcome State Fault Refusal :=
  .next (issue (.bara f)
    { state := fun c => barFails c (fun a => a.isSome)
      run := fun c =>
        match fenceFirst c c.s c.f.sco with
        | .error s => .other s
        | .ok s => .outThen { s := arrive c s } (fun s => barTry s c.wg c.f.sco c.bn) } s)

/-- Under a pending yield, lanes that go past their BARW stop there (R282): with the arrival used up, at the instruction after
it. [DEDUCED; log entry 125] -/
def stopPast (c : Iss) (go : List Nat) (s : State) : State :=
  s.modWarp c.wg c.w (fun x =>
    if x.yp && !x.modeS && go ≠ [] then x.modEntry c.cur.npc (fun e => { e with stopped := true }) else x)

/-- BARW (R282): lanes whose phase has completed go on, the others park. -/
def execBarw (f : Fields) (s : State) : Host.Outcome State Fault Refusal :=
  .next (issue (.barw f)
    { state := fun c => barFails c (fun a => a.isNone)
      run := fun c =>
        let ph := ((c.s.getWg c.wg).bar c.f.sco c.bn).phase
        let stay := c.act.filter (fun l => c.arrivedIn l = some ph)
        let go := c.act.filter (fun l => c.arrivedIn l ≠ some ph)
        if go ≠ [] && wideScope c.f.sco && writebackHeld c.s c.core (fun _ => true) then c.awaitWriteback (fun _ => true) else
        let s := c.s.modWarp c.wg c.w (fun w => go.foldl (fun w l => w.modLane l (fun x =>
          { x with arrived := x.arrived.filter (fun a => !(a.1 = c.f.sco && a.2.1 = c.bn)) })) w)
        let s := if go ≠ [] && wideScope c.f.sco then dropAll s c.core else s
        .outThen { s := parkAtBar c s stay ph, moves := stay.map (fun l => (l, none)) } (stopPast c go) } s)

/-! ### Record and replay (R180 to R183, R284, R285, R541) -/

/-- The fault of a log range that cannot be translated (R284, R541). -/
def logTrap (c : Iss) (log logn : Nat) : Option Trap :=
  memTrap ((pagesOf log (0x40 + 4 * logn)).filterMap (fun page =>
    let va := max page log
    (kettleReason c.s c.asid va).map (fun r => (⟨c.l0, va, 4⟩, r))))

/-- Operands of `.rec` and `.play`. -/
def Iss.logVa (c : Iss) : Nat := c.ea c.f.b.toNat (bitB c.f.immN 17) 0 c.l0

/-- Entry checks of `.rec` and `.play` (R284). -/
def rrState (c : Iss) : List Fail :=
  if !c.region.valid || 65536 < c.region.size then [c.badState 0x0E c.rn c.amask] else []

/-- Write bytes of the log header for RRMODE: in a deterministic launch through the workgroup's buffer (R174, R541). -/
def headerPut (c : Iss) (s : State) (va : Nat) (bs : List Byte) (k : State → Res) : Res :=
  if s.wgDet c.wg then
    match kettlePa s c.asid va with
    | some pa =>
      let t : TPart := ⟨⟨c.l0, va, bs.length⟩, pa, 0⟩
      withRoom c s [t] 0 (fun s => k (detWrite s c.wg t (fullMask bs)))
    | none => k s
  else k (logPut s c.asid va bs)

/-- Enter record or replay mode: `hdr` is what is written to the header, given its STAT: its offset and bytes. -/
def rrEnter (c : Iss) (rrm : Nat) (hdr : Nat → Nat × List Byte) : Res :=
  let log := c.logVa
  let logn := c.read c.f.c.toNat false c.l0
  match logTrap c log logn with
  | some t => .trap t false
  | none =>
    let s := passGate c c.s
    let h := hdr (((logHeader s c.wg c.asid log).map (fun h => h.2.2)).getD 0)
    headerPut c s (log + h.1) h.2 (fun s =>
      .out { s := putRegion c s { c.region with
               rrm := rrm, gbase := c.read c.f.a.toNat false c.l0, log := log, logn := logn, taken := 0, lastAdmit := s.now } })

/-- RRMODE.off (R284). -/
def execRrmodeOff (f : Fields) (s : State) : Host.Outcome State Fault Refusal :=
  .next (issue (.rrmodeOff f)
    { state := fun c => if c.region.valid then [] else [c.badState 0x0E c.rn c.amask]
      run := fun c => .out { s := putRegion c (passGate c c.s) { c.region with rrm := 0 } } } s)

/-- RRMODE.rec (R284). -/
def execRrmodeRec (f : Fields) (s : State) : Host.Outcome State Fault Refusal :=
  .next (issue (.rrmodeRec f)
    { state := rrState
      vals := fun c => if c.logVa % 64 ≠ 0 then [c.bad 0x0C c.logVa] else []
      run := fun c => rrEnter c 1 (fun _ => (0, zeros 20)) } s)

/-- RRMODE.play (R284). -/
def execRrmodePlay (f : Fields) (s : State) : Host.Outcome State Fault Refusal :=
  .next (issue (.rrmodePlay f)
    { state := rrState
      vals := fun c => if c.logVa % 64 ≠ 0 then [c.bad 0x0C c.logVa] else []
      run := fun c => rrEnter c 2 (fun stat => (8, zeros 8 ++ toLE 4 (setBits stat 1 1 0))) } s)

/-- ORDGATE (R285). -/
def execOrdgate (f : Fields) (s : State) : Host.Outcome State Fault Refusal :=
  .next (issue (.ordgate f)
    { run := fun c =>
        let r := c.region
        let put (lo hi : Nat) : Res :=
          .out { s := c.s, writes := destWrites c.warp c.f.d.toNat true
                   (c.act.map (fun l => (l, lo % 2 ^ 32 + 2 ^ 32 * (hi % 2 ^ 32)))) }
        if !r.valid || r.rrm = 0 then put 0 0
        else
          match logHeader c.s c.wg c.asid r.log with
          | none => .other (logLost c.s c.ctx c.rn c.wg)
          | some (recn, playn, _) =>
            if r.rrm = 1 then
              (if recn = 0 then put 0 0
               else match logChunk c.s c.wg c.asid r.log (recn - 1) with
                 | some (g, run) => put (run + g * 2 ^ 24) recn
                 | none => .other (logLost c.s c.ctx c.rn c.wg))
            else if playn = recn then put 0 playn
            else match logChunk c.s c.wg c.asid r.log playn with
              | some (g, run) => put (run - r.taken + g * 2 ^ 24) playn
              | none => .other (logLost c.s c.ctx c.rn c.wg) } s)

/-! ### Cache control (R137, R287, R288) -/

/-- The workgroups resident on a core. -/
def residents (s : State) (p : Nat) : List (Nat × Wg) :=
  s.wgs.filter (fun e => e.2.core = p && (match e.2.phase with | .saved _ _ => false | _ => true))
/-- Scratchpad ways of a workgroup (R129). -/
def waysOf (s : State) (wg : Nat) : Nat := ceilDiv (s.wgRec wg).scratch 32768
/-- Ways held by resident allocations. -/
def heldWays (s : State) (p : Nat) : Nat := ((residents s p).map (fun e => waysOf s e.1)).foldl (· + ·) 0
/-- The largest minimum cache way count of the resident launches, never below one (R138). -/
def minCacheWays (s : State) (p : Nat) : Nat := ((residents s p).map (fun e => (s.wgRec e.1).minc)).foldl max 1

/-- Change the scratchpad share of a core (R137).  The lines of the ways that move are not fixed: the model drops all
of the L1 when the share grows. -/
def setShare (s : State) (p share : Nat) : State :=
  let s := if (s.getCore p).share < share then dropAll s p else s
  s.modCore p (fun c => { c with share := share })

/-- CARVE (R287). -/
def execCarve (f : Fields) (s : State) : Host.Outcome State Fault Refusal :=
  .next (issue (.carve f)
    { vals := fun c => c.valueFails c.f.a.toNat (c.a false c.l0 / 16 ≠ 0) (c.a false c.l0)
      run := fun c =>
        let share := min (16 - minCacheWays c.s c.core) (max (heldWays c.s c.core) (c.a false c.l0))
        if (c.s.getCore c.core).share < share && writebackHeld c.s c.core (fun _ => true) then c.awaitWriteback (fun _ => true)
        else putD c { s := setShare c.s c.core share } false (c.act.map (fun l => (l, share))) } s)

/-- ALL of R286. -/
def Iss.allB (c : Iss) : Bool := bitB c.f.immN 27
/-- The physical pieces of B (R288). -/
def Iss.pieces (c : Iss) : List (Nat × Nat) :=
  c.act.flatMap (fun l => physRanges c.s c.core c.asid (c.addr l) (c.read c.f.b.toNat true l))

/-- CWB and CINV: `g` on the lines of B. -/
def cacheOp (c : Iss) (g : State → (Nat → Bool) → State) : Res :=
  let ps := if c.allB then [] else c.pieces
  let inB : Nat → Bool := fun a => c.allB || lineInPieces ps a
  if writebackHeld c.s c.core inB then c.awaitWriteback inB else .out { s := g c.s inB }

/-- CWB (R288). -/
def execCwb (f : Fields) (s : State) : Host.Outcome State Fault Refusal :=
  .next (issue (.cwb f) { run := fun c => cacheOp c (fun s inB => writeback s c.core inB) } s)
/-- CINV (R288). -/
def execCinv (f : Fields) (s : State) : Host.Outcome State Fault Refusal :=
  .next (issue (.cinv f) { run := fun c => cacheOp c (fun s inB => dropLines s c.core inB) } s)

/-- Take out of the instruction caches the lines that the test names, by core and key.  A poisoned line that was never issued is
recorded as it goes (R437). -/
def forgetCode (s : State) (t : Nat → Nat × ICLine → Bool) : State :=
  let bad := s.cores.flatMap (fun (e : Nat × Core) =>
    ((e.2.icache.filter (fun (l : Nat × ICLine) => l.2.poison && t e.1 l)).map (fun l => (e.1, l.2.pa))))
  let s := bad.foldl (fun s e => writeRecord s { hubEvent .unconsumedPoison 0 5 with core := some e.1, paddr := e.2 }) s
  { s with cores := s.cores.map (fun e => (e.1, { e.2 with icache := e.2.icache.filter (fun l => !t e.1 l) })) }

/-- Take out of every core's instruction cache the lines whose physical address the test names. -/
def dropCode (s : State) (inB : Nat → Bool) : State := forgetCode s (fun _ l => inB l.2.pa)

/-- CINV.i (R288). -/
def execCinvI (f : Fields) (s : State) : Host.Outcome State Fault Refusal :=
  .next (issue (.cinvI f)
    { run := fun c =>
        let ps := if c.allB then [] else c.pieces
        .out { s := dropCode c.s (fun a => c.allB || lineInPieces ps a) } } s)

end Sys2Proof.Machine
end

