-- ==== Sys2Proof/Machine/Tiles.lean ====
section
/-!
DEFINITION. Tiles: descriptors and their placement (R292, R293), the checks of a tile operation (R294, R307, R310, R327),
edge predicates (R298), and what one native step of the Infuser computes (R305 to R313) with its checksums (R308, R309,
R493, R494).
-/

namespace Sys2Proof.Machine

open Sys2Proof

/-! ### The checks of a tile operation (R294, R307, R310, R313) -/

/-- The shapes agree; otherwise the role of the operand that does not (R307, R310). -/
def shapeFail (fn opx : Nat) (d a b : Desc) : Option Nat :=
  let vec (x : Desc) : Bool := if bitB opx 0 then x.rows = 1 && x.cols = a.cols else x.rows = a.rows && x.cols = 1
  match fn with
  | 0 | 1 => if a.rows ≠ d.rows then some 1 else if b.rows ≠ a.cols || b.cols ≠ d.cols then some 2 else none
  | 4 => if vec d then none else some 1
  | 5 => if d.rows = a.cols && d.cols = a.rows then none else some 1
  | 8 => none
  | _ =>
    if a.rows ≠ d.rows || a.cols ≠ d.cols then some 1
    else if fn = 3 && (b.rows ≠ d.rows || b.cols ≠ d.cols) then some 2
    else if fn = 6 && !vec b then some 2
    else none

/-- Significand width, hidden bit included (R23). -/
def significand (n : Slot) : Nat := if n.E = 0 then n.M + n.S else n.M + 1

/-- The slot n of a format table and `amr`. -/
def slotIn (fmt : List Word) (amr : DWord) (n : Nat) : Slot := Slot.of ((fmt[n]?).getD 0).toNat (bits amr.toNat (8 * n) 8)
/-- The slot that a descriptor's elements read and round in: binary32 in accumulator memory (R306, R310). -/
def Desc.slot (d : Desc) (fmt : List Word) (amr : DWord) : Slot := if d.loc = 2 then f32 else slotIn fmt amr d.fs

/-- A tile operation whose result is rounded into D's slot (R118, R310). -/
def roundsTile (fn : Nat) : Bool := 2 ≤ fn && fn ≤ 10 && fn ≠ 8

/-- The checks of one operand by itself: reason, FLD, VALUE.  A descriptor that also names a slot that does not do fails for both, and
the lower reason is reported (R445). -/
def operandFails (g : Wg) (len fn role ix : Nat) (locs : List Nat) (d : Desc) : List (Nat × Fld × Nat) :=
  let bad : Nat × Fld × Nat := (0x10, .desc, ix + 16 * role)
  let n := d.slot g.fmts g.amr
  let slotBad : List (Nat × Fld × Nat) :=
    if !d.v || d.kind || d.loc = 2 then []
    else if !n.valid then [(0x0B, .slot, d.fs)]
    else if role = 0 && roundsTile fn && !n.rndOk then [(0x0B, .slot, d.fs + 8)]
    else []
  slotBad ++
  (if !d.v || !d.formOk || !locs.contains d.loc || d.kind != (fn = 1 && role ≠ 0) ||
      (fn = 0 && !d.kind && role ≠ 0 && 24 < significand n) || d.selfOverlap || (d.loc = 1 && g.qgsize ≤ d.qp) ||
      (d.loc ≤ 1 && !d.fits len (role = 2)) then [bad] else [])

/-- Every failing check of a tile operation. -/
def tileFails (c : Iss) (fn opx : Nat) : List Fail :=
  let g := c.g
  let q := roleLocs fn
  let len := roundUp c.lr.scratch 64
  let get (n : Nat) : Desc := descOf g.fmts (g.m.get 0 n)
  let d := get c.f.md
  let a := get c.f.ma
  let b := get c.f.mb
  let one (role ix : Nat) (l : Option (List Nat)) (x : Desc) : List (Nat × Fld × Nat) :=
    match l with
    | some l => operandFails g len fn role ix l x
    | none => []
  let alone := one 0 c.f.md (some q.1) d ++ one 1 c.f.ma q.2.1 a ++ one 2 c.f.mb q.2.2 b
  let role (r : Nat) : Nat × Fld × Nat := (0x10, .desc, (if r = 0 then c.f.md else if r = 1 then c.f.ma else c.f.mb) + 16 * r)
  let drain : Bool := fn = 11 && ((g.fmt.get 0 d.fs) ≠ 0x0141FEF1 || d.base % 4 ≠ 0 || d.stride % 4 ≠ 0 || d.trn ||
    (bitB opx 0 && d.two = 0))
  let pair := if alone.any (fun x => x.1 = 0x10) then []
    else
      (match shapeFail fn opx d a b with
       | some r => [role r]
       | none => []) ++
      (if drain then [role 0] else []) ++
      (if q.2.1.isSome && d.clashes a g.qgpos then [role 1] else []) ++
      (if q.2.2.isSome && d.clashes b g.qgpos then [role 2] else [])
  (alone ++ pair).map (fun x => ⟨x.1, x.2.1, x.2.2, c.amask⟩)

/-! ### Reading and writing elements -/

/-- The engine of a workgroup's core. -/
def State.mxOf (s : State) (wg : Nat) : Mx := (s.getCore (s.getWg wg).core).mx
def State.modMx (s : State) (wg : Nat) (f : Mx → Mx) : State :=
  s.modCore (s.getWg wg).core (fun c => { c with mx := f c.mx })

/-- `n` bits of a scratchpad at a bit offset; none when a word of them is poisoned. -/
def padBits (s : State) (wg bit n : Nat) : Option Nat :=
  let r := scratchRead s wg (bit / 8) ((bit % 8 + n + 7) / 8)
  if r.2 then none else some (bits (ofLE r.1) (bit % 8) n)

/-- The code of element (i, j) in scratchpad or accumulator memory; none when poisoned (R479). -/
def elemRead (s : State) (wg : Nat) (d : Desc) (i j : Nat) : Option Nat :=
  if d.loc = 2 then
    let m := s.mxOf wg
    if m.accPoison.get false (d.entryAt i j) then none else some (m.acc.get 0 (d.entryAt i j)).toNat
  else padBits s (d.owner s wg) (d.bitAt i j) d.w

/-- Scale word t of a descriptor in a scratchpad. -/
def scaleRead (s : State) (wg : Nat) (d : Desc) (t : Nat) : Option Nat := padBits s (d.owner s wg) (d.scaleBit t).toNat 11

/-- Set an accumulator entry; poison there goes (R478). -/
def Mx.setAcc (m : Mx) (e : Nat) (x : Nat) : Mx :=
  { m with acc := m.acc.set 0 e (BitVec.ofNat 32 x), accPoison := m.accPoison.set false e false }

/-- Poison goes from the words of a scratchpad that runs of bits, of which no two meet, cover whole (R478). -/
def clearCovered (s : State) (wg : Nat) (runs : List (Nat × Nat)) : State :=
  s.modWg wg (fun g => { g with
    scratchPoison := g.scratchPoison.filter (fun e =>
      (runs.map (fun r => min (r.1 + r.2) (32 * e.1 + 32) - max r.1 (32 * e.1))).foldl (· + ·) 0 ≠ 32) })

/-- Write runs of `n` bits into a scratchpad: places and values; no two meet. -/
def padPuts (s : State) (wg n : Nat) (xs : List (Nat × Nat)) : State :=
  let put (m : Sparse Byte) (bit x : Nat) : Sparse Byte :=
    let off := bit / 8
    let len := (bit % 8 + n + 7) / 8
    let old := (List.range len).map (fun i => Sparse.get m 0 (off + i))
    ((List.range len).zip (toLE len (setBits (ofLE old) (bit % 8) n x))).foldl (fun m e => Sparse.set m 0 (off + e.1) e.2) m
  clearCovered (s.modWg wg (fun g => { g with scratch := xs.foldl (fun m e => put m e.1 e.2) g.scratch })) wg
    (xs.map (fun e => (e.1, n)))

/-- Write bits into a scratchpad. -/
def padPut (s : State) (wg bit n x : Nat) : State := padPuts s wg n [(bit, x)]

/-- Write the codes of elements of a tile. -/
def elemWrites (s : State) (wg : Nat) (d : Desc) (xs : List ((Nat × Nat) × Nat)) : State :=
  if d.loc = 2 then s.modMx wg (fun m => xs.foldl (fun m e => m.setAcc (d.entryAt e.1.1 e.1.2) e.2) m)
  else padPuts s (d.owner s wg) d.w (xs.map (fun e => (d.bitAt e.1.1 e.1.2, e.2)))

/-- Bit n of an edge predicate. -/
def maskBit (m : BitVec 256) (n : Nat) : Bool := m.getLsbD n

/-! ### One native step -/

/-- What a step of a tile operation works on: the operation, where its sources read, the predicates, the formats, the
draws, the scales (R118, R297), and the workgroup it runs for. -/
structure Tile where
  fn : Nat
  opx : Nat
  a : Nat
  d : Desc
  da : Desc
  db : Desc
  mr : BitVec 256
  mc : BitVec 256
  fmt : List Word
  amr : DWord
  seed : Nat
  draw : Nat
  gid : Nat
  wg : Nat
  /-- the code of element (i, j) of a source, and its scale words; none when poisoned -/
  src : Bool → Nat → Nat → Option Nat
  scl : Bool → Nat → Option Nat
  /-- scale register of a channel -/
  sc : Nat → Nat

def Tile.slotD (t : Tile) : Slot := t.d.slot t.fmt t.amr
def Tile.slotA (t : Tile) : Slot := t.da.slot t.fmt t.amr
def Tile.slotB (t : Tile) : Slot := t.db.slot t.fmt t.amr
/-- Native tiles of D, row-major (R305). -/
def Desc.tilesAcross (d : Desc) : Nat := ceilDiv d.cols 32
def Desc.tiles (d : Desc) : Nat := ceilDiv d.rows 32 * d.tilesAcross

/-- The elements of native tile number n of an extent, row-major. -/
def tileCells (rows cols n : Nat) : List (Nat × Nat) :=
  let p := n / ceilDiv cols 32
  let q := n % ceilDiv cols 32
  (List.range (min 32 (rows - 32 * p))).flatMap (fun i =>
    (List.range (min 32 (cols - 32 * q))).map (fun j => (32 * p + i, 32 * q + j)))

/-- The elements of D that a step writes (R298; R310 for TRED). -/
def Tile.written (t : Tile) (i j : Nat) : Bool :=
  if t.fn = 4 then (if bitB t.opx 0 then maskBit t.mc j else maskBit t.mr i) else maskBit t.mr i && maskBit t.mc j
def Tile.cells (t : Tile) (n : Nat) : List (Nat × Nat) :=
  (tileCells t.d.rows t.d.cols n).filter (fun e => t.written e.1 e.2)

/-- The value of a source element. -/
def Tile.val (t : Tile) (isB : Bool) (i j : Nat) : Option Val :=
  (t.src isB i j).map (fun c => decodeVal c (if isB then t.slotB else t.slotA))

/-- All of a list, or none. -/
def allSome {α : Type} : List (Option α) → Option (List α)
  | [] => some []
  | none :: _ => none
  | some x :: xs => (allSome xs).map (x :: ·)

/-- Consecutive runs of `n` of a list of K indices. -/
def kRuns (k n : Nat) : List (List Nat) :=
  (List.range (ceilDiv k n)).map (fun g => (List.range (min n (k - n * g))).map (fun i => n * g + i))

/-- The products of one group of TMMA. -/
def Tile.pairs (t : Tile) (i j : Nat) (ks : List Nat) : Option (List (Val × Val)) :=
  allSome (ks.map (fun k =>
    match t.val false i k, t.val true k j with
    | some x, some y => some (x, y)
    | _, _ => none))

/-- The scale words and code pairs of one segment of TMMAB (R122, R123). -/
def Tile.segment (t : Tile) (i j : Nat) (ks : List Nat) : Option (Nat × Nat × List (Nat × Nat)) :=
  let k := ks.headD 0
  match t.scl false (t.da.scaleIx false i k), t.scl true (t.db.scaleIx true k j),
        allSome (ks.map (fun k => match t.src false i k, t.src true k j with
          | some x, some y => some (x, y)
          | _, _ => none)) with
  | some x, some y, some ps => some (x, y, ps)
  | _, _, _ => none

/-- One output element of TMMA or TMMAB (R123, R306): accumulated value and flags; none when poison is read. -/
def Tile.product (t : Tile) (acc i j : Nat) : Option (Nat × Nat) :=
  if t.fn = 1 then
    (kRuns t.da.cols (min t.da.block t.db.block)).foldl (fun (a : Option (Nat × Nat)) ks =>
      match a, t.segment i j ks with
      | some (x, fl), some (swA, swB, ps) => let r := blockStep x swA swB ps; some (r.1, r.2 ||| fl)
      | _, _ => none) (some (acc, 0))
  else
    (kRuns t.da.cols 32).foldl (fun (a : Option (Nat × Nat)) ks =>
      match a, t.pairs i j ks with
      | some (x, fl), some ps =>
        let s := dotVal false (decodeVal x f32) ps
        let r := roundVal f32 s.1 0
        some (r.1, fl ||| s.2 ||| r.2)
      | _, _ => none) (some (acc, 0))

/-- The contribution of an element (R308): the exact sum of what its groups and segments add, with the sum of the
magnitudes of its products; none when it is not finite or overflows binary32 (R493). -/
def Tile.contribution (t : Tile) (i j : Nat) : Option (Int × Nat × Int × Nat) :=
  let add (x : Int × Nat) (y : Int × Nat) : Int × Nat := (x.1 * y.2 + y.1 * x.2, x.2 * y.2)
  let term (a : Option ((Int × Nat) × (Int × Nat))) (v m : Val) : Option ((Int × Nat) × (Int × Nat)) :=
    match a, v with
    | some (x, y), .num _ _ =>
      if (decodeVal (roundVal f32 v 0).1 f32).isInf then none
      else some (add x v.frac, add y m.frac)
    | _, _ => none
  let zero : Option ((Int × Nat) × (Int × Nat)) := some ((0, 1), (0, 1))
  let mag (v : Val) : Val := match v with | .num _ m => .num false m | x => x
  let r :=
    if t.fn = 1 then
      (kRuns t.da.cols (min t.da.block t.db.block)).foldl (fun a ks =>
        match t.segment i j ks with
        | some (swA, swB, ps) =>
          let v := decodeVal (blockStep 0 swA swB ps).1 f32
          term a v (mag v)
        | none => none) zero
    else
      (kRuns t.da.cols 32).foldl (fun a ks =>
        match t.pairs i j ks with
        | some ps =>
          let v := (dotVal false (.num false (.rat 0 1)) ps).1
          let m := (sumVals false (ps.map (fun e => mag (mulVals e.1 e.2).1))).1
          term a v m
        | none => none) zero
  r.map (fun x => (x.1.1, x.1.2, x.2.1, x.2.2))

/-- What the checksums say of a step with upsets (R308, R309, R493): the element to correct, or a mismatch beyond
correction. -/
inductive Check where
  | agree
  | correct (i j : Nat)
  | fail
  deriving DecidableEq, Repr

/-- |x| > tol·m with tol = 2^(−(8+TOL)), on fractions; any difference for exact sums. -/
def differs (exact : Bool) (tol : Nat) (x m : Int × Nat) : Bool :=
  if exact then x.1 ≠ 0 else m.1.natAbs * x.2 < x.1.natAbs * m.2 * 2 ^ (8 + tol)

/-- Compare the sums of a step: `ups` are the upset elements with the values they came out as. -/
def Tile.check (t : Tile) (n : Nat) (ups : List (Nat × Nat × Word)) : Check :=
  let cells := tileCells t.d.rows t.d.cols n
  let exact : Bool := t.fn = 1 || (t.slotA.E = 0 && t.slotB.E = 0)
  let tol := bits t.opx 4 4
  let add (x y : Int × Nat) : Int × Nat := (x.1 * y.2 + y.1 * x.2, x.2 * y.2)
  -- the sums of one row or column: the difference upsets make, and the magnitudes; none when it is excluded
  let line (mine : Nat × Nat → Bool) : Option ((Int × Nat) × (Int × Nat)) :=
    if !cells.any (fun e => mine e && t.written e.1 e.2) then none
    else (cells.filter mine).foldl (fun a e =>
      let c := if t.written e.1 e.2 then t.contribution e.1 e.2 else some (0, 1, 0, 1)
      match a, c with
      | some (df, mg), some (x, xd, m, md) =>
        match ups.find? (fun u => u.1 = e.1 && u.2.1 = e.2) with
        | none => some (df, add mg (m, md))
        | some u =>
          match decodeVal u.2.2.toNat f32 with
          | .num s y => some (add df (add (Val.num s y).frac (-x, xd)), add mg (m, md))
          | _ => none
      | _, _ => none) (some ((0, 1), (0, 1)))
  let bad (mine : Nat × Nat → Bool) : Bool :=
    match line mine with
    | some (df, mg) => differs exact tol df mg
    | none => false
  let rows := ((cells.map (·.1)).dedup).filter (fun i => bad (fun e => e.1 = i))
  let cols := ((cells.map (·.2)).dedup).filter (fun j => bad (fun e => e.2 = j))
  match rows, cols with
  | [], [] => .agree
  | [i], [j] => .correct i j
  | _, _ => .fail

/-- An activation (R311). -/
def activation (fn : Nat) (x : Val) : Val × Nat :=
  match fn with
  | 0 => (x, 0)
  | 1 =>
    (match x with
     | .nan s => .nan s
     | v => if v.isZero || v.neg then .num false (.rat 0 1) else v, 0)
  | 2 => (sigmoidVal true x, 0)
  | 3 => (sigmoidVal false x, 0)
  | _ => mulVals x x

/-- The source positions that TRED combines into element (i, j) (R310). -/
def Tile.redSources (t : Tile) (i j : Nat) : List (Nat × Nat) :=
  if bitB t.opx 0 then ((List.range t.da.rows).filter (maskBit t.mr)).map (fun k => (k, j))
  else ((List.range t.da.cols).filter (maskBit t.mc)).map (fun k => (i, k))

/-- The exact result of an element operation (R310), or its converted code where the operation converts (R312). -/
def Tile.element (t : Tile) (i j : Nat) : Option (Nat × Nat) :=
  let nd := t.slotD
  let rdn := nd.rnd = 2
  let u := Sys2Proof.draw t.seed t.gid (t.draw + 256 * i + j)
  let put (x : Val × Nat) : Nat × Nat := let r := roundVal nd x.1 u; (r.1, r.2 ||| x.2)
  match t.fn with
  | 2 => (t.val false i j).map (fun x => put (activation (bits t.opx 0 3) x))
  | 3 =>
    match t.val false i j, t.val true i j with
    | some x, some y => some (put (match bits t.opx 0 2 with
        | 0 => addVal rdn x y
        | 1 => mulVals x y
        | _ => subVal rdn x y))
    | _, _ => none
  | 4 =>
    (allSome ((t.redSources i j).map (fun e => t.val false e.1 e.2))).map (fun xs =>
      put (match xs with
        | [] => ((if bitB t.opx 1 then .inf true else .num false (.rat 0 1)), 0)
        | x :: ys =>
          if bitB t.opx 1 then (ys.foldl (minMaxVal true) x, 0)
          else match firstNan xs with
            | some x => (x, 0)
            | none => sumVals rdn xs))
  | 5 => (t.val false j i).map (fun x => put (x, 0))
  | 6 =>
    match t.val false i j, (if bitB t.opx 0 then t.val true 0 j else t.val true i 0) with
    | some x, some y => some (put (mulVals x y))
    | _, _ => none
  | 7 =>
    if bitB t.opx 0 then
      (t.val false i j).map (fun x => scaledCode x nd (t.sc (t.a + (if bitB t.opx 5 then i else j))) u)
    else (t.src false i j).map (fun c => cvt c t.slotA nd u)
  | 8 => some (zeroCode nd false, 0)
  | _ => (t.val false i j).map (fun x => put (x, 0))

/-- What a step leaves: the state, flags, CORR, and a CODE when the command fails in it. -/
structure StepOut where
  s : State
  xf : Nat
  corr : Bool := false
  code : Nat := 0

/-- Change max-magnitude register k of the workgroup's engine by a list of values, in order (R125). -/
def amaxAll (s : State) (wg k : Nat) (vs : List Val) : State :=
  s.modMx wg (fun m => { m with mx := m.mx.set 0 k (BitVec.ofNat 32 (vs.foldl amaxUpdate (m.mx.get 0 k).toNat)) })

/-- The elements before the first that reads poison. -/
def cleanPrefix {α : Type} : List (Option α) → List α
  | some x :: xs => x :: cleanPrefix xs
  | _ => []

/-- The elements that a step brings into the row-major prefix of a drain (R126, R312, R313, R492): the longest run of elements, in
row-major order of the logical tile, that stands in native tiles 0 to n. [DEDUCED; log entry 134] -/
def prefixCells (rows cols n : Nat) : List (Nat × Nat) :=
  let across := ceilDiv cols 32
  let top := 32 * (n / across)
  let left := 32 * (n % across)
  let first := (List.range (min 32 (cols - left))).map (fun j => (top, left + j))
  if n % across + 1 < across then first
  else first ++ (List.range (min 32 (rows - top) - 1)).flatMap (fun i => (List.range cols).map (fun j => (top + 1 + i, j)))

/-- Update max-magnitude register k by what step n adds to the prefix, up to the first element that reads poison or lies beyond what
the step has converted. -/
def Tile.amax (t : Tile) (s : State) (n k : Nat) (converted : Nat × Nat → Bool) : State :=
  let mine (e : Nat × Nat) : Bool := (tileCells t.d.rows t.d.cols n).contains e
  amaxAll s t.wg k (cleanPrefix (((prefixCells t.d.rows t.d.cols n).filter (fun e => t.written e.1 e.2)).map (fun e =>
    if mine e && !converted e then none else t.val false e.1 e.2)))

/-- Element (i, j) of the contribution as the checksums correct it (R309): the check sum of column j minus the column's other
elements as they came out. -/
def Tile.corrected (t : Tile) (n : Nat) (ups : List (Nat × Nat × Word)) (i j : Nat) : Option Val :=
  let add (x y : Int × Nat) : Int × Nat := (x.1 * y.2 + y.1 * x.2, x.2 * y.2)
  let col := (tileCells t.d.rows t.d.cols n).filter (fun e => e.2 = j && t.written e.1 e.2)
  let r := col.foldl (fun (a : Option (Int × Nat)) e =>
    match a, t.contribution e.1 e.2, ups.find? (fun u => u.1 = e.1 && u.2.1 = e.2) with
    | some a, some (x, xd, _, _), u =>
      if e.1 = i then some (add a (x, xd))
      else
        match u with
        | none => some a
        | some u =>
          (match decodeVal u.2.2.toNat f32 with
           | .num s y => let f := (Val.num s y).frac; some (add (add a (x, xd)) (-f.1, f.2))
           | _ => none)
    | _, _, _ => none) (some (0, 1))
  r.map (fun x => Val.ofRat x.1 x.2)

/-- A step of TMMA or TMMAB (R306 to R309); `ups` are upset elements of the tile (R308). -/
def productStep (s : State) (t : Tile) (n : Nat) (ups : List (Nat × Nat × Word)) : StepOut :=
  let cells := t.cells n
  let acc (e : Nat × Nat) : Option Nat := if bitB t.opx 3 then some 0 else elemRead s t.wg t.d e.1 e.2
  let chk := if ups = [] then Check.agree else t.check n ups
  let plus (a : Nat) (x : Val) : Nat × Nat :=
    let r := addVal false (decodeVal a f32) x
    let c := roundVal f32 r.1 0
    (c.1, c.2 ||| r.2)
  let out (e : Nat × Nat) : Option (Nat × Nat) :=
    (acc e).bind (fun a => (t.product a e.1 e.2).map (fun p =>
      -- a contribution that is not the sum of its groups is added in one rounding [DEDUCED; log entry 73]
      match (if chk = .correct e.1 e.2 then t.corrected n ups e.1 e.2 else none), ups.find? (fun u => u.1 = e.1 && u.2.1 = e.2) with
      | some v, _ => plus a v
      | none, some u => plus a (decodeVal u.2.2.toNat f32)
      | none, none => p))
  match allSome (cells.map out) with
  | none => { s := s, xf := 0, code := 4 }
  | some rs =>
    if chk = .fail then { s := s, xf := 0, code := 5 }
    else
      { s := elemWrites s t.wg t.d ((cells.zip rs).map (fun e => (e.1, e.2.1)))
        xf := rs.foldl (fun x r => x ||| r.2) 0
        corr := match chk with | .correct _ _ => true | _ => false }

/-- A step of an element operation (R310, R312): every element is read before one is written (R294).  A read of `mx` between two
steps sees the prefix that the steps done so far make: of the prefixes that R126 allows, this is the model's choice.
[DESIGN CHOICE; log entry 134] -/
def elementStep (s : State) (t : Tile) (n : Nat) : StepOut :=
  let cells := t.cells n
  let s := if t.fn = 7 && bitB t.opx 1 then t.amax s n (bits t.opx 2 3) (fun _ => true) else s
  match allSome (cells.map (fun e => t.element e.1 e.2)) with
  | none => { s := s, xf := 0, code := 4 }
  | some rs =>
    { s := elemWrites s t.wg t.d ((cells.zip rs).map (fun e => (e.1, e.2.1)))
      xf := rs.foldl (fun x r => x ||| r.2) 0 }

/-- Native step n of a tile operation other than TDRAIN. -/
def tileStep (s : State) (t : Tile) (n : Nat) (ups : List (Nat × Nat × Word)) : StepOut :=
  if t.fn ≤ 1 then productStep s t n ups else elementStep s t n

/-- Cycles of a native step (R23, R305). -/
def tileCycles (fn : Nat) (da db : Desc) (fmt : List Word) (amr : DWord) : Nat :=
  if fn = 1 then ceilDiv da.cols 8
  else if fn = 0 then
    let w := min (significand (da.slot fmt amr)) (significand (db.slot fmt amr))
    if w ≤ 4 then ceilDiv da.cols 8 else if w ≤ 8 then ceilDiv da.cols 4 else if w ≤ 12 then ceilDiv da.cols 2
    else 2 * da.cols
  else 32

end Sys2Proof.Machine
end

