-- ==== Sys2Proof/Machine/Commands.lean ====
section
/-!
DEFINITION. Commands of the engines: how an engine reaches memory (R148, R165, R178, R471, R476), how a command completes
(R166, R168, R302, R438, R495), and how a matrix command is issued, signed or not (R75 to R80, R295 to R304, R496,
R500 to R502).
-/

namespace Sys2Proof.Machine

open Sys2Proof

/-! ### Memory as an engine reaches it -/

/-- Whom an engine access is made for: workgroup, die, ASID, context, and whether the issuer was in mode S (R471). -/
structure Who where
  wg : Nat
  die : Nat
  asid : Nat
  ctx : Nat
  priv : Bool
  deriving DecidableEq, Repr

def Cmd.who (c : Cmd) (s : State) : Who :=
  { wg := c.wg, die := coreDie (s.getWg c.wg).core, asid := s.wgAsid c.wg, ctx := s.wgCtx c.wg, priv := c.priv }

/-- The CODE of a piece that fails with a reason of class 0x06 (R476). -/
def codeOf (reason : Nat) : Nat :=
  if reason = 1 || reason = 3 || reason = 9 then 2 else if reason = 10 then 8 else 3

/-- Translate and check one piece of an engine's access: its physical place, or the CODE. -/
def engPart (s : State) (w : Who) (r : Right) (x : Part) : Except Nat TPart × State :=
  match translateDie s w.die w.asid x.va with
  | (.error e, s) => (.error (codeOf e), s)
  | (.ok e, s) =>
    match checkLeaf s e x.va r w.priv false with
    | .error e => (.error (codeOf e), s)
    | .ok pa => if r.wr && meetsObject (s.ctxView w.wg) x.va x.n then (.error 3, s) else (.ok ⟨x, pa, e.mt⟩, s)

/-- Pieces translated up to the first that fails, and its CODE. -/
def engParts (s : State) (w : Who) (r : Right) : List Part → List TPart × Option Nat × State
  | [] => ([], none, s)
  | x :: xs =>
    match engPart s w r x with
    | (.error c, s) => ([], some c, s)
    | (.ok t, s) =>
      let rest := engParts s w r xs
      (t :: rest.1, rest.2)

/-- Bytes as an engine reads them: the owning L2, or the workgroup's view (R178); none on poison. -/
def engBytes (s : State) (wg : Nat) (t : TPart) : Option (List Byte) :=
  if (List.range t.part.n).any (fun i => blockPoison s (t.pa + i)) then none
  else some (if s.wgDet wg then (List.range t.part.n).map (fun i => detByte s wg (t.pa + i)) else memBytes s t.pa t.part.n)

/-- How an access or a step of an engine ends. -/
inductive EngEnd where
  | done
  /-- the command ends with this CODE -/
  | code (n : Nat)
  /-- it is tried again in a later cycle -/
  | wait
  deriving DecidableEq, Repr

/-- What an access or a step of an engine leaves. -/
structure EngOut where
  s : State
  fin : EngEnd

/-- Room in the deterministic buffer for an engine's writes (R174, R177, R178): with none the workgroup is held. -/
def engRoom (s : State) (wg : Nat) (ts : List TPart) (reds : Nat) (k : State → EngOut) : EngOut :=
  match detTest s wg ts reds with
  | .ok s => k s
  | .full => { s := holdFull s wg, fin := .wait }
  | .conflict va j => { s := failLaunch s (s.getWg wg).lslot (conflictRecord s wg va j), fin := .code 1 }
  | .preFull => { s := failLaunch s (s.getWg wg).lslot (preimageRecord s wg), fin := .code 1 }
  | .lost r => { s := failLaunch s (s.getWg wg).lslot (lostRecord s wg r), fin := .code 1 }

/-- An engine writes masked bytes over translated pieces. -/
def engPut (s : State) (wg : Nat) (t : TPart) (bs : List (Byte × Byte)) : State :=
  if s.wgDet wg then detWrite s wg t bs else mergeBytes s t.pa bs

/-- Delivery of the pieces of an engine's access (R388, R511): a link of their way is down; or another package does not accept them
within 2 ms, and the command ends with CODE 0x02. -/
def engDelivery (s : State) (w : Who) (ts : List TPart) : EngEnd :=
  if ts.any (partHeld s w.die) then .wait
  else if ts.any (fun t => t.mt = 2) && 4200000 ≤ Config.acceptAfter s.free then .code 2
  else .done

/-- An engine writes bytes at a virtual address, all or none of them. -/
def engWrite (s : State) (w : Who) (va : Nat) (bs : List Byte) : EngOut :=
  match engParts s w rightW (lineParts va bs.length) with
  | (_, some c, s) => { s := s, fin := .code c }
  | (ts, none, s) =>
    if ts.any (fun t => s.heldEngine t.pa t.part.n w.wg) then { s := s, fin := .wait }
    else if engDelivery s w ts ≠ .done then { s := s, fin := engDelivery s w ts }
    else engRoom s w.wg ts 0 (fun s =>
      { s := ts.foldl (fun s t => engPut s w.wg t (fullMask ((bs.drop (t.part.va - va)).take t.part.n))) s, fin := .done })

/-- An engine reads bytes at a virtual address: the bytes, or why not. -/
def engRead (s : State) (w : Who) (va n : Nat) : Except EngEnd (List Byte) × State :=
  match engParts s w rightR (lineParts va n) with
  | (_, some c, s) => (.error (.code c), s)
  | (ts, none, s) =>
    if engDelivery s w ts ≠ .done then (.error (engDelivery s w ts), s)
    else match allSome (ts.map (engBytes s w.wg)) with
    | none => (.error (.code 4), s)
    | some bs => (.ok bs.flatten, s)

/-! ### Completing a command (R166, R302, R495) -/

/-- Let the counter pass the completed numbers that follow it. -/
def advance : Nat → Nat → List Nat → Nat × List Nat
  | 0, c, e => (c, e)
  | n + 1, c, e => if e.contains (c + 1) then advance n (c + 1) (e.erase (c + 1)) else (c, e)

/-- Command `num` of a context is complete: its word stands in the ring and the counter follows. -/
def Eng.finish (g : Eng) (num code xf : Nat) (corr : Bool) : Eng :=
  let e := num :: g.early
  let c := advance e.length g.count e
  { g with count := c.1, early := c.2,
           ring := g.ring.set 0 (num % 256)
             (BitVec.ofNat 64 (code * 2 ^ 56 + xf % 32 * 2 ^ 51 + b2n corr * 2 ^ 50 + num % 2 ^ 48)) }

/-- The lanes of a warp that one event releases from a handle (R41, R58): those that parked together, once every handle
that they need is complete. -/
def handleGroup (s : State) (wg : Nat) (x : Warp) (reg group : Nat) (rpc : Va) : List Nat :=
  let ls := x.heldLanes.filter (fun l => match (x.lane l).hold with
    | some h => h.kind = .handle reg && h.rpc = rpc && h.group = group
    | none => false)
  let need := ls.filter (fun l => ((x.lane l).hold.map (·.need)).getD false)
  if need.all (fun l => handleState s (s.wgCtx wg) (x.getH l reg).toNat = .complete) then ls else []

/-- The workgroup is on its core, so that its lanes may be released. -/
def Wg.resident (g : Wg) : Bool := match g.phase with | .saved _ _ | .ended => false | _ => true

/-- Release the lanes of a warp whose handles are complete; they observe the completion (R58, R168), once no write-back of their
core has to wait at its unit (R155). -/
def releaseOnHandles (s : State) (wg w : Nat) : State :=
  let x := s.getWarp wg w
  x.heldLanes.foldl (fun s l =>
    let x := s.getWarp wg w
    match (x.lane l).hold with
    | some { kind := .handle reg, rpc := rpc, group := group, .. } =>
      let ls := handleGroup s wg x reg group rpc
      let core := (s.getWg wg).core
      if ls = [] then s
      else if writebackHeld s core (fun _ => true) then sendWritebacks s core (fun _ => true)
      else dropAll (s.modWarp wg w (fun x => x.releaseLanes ls)) core
    | _ => s) s

/-- Every warp looks again at the handles its lanes wait for. -/
def releaseHandles (s : State) : State :=
  s.warps.foldl (fun s e => if (s.getWg (e.1 / 32)).resident then releaseOnHandles s (e.1 / 32) (e.1 % 32) else s) s

/-- A write-back of core `p` that a hold kept has been performed: what waited for it goes on (R155). -/
def afterWriteback (s : State) (p : Nat) : State :=
  if writebackHeld s p (fun _ => true) then s
  else releaseHandles ((residents s p).foldl (fun s g =>
    (lateBars s g.1).foldl (fun s b => leaveBar s g.1 b.1 b.2.1 b.2.2) s) s)

/-- ATOMIC_UNIT_OPERATION (R141): request `idx` of the queue is performed. -/
def execAtomicUnitOperation (idx : Nat) (s : State) : Host.Outcome State Fault Refusal :=
  .next (match s.atomQ[idx]? with
    | some q =>
      if !atomReady s idx then s
      else
        let s := atomPerform { s with atomQ := s.atomQ.eraseIdx idx } q
        if q.kind = 8 then afterWriteback s q.idx else s
    | none => s)

/-- A command completes: its completion word, its record (R495), the lanes that wait for it, and the barriers of a
deterministic workgroup that waited for its commands (R178). -/
def finishCommand (s : State) (e : Nat) (cmd : Cmd) (code xf : Nat) (corr : Bool) : State :=
  let s := s.modEng e (fun g => g.finish cmd.num code xf corr)
  let core := (s.getWg cmd.wg).core
  let s := if 2 ≤ code && code ≤ 8 then
      let r := wgErr s cmd.wg 0x0B code 2 1
      writeRecord s { r with detail := code, kind := if code = 5 then 2 else 0, inst := if code = 5 then core else 0 }
    else s
  let s := if code = 5 then { s with agenda := s.agenda ++ [.errorEventCount 2 core] } else s
  let s := releaseHandles s
  if s.wgDet cmd.wg then barsRecheck s cmd.wg else s

/-- A step was corrected (R494): a record, and an event counted against the engine. -/
def correctedRecord (s : State) (wg step i j : Nat) : State :=
  let core := (s.getWg wg).core
  let r : ErrRec := { wgEvent s wg .correctedStep 0 1 with
    kind := 2, inst := core, detail := step % 2 ^ 16 + i % 32 * 2 ^ 16 + j % 32 * 2 ^ 21 }
  let s := writeRecord s r
  { s with agenda := s.agenda ++ [.errorEventCount 2 core] }

/-! ### Issuing a matrix command (R303, R304, R496, R502) -/

/-- Handle of command `num` of engine context `e` (R56). -/
def handleOf (e num : Nat) : Nat := e * 2 ^ 52 + num % 2 ^ 52

/-- Where a command of a workgroup for its matrix engine goes. -/
inductive Place where
  /-- no engine context: refused -/
  | refused
  /-- the engine is held under MXREL: it completes at once -/
  | held (e : Nat)
  /-- no place is free -/
  | full
  | free (e : Nat)
  deriving DecidableEq, Repr

def enginePlace (s : State) (wg : Nat) : Place :=
  match (s.getWg wg).eng with
  | none => .refused
  | some e =>
    let m := s.mxOf wg
    if m.held then .held e else if m.staged.isSome then .full else .free e

/-- An edge predicate as it reads. -/
def Wg.maskR (g : Wg) (n : Nat) : BitVec 256 := ~~~(g.mr.get 0 n)
def Wg.maskC (g : Wg) (n : Nat) : BitVec 256 := ~~~(g.mc.get 0 n)

/-- The command of an issue, with the workgroup's descriptors, predicates and formats of that moment (R109, R118, R297). -/
def Iss.command (c : Iss) (i : Instr) (num a b k : Nat) : Cmd :=
  let g := c.g
  { instr := i, num := num, wg := c.wg, warp := c.w, lane := c.l0, a := a, b := b, c := k,
    dd := g.m.get 0 c.f.md, da := g.m.get 0 c.f.ma, db := g.m.get 0 c.f.mb, mr := g.maskR c.f.rp, mc := g.maskC c.f.cp,
    fmt := g.fmts, amr := g.amr, draw := (c.warp.lane c.l0).draw, gid := gidOf c.s c.wg c.w c.l0,
    log := g.recd.act && c.op = 0x31, recBase := g.recd.base, recCap := g.recd.entcap, recSize := g.recd.size
    priv := c.warp.modeS, promised := 0, cancel := false, begun := false, coll := 0 }

/-- The writes of a handle to D, which is an `h` code or 0 for none (R303). -/
def handleWrites (c : Iss) (h : Nat) : List RegWrite :=
  if c.f.d = 0 then [] else destWrites c.warp c.f.d.toNat true (c.act.map (fun l => (l, h)))

/-- The refusal of a command (R304, R502): null handles, and a trap of the active lanes after the instruction. -/
def refusal (c : Iss) : Res :=
  if c.warp.pend.any (fun b => b.awaits ≠ 0) then .wait
  else
    .other (takeTrap (c.s0.modWarp c.wg c.w (fun w => w.writeAll (handleWrites c 0))) c.wg c.w c.entry.pc c.amask
      c.cur.npc.toNat { cls := 9, reason := 5, info := c.op + c.fn * 2 ^ 8, fmask := c.amask } false)

/-- Issue one command to the workgroup's matrix engine: `mk` is the command of a number, `eff` what else its issue does,
`draws` what it consumes. -/
def matrixIssue (c : Iss) (mk : Nat → Cmd) (eff : State → State) (draws : Nat) : Res :=
  match enginePlace c.s c.wg with
  | .refused => refusal c
  | .full => .wait
  | .held e =>
    let num := (c.s.getEng e).next
    let s := c.s.modEng e (fun g => { g with next := num + 1 })
    .out { s := finishCommand s e (mk num) 6 0 false, writes := handleWrites c (handleOf e num) }
  | .free e =>
    -- the first two steps of R156 at `.wg` (R165, R167)
    match fenceFirst c c.s 3 with
    | .error s => .other s
    | .ok s =>
      let num := (s.getEng e).next
      let s := s.modEng e (fun g => { g with next := num + 1 })
      let s := s.modMx c.wg (fun m => { m with staged := some (mk num) })
      .out { s := eff s, writes := handleWrites c (handleOf e num), draws := draws }

/-! ### Tile operations, signed and not (R75 to R80, R304) -/

/-- Draws that a tile operation consumes (R118): it rounds into a slot with stochastic rounding. -/
def tileDraws (c : Iss) (fn : Nat) : Nat :=
  let d := descOf c.g.fmts (c.g.m.get 0 c.f.md)
  if roundsTile fn && d.loc ≠ 2 && (c.slot d.fs).rnd = 5 then 65536 else 0

/-- The value of the A operand of a lane, where the operation has one: TDRAIN, and TCVT with SC = 1. -/
def tileArg (c : Iss) (l : Nat) : Nat :=
  if c.fn = 11 || (c.fn = 7 && bitB c.f.opx 0) then c.read c.f.a.toNat false l else 0

/-- The illegal uses of `.sign` (R77). -/
def signFails (c : Iss) : List Fail :=
  let r := c.g.sign c.f.sg
  if c.f.se && (r.decl = 0 || r.decl < r.sgn + c.act.length) then [c.badState 0x0E c.f.sg c.amask] else []

/-- The canonical fields of a signed operation that every signer must present alike (R78), in the order of FLD, with
the code of each. -/
def signedFields (f : Fields) (op fn : Nat) : List (Fld × Nat) :=
  [(.whole, op + fn * 2 ^ 8), (.a, f.a.toNat), (.b, f.b.toNat), (.c, f.c.toNat), (.imm, f.immN), (.fs, f.fs.toNat)]

/-- The first field or operand value that differs from the latch: FLD, the latched value, and the failing lanes. -/
def signMismatch (c : Iss) (t : Latch) : Option (Nat × Nat × LaneSet) :=
  match t.instr.fields, opFn t.instr with
  | some f, some (op, fn) =>
    match ((signedFields f op fn).zip (signedFields c.f c.op c.fn)).find? (fun e => e.1.2 ≠ e.2.2) with
    | some e => some (e.1.1.code, e.1.2, c.amask)
    | none =>
      match c.act.filter (fun l => BitVec.ofNat 64 (tileArg c l) ≠ t.vals.headD 0) with
      | [] => none
      | ls => some (Fld.code .value, (t.vals.headD 0).toNat, laneSet ls)
  | _, _ => none

/-- Write a handle to every signer's D (R77). -/
def writeSigners (s : State) (wg h : Nat) (signers : List (Nat × Nat × Nat)) : State :=
  signers.foldl (fun s e => if e.2.2 = 0 then s
    else s.modWarp wg e.1 (fun x => x.write (.h e.2.1 (e.2.2 - 120) (some (BitVec.ofNat 64 h))))) s

/-- A round ends: the register is cleared, its signers go on with the handle `h`, and with a report when it is refused. -/
def endRound (s : State) (wg n h cause info : Nat) : State :=
  let r := (s.getWg wg).sign n
  let s := s.modWg wg (fun g => { g with g := g.g.put n { r with sgn := 0, latch := none, signers := [] } })
  let s := settleSigners (writeSigners s wg h r.signers) wg r.signers
  releaseSigners s wg r.signers cause info

/-- The last signing of a round issues the latched operation (R77, R502). -/
def issueRound (c : Iss) (i : Instr) (s : State) : State :=
  let n := c.f.sg
  let r := (s.getWg c.wg).sign n
  let low := (r.signers.map (·.1)).foldl min c.w
  let info := c.op + c.fn * 2 ^ 8
  let cmd (num : Nat) : Cmd :=
    let x := c.command i num ((r.latch.map (fun t => (t.vals.headD 0).toNat)).getD 0) 0 0
    { x with warp := low, lane := 0, draw := (r.latch.map (·.draw)).getD 0, gid := (r.latch.map (·.gid)).getD 0 }
  match enginePlace s c.wg with
  | .refused => endRound s c.wg n 0 0x905 info
  | .full => s
  | .held e =>
    let num := (s.getEng e).next
    let s := s.modEng e (fun g => { g with next := num + 1 })
    finishCommand (endRound s c.wg n (handleOf e num) 0 0) e (cmd num) 6 0 false
  | .free e =>
    let num := (s.getEng e).next
    let s := s.modEng e (fun g => { g with next := num + 1 })
    let s := s.modMx c.wg (fun m => { m with staged := some (cmd num) })
    endRound s c.wg n (handleOf e num) 0 0

/-- A signing (R77): the lanes count and park; the first fills the latch, and its entry consumes the draws
[DEDUCED; log entry 70]; the last issues the operation, and it alone orders its earlier accesses (R80, R167). -/
def signRun (c : Iss) (i : Instr) (fn : Nat) : Res :=
  let n := c.f.sg
  let r := c.g.sign n
  let t := r.latch.getD { instr := i, vals := [BitVec.ofNat 64 (tileArg c c.l0)],
                          draw := (c.warp.lane c.l0).draw, gid := gidOf c.s c.wg c.w c.l0 }
  match signMismatch c t with
  | some m => .trap { cls := 9, reason := 3, info := n + m.1 * 2 ^ 12, info2 := m.2.1, fmask := m.2.2 } false
  | none =>
    let last : Bool := r.sgn + c.act.length = r.decl
    if last && enginePlace c.s c.wg = .full then .wait
    else
      match (if last then fenceFirst c c.s 3 else .ok c.s) with
      | .error s => .other s
      | .ok s =>
        let r' : SignReg := { r with sgn := r.sgn + c.act.length, latch := some t,
                                     signers := r.signers ++ c.act.map (fun l => (c.w, l, c.f.d.toNat)) }
        let s := s.modWg c.wg (fun g => { g with g := g.g.put n r' })
        let s := s.modWarp c.wg c.w (fun w => w.park c.act (.signed n) c.cur.npc 0)
        .outThen { s := s, moves := c.act.map (fun l => (l, none)), least := parkedDue,
                   draws := if r.latch.isNone then tileDraws c fn else 0 }
          (fun s => if last then issueRound c i s else s)

/-- A tile operation of OP 0x31. -/
def tileBody (i : Instr) (fn : Nat) : Body :=
  { state := fun c => tileFails c fn c.f.opx ++ signFails c
    run := fun c =>
      if c.f.se then signRun c i fn
      else matrixIssue c (fun num => c.command i num (tileArg c c.l0) 0 0) id (tileDraws c fn) }

/-- TMMA (R306, R307). -/
def execTmma (f : Fields) (s : State) : Host.Outcome State Fault Refusal := .next (issue (.tmma f) (tileBody (.tmma f) 0) s)
/-- TMMAB (R123, R307). -/
def execTmmab (f : Fields) (s : State) : Host.Outcome State Fault Refusal := .next (issue (.tmmab f) (tileBody (.tmmab f) 1) s)
/-- TACT (R310, R311). -/
def execTact (f : Fields) (s : State) : Host.Outcome State Fault Refusal := .next (issue (.tact f) (tileBody (.tact f) 2) s)
/-- TEW (R310). -/
def execTew (f : Fields) (s : State) : Host.Outcome State Fault Refusal := .next (issue (.tew f) (tileBody (.tew f) 3) s)
/-- TRED (R310). -/
def execTred (f : Fields) (s : State) : Host.Outcome State Fault Refusal := .next (issue (.tred f) (tileBody (.tred f) 4) s)
/-- TTRANS (R310). -/
def execTtrans (f : Fields) (s : State) : Host.Outcome State Fault Refusal :=
  .next (issue (.ttrans f) (tileBody (.ttrans f) 5) s)
/-- TSCL (R310). -/
def execTscl (f : Fields) (s : State) : Host.Outcome State Fault Refusal := .next (issue (.tscl f) (tileBody (.tscl f) 6) s)
/-- TCVT (R312). -/
def execTcvt (f : Fields) (s : State) : Host.Outcome State Fault Refusal := .next (issue (.tcvt f) (tileBody (.tcvt f) 7) s)
/-- TZERO (R310). -/
def execTzero (f : Fields) (s : State) : Host.Outcome State Fault Refusal := .next (issue (.tzero f) (tileBody (.tzero f) 8) s)
/-- TACCLD (R310). -/
def execTaccld (f : Fields) (s : State) : Host.Outcome State Fault Refusal :=
  .next (issue (.taccld f) (tileBody (.taccld f) 9) s)
/-- TACCST (R310). -/
def execTaccst (f : Fields) (s : State) : Host.Outcome State Fault Refusal :=
  .next (issue (.taccst f) (tileBody (.taccst f) 10) s)
/-- TDRAIN (R313). -/
def execTdrain (f : Fields) (s : State) : Host.Outcome State Fault Refusal :=
  .next (issue (.tdrain f) (tileBody (.tdrain f) 11) s)

end Sys2Proof.Machine
end

