-- ==== Sys2Proof/Machine/Engine.lean ====
section
/-!
DEFINITION. OP 0x30: engine ownership, descriptors, edge predicates, signing declarations, and the scale instructions
(R76, R295, R296, R299, R300, R314 to R316).
-/

namespace Sys2Proof.Machine

open Sys2Proof

/-! ### Commands of a workgroup that are not complete -/

/-- Every command of a workgroup that is not complete. -/
def wgCommands (s : State) (wg : Nat) : List Cmd :=
  let m := s.mxOf wg
  ((m.run.map (·.cmd)).toList ++ m.staged.toList ++ s.engs.flatMap (fun (e : Nat × Eng) => e.2.queue)).filter
    (fun c => c.wg = wg)

/-- The tile operation a command runs: FN and fields. -/
def tileOf (i : Instr) : Option (Nat × Fields) :=
  match opFn i, i.fields with
  | some (0x31, fn), some f => some (fn, f)
  | _, _ => none

/-- The descriptors that a command names (R297). -/
def namedDescs (i : Instr) : List Nat :=
  match i with
  | .tcopyTile f => [f.cmd, f.cma]
  | i => match tileOf i with
    | some (fn, f) => f.md :: ((if (roleLocs fn).2.1.isSome then [f.ma] else []) ++
                               (if (roleLocs fn).2.2.isSome then [f.mb] else []))
    | none => []

/-- A tile operation updates `mx` (R126). -/
def drains (fn opx : Nat) : Bool := (fn = 11 && bitB opx 2) || (fn = 7 && bitB opx 1)
/-- A command updates `mx` (R126): a drain, or a REVERSE, which may repeat one. [DEDUCED; log entry 78] -/
def isDrain (i : Instr) : Bool :=
  match tileOf i, i with
  | some (fn, f), _ => drains fn f.opx
  | none, .reverse _ => true
  | none, _ => false
/-- A command reads `sc` registers (R124). -/
def readsScales (i : Instr) : Bool :=
  match tileOf i with
  | some (fn, f) => fn = 7 && bitB f.opx 0
  | none => false
/-- A command of the issuer's workgroup with a property is not complete. -/
def Iss.awaitsCmd (c : Iss) (p : Instr → Bool) : Bool := (wgCommands c.s c.wg).any (fun x => p x.instr)

/-! ### Ownership (R299, R300) -/

/-- The numbers of the engine contexts assigned to no device context. -/
def freeEngs (s : State) : List Nat := (List.range 4096).filter (fun e => (s.getEng e).owner.isNone)

/-- Assign a free engine context of a kind to a device context (R301): its number. -/
def takeEng (s : State) (ctx kind : Nat) : Option (Nat × State) :=
  let fl := freeEngs s
  match fl[Config.choice s.free % fl.length]? with
  | none => none
  | some e => some (e, { s with free := s.free + 1 }.modEng e (fun g =>
      { g with owner := some ctx, kind := kind, abase := g.count, queue := [], busyUntil := 0 }))

/-- What an MXACQ finds, and its effect. -/
def acquire (c : Iss) : Bool × State :=
  let m := c.s.mxOf c.wg
  match m.owner with
  | some o => (o = c.wg && !m.held, c.s)
  | none =>
    match takeEng c.s c.ctx 3 with
    | none => (false, c.s)
    | some (e, s) =>
      let s := s.modMx c.wg (fun m => { m with owner := some c.wg, held := false, sc := [], mx := [], acc := [],
                                               accPoison := [] })
      (true, s.modWg c.wg (fun g => { g with eng := some e }))

/-- MXACQ (R299). -/
def execMxacq (f : Fields) (s : State) : Host.Outcome State Fault Refusal :=
  .next (issue (.mxacq f)
    { run := fun c =>
        let r := acquire c
        .out { s := r.2, span := some 599
               writes := destWrites c.warp c.f.d.toNat false (c.act.map (fun l => (l, b2n r.1))) } } s)

/-- MXREL (R300). -/
def execMxrel (f : Fields) (s : State) : Host.Outcome State Fault Refusal :=
  .next (issue (.mxrel f)
    { run := fun c => .out { s := if c.owns then c.s.modMx c.wg (fun m => { m with held := true }) else c.s } } s)

/-- The engine of a core is held and its workgroup has no command on it (R300). -/
def releasable (s : State) (core : Nat) : Bool :=
  let m := (s.getCore core).mx
  m.held && m.run.isNone && m.staged.isNone

/-- ENGINE_RELEASE (R300): ownership ends and the engine context goes back to the pool.  Its commands stay complete to every
reader of their handles (R37, R57), so that ABASE moves up to the count. [DEDUCED; log entry 105] -/
def execEngineRelease (core : Nat) (s : State) : Host.Outcome State Fault Refusal :=
  .next (if !releasable s core then s
    else
      let m := (s.getCore core).mx
      let s := s.modCore core (fun c => { c with mx := { m with owner := none, held := false } })
      match m.owner with
      | none => s
      | some wg =>
        let s := match (s.getWg wg).eng with
          | some e => s.modEng e (fun g => { g with owner := none, abase := g.count })
          | none => s
        s.modWg wg (fun g => { g with eng := none }))

/-! ### Descriptors and predicates (R295, R296) -/

/-- The 256 bits of eight `k` registers. -/
def Iss.kOct (c : Iss) : BitVec 256 :=
  BitVec.ofNat 256 ((List.range 8).foldl (fun x i => x + c.read (c.f.a.toNat + i) false c.l0 * 2 ^ (32 * i)) 0)

/-- TDESC (R295). -/
def execTdesc (f : Fields) (s : State) : Host.Outcome State Fault Refusal :=
  .next (issue (.tdesc f)
    { vals := fun c =>
        if bits c.kOct.toNat 224 3 ≠ 0 then [c.bad 0x0C (bits c.kOct.toNat 224 32)] else []
      run := fun c =>
        let n := bits c.f.immN 20 4
        if c.awaitsCmd (fun i => (namedDescs i).contains n) then .wait
        else .out { s := c.s.modWg c.wg (fun g =>
          let r := g.recd
          { g with m := g.m.set 0 n c.kOct
                   recd := if r.act then { r with clr := r.clr ||| 1#16 <<< n } else r }) } } s)

/-- Write an edge predicate (R296), unless a command that is not complete names it. -/
def maskRun (c : Iss) (x : BitVec 256) : Res :=
  let n := bits c.f.immN 20 2
  let isC := bitB c.f.immN 24
  if c.awaitsCmd (fun i => match tileOf i with
      | some (_, f) => if isC then f.cp = n else f.rp = n
      | none => false) then .wait
  else .out { s := c.s.modWg c.wg (fun g =>
    if isC then { g with mc := g.mc.set 0 n (~~~x) } else { g with mr := g.mr.set 0 n (~~~x) }) }

/-- TMASK.set (R296). -/
def execTmaskSet (f : Fields) (s : State) : Host.Outcome State Fault Refusal :=
  .next (issue (.tmaskSet f) { run := fun c => maskRun c c.kOct } s)

/-- TMASK.first (R296). -/
def execTmaskFirst (f : Fields) (s : State) : Host.Outcome State Fault Refusal :=
  .next (issue (.tmaskFirst f)
    { run := fun c => maskRun c (BitVec.ofNat 256 (2 ^ min (c.read c.f.a.toNat false c.l0) 256 - 1)) } s)

/-! ### Declarations and scales (R76, R314, R315) -/

/-- GDECL (R76). -/
def execGdecl (f : Fields) (s : State) : Host.Outcome State Fault Refusal :=
  .next (issue (.gdecl f)
    { state := fun c =>
        let n := bits c.f.immN 20 3
        if (c.g.sign n).sgn ≠ 0 then [c.badState 0x0E n c.amask] else []
      vals := fun c => c.valueFails c.f.a.toNat (1024 < c.a false c.l0) (c.a false c.l0)
      run := fun c => .out { s := c.s.modWg c.wg (fun g => { g with
        g := g.g.put (bits c.f.immN 20 3) { SignReg.init with decl := bits (c.a false c.l0) 0 11 } }) } } s)

/-- The max-magnitude register K of TAMAX and TSCUPD. -/
def Iss.mxK (c : Iss) : Nat := bits c.f.immN 20 3
/-- SYNC of TAMAX, RST of TSCUPD. -/
def Iss.bit23 (c : Iss) : Bool := bitB c.f.immN 23

/-- TAMAX (R126, R314). -/
def execTamax (f : Fields) (s : State) : Host.Outcome State Fault Refusal :=
  .next (issue (.tamax f)
    { state := ownFail
      run := fun c =>
        if c.bit23 && c.awaitsCmd isDrain then .wait
        else
          let x := ((c.s.mxOf c.wg).mx.get 0 c.mxK).toNat
          putD c { s := c.s } false (c.act.map (fun l => (l, x))) } s)

/-- The channels of TSCUPD: base and count (R315). -/
def scBase (c : Iss) : Nat := c.read c.f.a.toNat false c.l0 % 256
def scCount (c : Iss) : Nat := c.read c.f.b.toNat false c.l0 % 512

/-- `sc` with the channels of TSCUPD renewed, and the flag raised (R127, R315). -/
def rescale (c : Iss) (m : Mx) : Mx × Nat :=
  let x := (m.mx.get 0 c.mxK).toNat
  (List.range (scCount c)).foldl (fun (a : Mx × Nat) i =>
    let ch := (scBase c + i) % 256
    let r := nextScale x (c.slot c.f.fs.toNat) c.f.grp (a.1.sc.get 0x3F800000 ch).toNat
    ({ a.1 with sc := a.1.sc.set 0x3F800000 ch (BitVec.ofNat 32 r.1) }, a.2 ||| r.2)) (m, 0)

/-- TSCUPD (R124, R126, R315). -/
def execTscupd (f : Fields) (s : State) : Host.Outcome State Fault Refusal :=
  .next (issue (.tscupd f)
    { state := fun c => ownFail c ++ slotFail c c.f.fs.toNat false
      vals := fun c => c.valueFails c.f.b.toNat (scCount c = 0 || 256 < scCount c) (scCount c)
      flagged := true
      run := fun c =>
        if c.awaitsCmd (fun i => isDrain i || readsScales i) then .wait
        else
          let r := rescale c (c.s.mxOf c.wg)
          let m := if c.bit23 then { r.1 with mx := r.1.mx.set 0 c.mxK 0 } else r.1
          .out { s := c.s.modMx c.wg (fun _ => m), flags := r.2
                 laneFlags := if r.2 = 0 then [] else [(c.l0, r.2)] } } s)

end Sys2Proof.Machine
end

