-- ==== Sys2Proof/Machine/Adjoint.lean ====
section
/-!
DEFINITION. OP 0x38: the record state and the Caddy (R328 to R335), logging a command (R336 to R338), the adjoints (R339
to R341), and the walk of REVERSE (R342 to R345, R497, R498, R504, R505).
-/

namespace Sys2Proof.Machine

open Sys2Proof

/-! ### The record state and its header (R328, R329) -/

/-- PAYOFF (R329). -/
def payOff (entcap : Nat) : Nat := roundUp (0x100 + 128 * entcap) 256

/-- Bits of STAT (R329). -/
def statOvf : Nat := 1
def statHash : Nat := 2
def statDeep : Nat := 4
def statNomark : Nat := 8
def statRefused : Nat := 16
def statStg : Nat := 32
def statDone : Nat := 64

def State.modRec (s : State) (wg : Nat) (f : RecState → RecState) : State := s.modWg wg (fun g => { g with recd := f g.recd })
def RecState.addStat (r : RecState) (b : Nat) : RecState := { r with stat := r.stat ||| BitVec.ofNat 32 b }

/-- The header fields but PROD, 64 bytes. -/
def headerBytes (r : RecState) : List Byte :=
  toLE 4 0x59444143 ++ toLE 4 1 ++ toLE 4 r.entcap ++ toLE 4 r.size ++ toLE 4 r.nent ++ toLE 4 r.rpos ++
  toLE 8 (payOff r.entcap) ++ toLE 8 r.payused ++ toLE 4 r.stat.toNat ++ toLE 2 r.rcm.toNat ++ toLE 1 (b2n r.tw) ++
  zeros 17

/-- Writes of an engine, one after another. -/
def engWrites (s : State) (w : Who) : List (Nat × List Byte) → EngOut
  | [] => { s := s, fin := .done }
  | (va, bs) :: xs =>
    match engWrite s w (va % 2 ^ 80) bs with
    | { s := s, fin := .done } => engWrites s w xs
    | o => o

/-- A step that has to wait leaves nothing behind but the hold of a full buffer. -/
def orWait (s : State) (wg : Nat) (o : EngOut) : EngOut :=
  if o.fin = .wait then { s := if (o.s.getWg wg).det.held then holdFull s wg else s, fin := .wait } else o

/-- The header writes of RECEND and of the end of a REVERSE. -/
def headerWrites (r : RecState) : List (Nat × List Byte) := if r.base = 0 then [] else [(r.base, headerBytes r)]

/-- Write the header outside any command: at a stop and at retirement (R329, R345), for the record that the workgroup has, be it
active or ended. -/
def flushOut (s : State) (wg : Nat) : EngOut :=
  let g := s.getWg wg
  let w : Who := { wg := wg, die := coreDie g.core, asid := s.wgAsid wg, ctx := s.wgCtx wg, priv := false }
  orWait s wg (engWrites s w (headerWrites g.recd))
/-- The header is written where it can be. -/
def flushHeader (s : State) (wg : Nat) : State := match flushOut s wg with | { s := s', fin := .done } => s' | _ => s
/-- The header has to wait for memory, and not for room in a deterministic buffer. -/
def flushWaits (s : State) (wg : Nat) : Bool :=
  (s.getWg wg).recd.base ≠ 0 && (flushOut s wg).fin = .wait && !((flushOut s wg).s.getWg wg).det.held

/-- The record state as a command works on it: BASE, ENTCAP and SIZE are those of its own record, which a later RECBEGIN may have
replaced at its issue (R333, R345). [DEDUCED; log entry 76] -/
def Cmd.record (cmd : Cmd) (s : State) : RecState :=
  { (s.getWg cmd.wg).recd with base := cmd.recBase, entcap := cmd.recCap, size := cmd.recSize }

/-- Bytes of the Caddy as the engine reads them. -/
def caddyRead (s : State) (w : Who) (base off n : Nat) : Except EngEnd (List Byte) := (engRead s w ((base + off) % 2 ^ 80) n).1

/-! ### Reports of an engine (R498) -/

/-- A reported reason of class 0x09 for a command: to the warp it was issued by, else to the lowest that has a lane left,
else to a record. -/
def engineReport (s : State) (cmd : Cmd) (reason info info2 : Nat) : State :=
  let alive (w : Nat) : Bool := (s.getWarp cmd.wg w).live ≠ 0
  match (if alive cmd.warp then some cmd.warp else (s.wgWarps cmd.wg).find? alive) with
  | some w => s.modWarp cmd.wg w (fun x => x.report { x.newReport (0x900 + reason) info info2 0 0 0 with engine := true })
  | none => writeRecord s (wgErr s cmd.wg 9 reason 1 1)

/-! ### What an operation reads (R337, R341) -/

/-- The adjoint uses the value of source A, of source B. -/
def adjointUses (fn opx : Nat) : Bool × Bool :=
  match fn with
  | 0 | 1 | 6 => (true, true)
  | 2 => (bits opx 0 3 ≠ 0, false)
  | 3 => (bits opx 0 2 = 1, bits opx 0 2 = 1)
  | 4 => (bitB opx 1, false)
  | _ => (false, false)

/-- The opcode has no adjoint (R341). -/
def nullAdjoint (fn : Nat) : Bool := fn = 8 || 10 ≤ fn

/-- An eligible producer (R337). -/
def eligible (fn opx : Nat) (dd da db : BitVec 256) : Bool :=
  ((fn ≤ 1 && bitB opx 3) || (2 ≤ fn && fn ≤ 9)) &&
  !((roleLocs fn).2.1.isSome && dd = da) && !((roleLocs fn).2.2.isSome && dd = db)

/-- Scale words of an operand, by role: 1 is A, 2 is B. -/
def Desc.scaleCount (d : Desc) (role : Nat) : Nat := if d.kind then d.scales (role = 2) else 0
/-- Bytes of the elements, and of the scale words, of a copy (R338). -/
def Desc.copyBytes (d : Desc) : Nat := ceilDiv (d.rows * d.cols * d.w) 8
def Desc.scaleBytes (d : Desc) (role : Nat) : Nat := ceilDiv (11 * d.scaleCount role) 8

/-- All element positions, row-major. -/
def Desc.cells (d : Desc) : List (Nat × Nat) :=
  (List.range d.rows).flatMap (fun i => (List.range d.cols).map (fun j => (i, j)))

/-- The codes of an operand and its scale words as they stand; none on poison. -/
def operandCodes (s : State) (wg : Nat) (d : Desc) (role : Nat) : Option (List Nat × List Nat) :=
  match allSome (d.cells.map (fun e => elemRead s wg d e.1 e.2)),
        allSome ((List.range (d.scaleCount role)).map (scaleRead s wg d)) with
  | some cs, some ss => some (cs, ss)
  | _, _ => none

/-- `ref_hash` (R338). -/
def refHash (d : Desc) (codes scales : List Nat) : Nat :=
  let h := (d.cells.zip codes).foldl (fun h e => mix64 (h ^^^ e.2 ^^^ ((256 * e.1.1 + e.1.2) * 2 ^ 40))) 0
  ((List.range scales.length).zip scales).foldl (fun h e => mix64 (h ^^^ e.2 ^^^ (e.1 * 2 ^ 40) ^^^ 0x8000000000000000)) h

/-- The parts of a SAVE copy, each with its bytes: plain, scale words, twin (R338). -/
def copyParts (d : Desc) (role : Nat) (tw : Bool) (codes scales : List Nat) : List (List Byte) :=
  let at_ (i j : Nat) : Nat := (codes[i * d.cols + j]?).getD 0
  let twin := (List.range d.cols).flatMap (fun j => (List.range d.rows).map (fun i => at_ i j))
  [toLE d.copyBytes (packE codes d.w)] ++
  (if d.kind then [toLE (d.scaleBytes role) (packE scales 11)] else []) ++
  (if tw then [toLE d.copyBytes (packE twin d.w)] else [])

/-! ### Logging a command (R336 to R338) -/

/-- The channels of TCVT with SC = 1 (R312, R331). -/
def channels (opx : Nat) (d : Desc) : Nat := if bitB opx 5 then d.rows else d.cols

/-- What the log holds of one source: flag, operand record, copies with their payload offsets. -/
structure SrcLog where
  flag : Nat
  record : List Byte
  copies : List (Nat × List Byte)

/-- Choose the flag of a source (R337) and lay it out from payload offset `off`; none on poison. -/
def sourceLog (s : State) (wg : Nat) (r : RecState) (prod : List Nat) (d : Desc) (role k off : Nat) (uses : Bool) :
    Option SrcLog :=
  if !uses then some ⟨0, zeros 32, []⟩
  else if d.save then
    match operandCodes s wg d role with
    | none => none
    | some (cs, ss) =>
      let ps := copyParts d role r.tw cs ss
      let offs := ps.foldl (fun (a : List (Nat × List Byte) × Nat) b => (a.1 ++ [(a.2, b)], a.2 + roundUp b.length 64)) ([], off)
      let toff := if r.tw then ((offs.1.getLast?).map (·.1)).getD 0 else 0
      some ⟨1, toLE 8 off ++ toLE 8 toff ++ zeros 16, offs.1⟩
  else if r.rcm.getLsbD k && (prod[k]?).getD 0 ≠ 0 then
    some ⟨3, zeros 24 ++ toLE 4 ((prod[k]?).getD 0 - 1) ++ zeros 4, []⟩
  else
    match operandCodes s wg d role with
    | none => none
    | some (cs, ss) => some ⟨2, zeros 16 ++ toLE 8 (refHash d cs ss) ++ zeros 8, []⟩

/-- The 128 bytes of an entry (R330). -/
def entryBytes (word typ flags seq aval aux : Nat) (dd da db : BitVec 256) : List Byte :=
  toLE 12 word ++ toLE 1 typ ++ toLE 1 flags ++ zeros 2 ++ toLE 6 seq ++ zeros 2 ++ toLE 4 aval ++ toLE 4 aux ++
  toLE 32 dd.toNat ++ toLE 32 da.toNat ++ toLE 32 db.toNat

/-- The log is full: STAT.OVF, with the report of R504. -/
def overflow (s : State) (cmd : Cmd) : State :=
  let n := (s.getWg cmd.wg).recd.nent
  engineReport (s.modRec cmd.wg (fun r => r.addStat statOvf)) cmd 7 (cmd.num % 2 ^ 48) n

/-- The PROD words of the header, those of CLR cleared; zero where a word has not been written. -/
def prodWords (s : State) (w : Who) (r : RecState) : Except EngEnd (List Nat) :=
  match caddyRead s w r.base 0x40 64 with
  | .error e => .error e
  | .ok bs => .ok ((List.range 16).map (fun k => if r.clr.getLsbD k then 0 else leAt bs (4 * k) 4))

/-- The writes of the record, and what follows once they are made: on poison or a full buffer, only that end. -/
def logWrites (s : State) (cmd : Cmd) (xs : List (Nat × List Byte)) (after : State → State) : EngOut :=
  let o := orWait s cmd.wg (engWrites s (cmd.who s) xs)
  match o.fin with
  | .done => { s := after o.s, fin := .done }
  | .wait => { s := o.s, fin := .wait }
  | .code c => { s := o.s, fin := .code c }

/-- The bytes that the copies of a source take. -/
def SrcLog.size (x : SrcLog) : Nat := (x.copies.map (fun c => roundUp c.2.length 64)).foldl (· + ·) 0

/-- The bytes that the copies of a source will take, from its descriptor alone (R336, R338). -/
def Desc.saveSize (d : Desc) (role : Nat) (tw uses : Bool) : Nat :=
  if uses && d.save then
    roundUp d.copyBytes 64 + (if d.kind then roundUp (d.scaleBytes role) 64 else 0) + (if tw then roundUp d.copyBytes 64 else 0)
  else 0

/-- The beginning of log(cmd) (R336): a record that is full already takes nothing; CLR acts on PROD; then, with no room for an entry
and `need` bytes of payload, the record is full.  With room, `k` goes on from the PROD words. -/
def logRoom (s : State) (cmd : Cmd) (need : Nat) (k : List Nat → EngOut) : EngOut :=
  let r := cmd.record s
  if r.stat.getLsbD 0 then { s := s, fin := .done }
  else
    match prodWords s (cmd.who s) r with
    | .error e => { s := s, fin := e }
    | .ok prod =>
      if r.entcap ≤ r.nent || 256 * r.size < payOff r.entcap + r.payused + need then
        logWrites s cmd (if r.clr = 0 then [] else [(r.base + 0x40, prod.flatMap (toLE 4))])
          (fun s => overflow (s.modRec cmd.wg (fun r => { r with clr := 0 })) cmd)
      else k prod

/-- Append the entry of a marked command for which there is room (R330, R331, R336 to R338). -/
def logEntry (s : State) (cmd : Cmd) (fn : Nat) (f : Fields) (prod scs : List Nat) (la lb : SrcLog) : EngOut :=
  let r := cmd.record s
  let e := r.nent
  let pay := r.base + payOff r.entcap
  let auxBytes := cmd.fmt.flatMap (fun x => toLE 4 x.toNat) ++ toLE 8 cmd.amr.toNat ++ toLE 8 cmd.draw ++
    toLE 8 cmd.gid ++ zeros 8 ++ la.record ++ lb.record ++ toLE 32 cmd.mr.toNat ++ toLE 32 cmd.mc.toNat ++
    scs.flatMap (toLE 4)
  let entry := entryBytes (wordOf 0x31 fn f).toNat 1 (la.flag + 4 * lb.flag) cmd.num cmd.a (r.payused / 64) cmd.dd
    (if (roleLocs fn).2.1.isSome then cmd.da else 0) (if (roleLocs fn).2.2.isSome then cmd.db else 0)
  let prod := prod.set f.md (if eligible fn f.opx cmd.dd cmd.da cmd.db then e + 1 else 0)
  let prod := if fn = 11 && bitB f.opx 1 then prod.set f.ma 0 else prod
  logWrites s cmd ([(r.base + 0x100 + 128 * e, entry), (pay + r.payused, auxBytes)] ++
      (la.copies ++ lb.copies).map (fun c => (pay + c.1, c.2)) ++ [(r.base + 0x40, prod.flatMap (toLE 4))])
    (fun s => s.modRec cmd.wg (fun r => { r with
      clr := 0, nent := e + 1, payused := r.payused + roundUp (192 + 4 * scs.length) 64 + la.size + lb.size }))

/-- log(cmd) (R336): a marked command, before its first native step. -/
def logCmd (s : State) (cmd : Cmd) : EngOut :=
  match tileOf cmd.instr with
  | none => { s := s, fin := .done }
  | some (fn, f) =>
    let r := cmd.record s
    let u := adjointUses fn f.opx
    let scs : List Nat := if fn = 7 && bitB f.opx 0 then
        (List.range (channels f.opx (descOf cmd.fmt cmd.dd))).map (fun ch => (s.mxOf cmd.wg).scale (cmd.a + ch))
      else []
    let aux := roundUp (192 + 4 * scs.length) 64
    let a := descOf cmd.fmt cmd.da
    let b := descOf cmd.fmt cmd.db
    let usesA : Bool := (roleLocs fn).2.1.isSome && u.1
    let usesB : Bool := (roleLocs fn).2.2.isSome && u.2
    logRoom s cmd (aux + a.saveSize 1 r.tw usesA + b.saveSize 2 r.tw usesB) (fun prod =>
      match sourceLog s cmd.wg r prod a 1 f.ma (r.payused + aux) usesA with
      | none => { s := s, fin := .code 4 }
      | some la =>
        match sourceLog s cmd.wg r prod b 2 f.mb (r.payused + aux + la.size) usesB with
        | none => { s := s, fin := .code 4 }
        | some lb => logEntry s cmd fn f prod scs la lb)

/-! ### Issue of OP 0x38 (R332 to R335, R347) -/

/-- The Caddy address of RECBEGIN. -/
def Iss.caddy (c : Iss) : Nat := c.ea c.f.a.toNat (bitB c.f.immN 24) 0 c.l0

/-- RECBEGIN (R333): ACT, TW, RCM, CLR, BASE, ENTCAP and SIZE change at issue, the rest when it runs. -/
def execRecbegin (f : Fields) (s : State) : Host.Outcome State Fault Refusal :=
  .next (issue (.recbegin f)
    { state := fun c => if c.g.recd.act then [c.badState 0x0E 0 c.amask] else []
      vals := fun c =>
        let ec := c.read c.f.b.toNat false c.l0
        let sz := c.read c.f.c.toNat false c.l0
        (if c.caddy % 256 ≠ 0 then [c.bad 0x0C c.caddy] else []) ++
        c.valueFails c.f.b.toNat (ec = 0 || 2 ^ 24 < ec) ec ++
        c.valueFails c.f.c.toNat (c.known c.f.b.toNat && 256 * sz < payOff ec + 256) sz
      run := fun c => matrixIssue c (fun num =>
          let ec := c.read c.f.b.toNat false c.l0
          let sz := c.read c.f.c.toNat false c.l0
          { c.command (.recbegin f) num c.caddy ec sz with recBase := c.caddy, recCap := ec, recSize := sz })
        (fun s => s.modRec c.wg (fun r => { r with
          act := true, tw := bitB c.f.immN 27, clr := 0, rcm := BitVec.ofNat 16 c.f.immN
          base := c.caddy, entcap := c.read c.f.b.toNat false c.l0, size := c.read c.f.c.toNat false c.l0 })) 0 } s)

/-- RECEND (R334): `b` of its command says whether ACT was 1. -/
def execRecend (f : Fields) (s : State) : Host.Outcome State Fault Refusal :=
  .next (issue (.recend f)
    { run := fun c => matrixIssue c (fun num => c.command (.recend f) num 0 (b2n c.g.recd.act) 0)
        (fun s => s.modRec c.wg (fun r => { r with act := false })) 0 } s)

/-- RECMARK (R334): `b` of its command says whether ACT was 1. -/
def execRecmark (f : Fields) (s : State) : Host.Outcome State Fault Refusal :=
  .next (issue (.recmark f)
    { vals := fun c => c.valueFails c.f.a.toNat (c.read c.f.a.toNat false c.l0 = 0xFFFFFFFF) 0xFFFFFFFF
      run := fun c => matrixIssue c (fun num =>
        c.command (.recmark f) num (c.read c.f.a.toNat false c.l0) (b2n c.g.recd.act) 0) id 0 } s)

/-- REVERSE (R342): its issue ends the record and sets REV. -/
def execReverse (f : Fields) (s : State) : Host.Outcome State Fault Refusal :=
  .next (issue (.reverse f)
    { state := fun c => if c.g.recd.rev then [c.badState 0x0E 0 c.amask] else []
      vals := fun c => c.valueFails c.f.b.toNat (c.read c.f.b.toNat false c.l0 % 64 ≠ 0) (c.read c.f.b.toNat false c.l0)
      run := fun c => matrixIssue c (fun num => c.command (.reverse f) num (c.read c.f.a.toNat false c.l0)
          (c.read c.f.b.toNat false c.l0) 0)
        (fun s => s.modRec c.wg (fun r => { r with act := false, rev := true })) 0 } s)

/-- The record-state value that LOGQ reads (R335). -/
def logqValue (r : RecState) (sel : Nat) : Nat :=
  match sel with
  | 0 => r.nent
  | 1 => r.payused
  | 2 => r.stat.toNat
  | 3 => r.rpos
  | 4 => r.base % 2 ^ 64
  | _ => r.base / 2 ^ 64

/-- LOGQ (R335). -/
def execLogq (f : Fields) (s : State) : Host.Outcome State Fault Refusal :=
  .next (issue (.logq f)
    { run := fun c =>
        let m := c.s.mxOf c.wg
        if (m.run.map (·.cmd.wg)) = some c.wg || (m.staged.map (·.wg)) = some c.wg then .wait
        else
          let x := logqValue c.g.recd (bits c.f.immN 20 3)
          .out { s := c.s, writes := destWrites c.warp c.f.d.toNat true (c.act.map (fun l => (l, x))) } } s)

/-! ### Entries read back (R330, R331) -/

/-- One entry of the log with its auxiliary block. -/
structure LogEntry where
  ix : Nat
  typ : Nat
  fn : Nat
  opx : Nat
  flags : Nat
  aval : Nat
  dd : BitVec 256
  da : BitVec 256
  db : BitVec 256
  fmt : List Word
  amr : DWord
  draw : Nat
  gid : Nat
  recA : List Byte
  recB : List Byte
  mr : BitVec 256
  mc : BitVec 256
  scales : List Nat

def LogEntry.desc (e : LogEntry) (role : Nat) : Desc := descOf e.fmt (if role = 0 then e.dd else if role = 1 then e.da else e.db)
def LogEntry.flag (e : LogEntry) (role : Nat) : Nat := bits e.flags (2 * (role - 1)) 2
def LogEntry.rec_ (e : LogEntry) (role : Nat) : List Byte := if role = 1 then e.recA else e.recB
/-- The operation has the source. -/
def LogEntry.has (e : LogEntry) (role : Nat) : Bool :=
  if role = 1 then (roleLocs e.fn).2.1.isSome else (roleLocs e.fn).2.2.isSome

/-- Read entry `ix`. -/
def readEntry (s : State) (w : Who) (r : RecState) (ix : Nat) : Except EngEnd LogEntry :=
  match caddyRead s w r.base (0x100 + 128 * ix) 128 with
  | .error e => .error e
  | .ok b =>
    let word := leAt b 0 12
    let typ := leAt b 12 1
    let aux := payOff r.entcap + 64 * leAt b 28 4
    let opx := bits word 66 8
    let fn := bits word 8 4
    let base : LogEntry :=
      { ix := ix, typ := typ, fn := fn, opx := opx, flags := leAt b 13 1, aval := leAt b 24 4,
        dd := BitVec.ofNat 256 (leAt b 32 32), da := BitVec.ofNat 256 (leAt b 64 32), db := BitVec.ofNat 256 (leAt b 96 32),
        fmt := [], amr := 0, draw := 0, gid := 0, recA := [], recB := [], mr := 0, mc := 0, scales := [] }
    if typ ≠ 1 then .ok base
    else
      match caddyRead s w r.base aux 192 with
      | .error e => .error e
      | .ok x =>
        let n := if fn = 7 && bitB opx 0 then channels opx (descOf [] base.dd) else 0
        match caddyRead s w r.base (aux + 192) (4 * n) with
        | .error e => .error e
        | .ok y =>
          .ok { base with
            fmt := (List.range 8).map (fun i => BitVec.ofNat 32 (leAt x (4 * i) 4)), amr := BitVec.ofNat 64 (leAt x 32 8),
            draw := leAt x 40 8, gid := leAt x 48 8, recA := (x.drop 64).take 32, recB := (x.drop 96).take 32,
            mr := BitVec.ofNat 256 (leAt x 128 32), mc := BitVec.ofNat 256 (leAt x 160 32),
            scales := (List.range n).map (fun i => leAt y (4 * i) 4) }

/-! ### Values and gradients (R339) -/

/-- What the walk works for: the command, whom it reaches memory as, the record, and S' of the allocation. -/
structure Walker where
  cmd : Cmd
  w : Who
  r : RecState
  len : Nat

/-- A twin copy was saved. -/
def LogEntry.twin (e : LogEntry) (role : Nat) : Bool := leAt (e.rec_ role) 8 8 ≠ 0

/-- Where the parts of a SAVE source are staged from `off` on, and the end of the last (R343). -/
structure Staging where
  plain : Nat
  scales : Nat
  twin : Nat
  stop : Nat

def LogEntry.staging (e : LogEntry) (role off : Nat) : Staging :=
  let d := e.desc role
  let p := roundUp off 64
  let sp := roundUp (p + d.copyBytes) 64
  let stop := if d.kind then sp + d.scaleBytes role else p + d.copyBytes
  let tp := roundUp stop 64
  { plain := p, scales := sp, twin := tp, stop := if e.twin role then tp + d.copyBytes else stop }

/-- Where the parts of source B are staged, with those of A from `off` on (R343). -/
def LogEntry.stageB (e : LogEntry) (off : Nat) : Nat := if e.flag 1 = 1 then roundUp (e.staging 1 off).stop 64 else off
/-- Where the parts of a source are staged. -/
def LogEntry.stageOf (e : LogEntry) (role off : Nat) : Staging := e.staging role (if role = 2 then e.stageB off else off)

/-- The codes and scale words of a source: of a SAVE source its staged copy, the twin where the source is read flipped and has one
(R343); else where it stands; none on poison. -/
def sourceCodes (s : State) (wg : Nat) (e : LogEntry) (role off : Nat) (flipped : Bool) :
    (Nat → Nat → Option Nat) × (Nat → Option Nat) :=
  let d := e.desc role
  if e.flag role = 1 then
    let x := e.stageOf role off
    (fun i j => if flipped && e.twin role then padBits s wg (8 * x.twin + (j * d.rows + i) * d.w) d.w
                else padBits s wg (8 * x.plain + (i * d.cols + j) * d.w) d.w,
     fun t => padBits s wg (8 * x.scales + 11 * t) 11)
  else (elemRead s wg d, scaleRead s wg d)

/-- The operation of an entry as a tile to run, its SAVE sources staged from `off` on. -/
def entryTile (s : State) (k : Walker) (e : LogEntry) (off : Nat) (flipped : Bool) : Tile :=
  let a := sourceCodes s k.w.wg e 1 off flipped
  let b := sourceCodes s k.w.wg e 2 off flipped
  { fn := e.fn, opx := e.opx, a := e.aval, d := e.desc 0, da := e.desc 1, db := e.desc 2, mr := e.mr, mc := e.mc,
    fmt := e.fmt, amr := e.amr, seed := (s.wgRec k.w.wg).seed, draw := e.draw, gid := e.gid, wg := k.w.wg,
    src := fun isB i j => if isB then b.1 i j else a.1 i j, scl := fun isB t => if isB then b.2 t else a.2 t,
    sc := fun n => (e.scales[(n + 256 - e.aval % 256) % 256]?).getD 0x3F800000 }

/-- The value of a source element: block-scaled elements are values of their own (R121, R339). -/
def Tile.gval (t : Tile) (isB : Bool) (i j : Nat) : Option Val :=
  let d := if isB then t.db else t.da
  if d.kind then
    match t.src isB i j, t.scl isB (d.scaleIx isB i j) with
    | some c, some sw => some (blockVal c sw)
    | _, _ => none
  else t.val isB i j

/-- The gradient element of (i, j): binary32 bits; none on poison. -/
def gradRead (s : State) (wg : Nat) (d : Desc) (i j : Nat) : Option Nat :=
  let a := d.gradAt i j
  if d.loc = 2 then
    let n := wrap 18 a / 4
    let m := s.mxOf wg
    if m.accPoison.get false n then none else some (m.acc.get 0 n).toNat
  else padBits s (d.owner s wg) (8 * a.toNat) 32
/-- Write gradient elements of a tile. -/
def gradWrites (s : State) (wg : Nat) (d : Desc) (xs : List ((Nat × Nat) × Nat)) : State :=
  if d.loc = 2 then s.modMx wg (fun m => xs.foldl (fun m e => m.setAcc (wrap 18 (d.gradAt e.1.1 e.1.2) / 4) e.2) m)
  else padPuts s (d.owner s wg) 32 (xs.map (fun e => (8 * (d.gradAt e.1.1 e.1.2).toNat, e.2)))

/-- One run of `gacc` (R339). -/
def gaccRun (g : Nat) (xs : List Val) : Nat × Nat :=
  match firstNan (xs ++ [decodeVal g f32]) with
  | some _ => (0x7FC00000, 0)
  | none =>
    let s := sumVals false (xs ++ [decodeVal g f32])
    let r := roundVal f32 s.1 0
    (r.1, s.2 ||| r.2)

/-- `gacc` (R339). -/
def gacc (g : Nat) (xs : List Val) : Nat × Nat :=
  (List.range (ceilDiv xs.length 32)).foldl (fun (a : Nat × Nat) i =>
    let r := gaccRun a.1 ((xs.drop (32 * i)).take 32)
    (r.1, a.2 ||| r.2)) (g, 0)

/-- The new gradient of an element of A under TACT `.gelu` or `.silu` (R341): g + f'(x)·w, rounded once. -/
def actGrad (gelu : Bool) (g : Nat) (w x : Val) : Nat × Nat :=
  let gv := decodeVal g f32
  match x with
  | .nan _ => (0x7FC00000, 0)
  | .inf s => let t := mulVals (.num false (.rat (if s then 0 else 1) 1)) w; let r := gaccRun g [t.1]; (r.1, r.2 ||| t.2)
  | .num _ _ =>
    match w with
    | .num _ _ =>
      (match gv with
       | .num _ _ => roundVal f32 (gradSum gelu gv w x) 0
       | _ => gaccRun g [])
    | .inf s =>
      -- the sign of f'(x), which is zero at no value a slot holds
      let unit := gradSum gelu (.num false (.rat 0 1)) (.num false (.rat 1 1)) x
      gaccRun g [.inf (s != unit.neg)]
    | .nan _ => (0x7FC00000, 0)

/-- The element of a TRED `.max` that a contribution goes to: the lowest-indexed one equal to the result. -/
def maxPick (xs : List ((Nat × Nat) × Val)) : Option (Nat × Nat) :=
  match xs with
  | [] => none
  | x :: ys =>
    let m := ys.foldl (fun m y => minMaxVal true m y.2) x.2
    if m.isNan then none
    else (xs.find? (fun y => !y.2.isNan && eqVal y.2 m && y.2.neg = m.neg)).map (·.1)

/-- The terms of an element of a source's gradient (R341), in order, with the flags of their products; none on poison.
`gd` reads the gradient of the destination. -/
def Tile.terms (t : Tile) (gd : Nat → Nat → Option Nat) (role i j : Nat) : Option (List (Val × Nat)) :=
  let g (i j : Nat) : Option Val := (gd i j).map (fun c => decodeVal c f32)
  let times (x y : Option Val) : Option (Val × Nat) :=
    match x, y with
    | some x, some y => some (mulVals x y)
    | _, _ => none
  let one (x : Option Val) : Option (List (Val × Nat)) := x.map (fun v => [(v, 0)])
  let when_ (b : Bool) (x : Option (List (Val × Nat))) : Option (List (Val × Nat)) := if b then x else some []
  let rows := (List.range t.d.rows)
  let cols := (List.range t.d.cols)
  match t.fn with
  | 0 | 1 =>
    if role = 1 then allSome ((cols.filter (t.written i)).map (fun n => times (g i n) (t.gval true j n)))
    else allSome ((rows.filter (fun m => t.written m j)).map (fun m => times (t.gval false m i) (g m j)))
  | 2 =>
    when_ (t.written i j) (match bits t.opx 0 3 with
      | 0 => one (g i j)
      | 1 => (t.gval false i j).bind (fun x =>
          (times (some (match x with
            | .nan s => .nan s
            | v => .num false (.rat (if v.isZero || v.neg then 0 else 1) 1))) (g i j)).map (fun y => [y]))
      | _ => (t.gval false i j).bind (fun x =>
          let y := mulVals (.num false (.rat 2 1)) x
          (times (some y.1) (g i j)).map (fun z => [(z.1, z.2 ||| y.2)])))
  | 3 =>
    when_ (t.written i j) (match bits t.opx 0 2, role with
      | 1, 1 => (times (g i j) (t.gval true i j)).map (fun y => [y])
      | 1, _ => (times (g i j) (t.gval false i j)).map (fun y => [y])
      | 2, 2 => one ((g i j).map Val.negate)
      | _, _ => one (g i j))
  | 4 =>
    let di := if bitB t.opx 0 then 0 else i
    let dj := if bitB t.opx 0 then j else 0
    if !t.written di dj || !(t.redSources di dj).contains (i, j) then some []
    else if bitB t.opx 1 then
      (allSome ((t.redSources di dj).map (fun e => (t.gval false e.1 e.2).map (fun v => (e, v))))).bind (fun xs =>
        when_ (maxPick xs = some (i, j)) (one (g di dj)))
    else one (g di dj)
  | 5 => when_ (t.written j i) (one (g j i))
  | 6 =>
    let isCol := bitB t.opx 0
    if role = 1 then
      when_ (t.written i j) ((times (g i j) (if isCol then t.gval true 0 j else t.gval true i 0)).map (fun y => [y]))
    else if isCol then allSome ((rows.filter (fun m => t.written m j)).map (fun m => times (g m j) (t.gval false m j)))
    else allSome ((cols.filter (t.written i)).map (fun n => times (g i n) (t.gval false i n)))
  | 7 =>
    when_ (t.written i j) (if bitB t.opx 0 then
        (times (g i j) (some (decodeVal (t.sc (t.a + (if bitB t.opx 5 then i else j))) f32))).map (fun y => [y])
      else one (g i j))
  | 9 => when_ (t.written i j) (one (g i j))
  | _ => some []

/-- The new value of an element of a source's gradient, and flags; none on poison, and no value where it is left alone. -/
def Tile.gradient (t : Tile) (gd : Nat → Nat → Option Nat) (old : Nat → Nat → Option Nat) (joined : Bool) (role i j : Nat) :
    Option (Option Nat × Nat) :=
  let g0 : Option Nat := if joined then some 0 else old i j
  if t.fn = 2 && (bits t.opx 0 3 = 2 || bits t.opx 0 3 = 3) then
    if !t.written i j then some (none, 0)
    else
      match g0, gd i j, t.gval false i j with
      | some g, some w, some x =>
        let r := actGrad (bits t.opx 0 3 = 2) g (decodeVal w f32) x
        some (some r.1, r.2)
      | _, _, _ => none
  else
    match t.terms gd role i j with
    | none => none
    | some [] => some (if joined && t.written i j then some 0 else none, 0)
    | some xs =>
      match g0 with
      | none => none
      | some g =>
        let r := gacc g (xs.map (·.1))
        some (some r.1, xs.foldl (fun f x => f ||| x.2) r.2)

/-! ### The steps of one entry (R340, R343, R344) -/

/-- One native tile of work on an entry. -/
inductive Work where
  /-- a tile is read, and nothing written yet -/
  | idle
  /-- tile n of a SAVE source is staged, with the last its scale words and its twin; its entry's parts begin at this scratchpad
  offset -/
  | stage (e : LogEntry) (role off n : Nat)
  /-- the last tile of a REF source: its hash is compared -/
  | verify (e : LogEntry) (role : Nat)
  /-- tile n of a producer is computed again, its sources staged from this offset on -/
  | redo (e : LogEntry) (off n : Nat)
  /-- the walk stops: STAT bit, reason, INFO2 -/
  | stop (bit reason info2 : Nat)
  /-- the command ends: the log is out of reach -/
  | fail (e : EngEnd)
  /-- tile n of the gradient of a source -/
  | phase (role n : Nat)
  /-- tile n of the gradient of the destination is zeroed -/
  | zero (n : Nat)
  /-- every phase of an entry whose gradient tiles coincide -/
  | joined

/-- The work of resolving an entry's sources (R343), its SAVE copies staged from `off` on; `n` more levels of recomputation are
allowed.  What a producer stages follows what stands staged before it. [DEDUCED; log entry 135] -/
def resolveWork (s : State) (k : Walker) : Nat → LogEntry → Nat → List Work
  | n, e, off =>
    let source (role at_ : Nat) : List Work :=
      let d := e.desc role
      match e.flag role with
      | 0 => []
      | 1 =>
        if k.len < (e.stageOf role off).stop then [.stop statStg 0x0A k.cmd.b]
        else (List.range d.tiles).map (.stage e role off)
      | 2 => List.replicate (d.tiles - 1) .idle ++ [.verify e role]
      | _ =>
        match n with
        | 0 => [.stop statDeep 9 (k.r.rpos - 1)]
        | n + 1 =>
          let ix := leAt (e.rec_ role) 24 4
          if e.ix ≤ ix then [.stop statHash 8 (k.r.rpos - 1)]
          else
            match readEntry s k.w k.r ix with
            | .error x => [.fail x]
            | .ok p =>
              if p.typ ≠ 1 || p.dd ≠ d.raw || !eligible p.fn p.opx p.dd p.da p.db then
                [.stop statHash 8 (k.r.rpos - 1)]
              else resolveWork s k n p at_ ++ (List.range (p.desc 0).tiles).map (.redo p at_)
    (if e.has 1 then source 1 off else []) ++ (if e.has 2 then source 2 (e.stageB off) else [])

/-- The gradient tiles of the destination and a source coincide (R340). -/
def coincide (s : State) (k : Walker) (e : LogEntry) (role : Nat) : Bool :=
  let d := e.desc 0
  let x := e.desc role
  let q := (s.getWg k.w.wg).qgpos
  e.has role && x.gro ≠ 0 && x.space q = d.space q && x.gradAt 0 0 = d.gradAt 0 0 && x.rows = d.rows && x.cols = d.cols &&
  x.trn = d.trn

/-- The gradient of the destination stays as it is (R341): TMMA and TMMAB that accumulate. -/
def keepsGrad (e : LogEntry) : Bool := e.fn ≤ 1 && !bitB e.opx 3

/-- The work of the phases (R339, R340), after the check of the gradient tiles (R343). -/
def phaseWork (s : State) (k : Walker) (e : LogEntry) : List Work :=
  let d := e.desc 0
  if d.gro = 0 then []
  else
    let roles := [1, 2].filter (fun r => e.has r && (e.desc r).gro ≠ 0)
    let beyond (x : Desc) : Bool :=
      x.loc ≤ 1 && (x.gradAt 0 0 < 0 || (k.len : Int) < x.gradAt 0 0 + (4 * x.rows * x.cols : Nat))
    let touched := if roles = [] && keepsGrad e then [] else 0 :: roles
    match (touched.map e.desc).find? beyond with
    | some x => [.stop statStg 0x0A (wrap 64 (x.gradAt 0 0))]
    | none =>
      if coincide s k e 1 || coincide s k e 2 then [.joined]
      else
        roles.flatMap (fun r => (List.range (e.desc r).tiles).map (.phase r)) ++
        (if keepsGrad e then [] else (List.range d.tiles).map .zero)

/-- All the work on an entry, in order. -/
def entryWork (s : State) (k : Walker) (e : LogEntry) : List Work :=
  if e.typ ≠ 1 || nullAdjoint e.fn then [] else resolveWork s k 4 e k.cmd.b ++ phaseWork s k e

/-- Write one tile of a source's gradient. -/
def runPhase (s : State) (k : Walker) (e : LogEntry) (t : Tile) (gd : Nat → Nat → Option Nat) (joined : Bool)
    (role : Nat) (cells : List (Nat × Nat)) : StepOut :=
  let d := e.desc role
  match allSome (cells.map (fun c => t.gradient gd (gradRead s k.w.wg d) joined role c.1 c.2)) with
  | none => { s := s, xf := 0, code := 4 }
  | some rs =>
    { s := gradWrites s k.w.wg d ((cells.zip rs).filterMap (fun x => x.2.1.map (fun v => (x.1, v))))
      xf := rs.foldl (fun f r => f ||| r.2) 0 }

/-- What one piece of work comes to. -/
inductive WorkEnd where
  | done
  | stop (bit reason info2 : Nat)
  | fin (e : EngEnd)

/-- Stage one tile of a SAVE source (R343): its elements, with the last tile its scale words and its twin. -/
def runStage (s : State) (k : Walker) (e : LogEntry) (role off n : Nat) : State × EngEnd :=
  let d := e.desc role
  let wg := k.w.wg
  let x := e.stageOf role off
  let pay := payOff k.r.entcap + leAt (e.rec_ role) 0 8
  -- the bits of a part at their places, as the payload holds them
  let part (place w : Nat) (bs : List Byte) (ns : List Nat) : State → State := fun s =>
    padPuts s wg w (ns.map (fun n => (8 * place + n * w, bits (ofLE bs) (n * w) w)))
  match caddyRead s k.w k.r.base pay d.copyBytes with
  | .error x => (s, x)
  | .ok bs =>
    let s1 := part x.plain d.w bs ((tileCells d.rows d.cols n).map (fun c => c.1 * d.cols + c.2)) s
    if n + 1 ≠ d.tiles then (s1, .done)
    else
      match caddyRead s k.w k.r.base (pay + roundUp d.copyBytes 64) (d.scaleBytes role),
            caddyRead s k.w k.r.base (payOff k.r.entcap + leAt (e.rec_ role) 8 8) (if e.twin role then d.copyBytes else 0) with
      | .error x, _ => (s, x)
      | _, .error x => (s, x)
      | .ok ss, .ok ts =>
        let s2 := part x.scales 11 ss (List.range (d.scaleCount role)) s1
        (if e.twin role then part x.twin d.w ts (List.range (d.rows * d.cols)) s2 else s2, .done)

/-- Carry out one piece of work on entry `e`: the state, its flags, and how it ends. -/
def runWork (s : State) (k : Walker) (e : LogEntry) (x : Work) : State × Nat × WorkEnd :=
  let wg := k.w.wg
  -- a product's adjoint reads its sources flipped (R341, R343)
  let t := entryTile s k e k.cmd.b (e.fn ≤ 1)
  let out (o : StepOut) : State × Nat × WorkEnd := (o.s, o.xf, if o.code = 0 then .done else .fin (.code o.code))
  match x with
  | .idle => (s, 0, .done)
  | .stage p role off n => let r := runStage s k p role off n; (r.1, 0, if r.2 = .done then .done else .fin r.2)
  | .verify p role =>
    let d := p.desc role
    match operandCodes s wg d role with
    | none => (s, 0, .fin (.code 4))
    | some (cs, ss) =>
      if refHash d cs ss = leAt (p.rec_ role) 16 8 then (s, 0, .done) else (s, 0, .stop statHash 8 (k.r.rpos - 1))
  | .redo p off n =>
    let o := tileStep s (entryTile s k p off false) n []
    (o.s, 0, if o.code = 0 then .done else .fin (.code o.code))
  | .stop b r i => (s, 0, .stop b r i)
  | .fail f => (s, 0, .fin f)
  | .phase role n =>
    let d := e.desc role
    out (runPhase s k e t (gradRead s wg t.d) false role (tileCells d.rows d.cols n))
  | .zero n => (gradWrites s wg t.d ((t.cells n).map (fun c => (c, 0))), 0, .done)
  | .joined =>
    -- every gradient of the destination is read before one is written (R340)
    let gd := gradRead s wg t.d
    let step (a : StepOut) (role : Nat) : StepOut :=
      if a.code ≠ 0 || !e.has role || (e.desc role).gro = 0 then a
      else
        let d := e.desc role
        let o := runPhase a.s k e t gd (coincide s k e role) role
          ((List.range d.tiles).flatMap (tileCells d.rows d.cols))
        { o with xf := a.xf ||| o.xf }
    let o := step (step { s := s, xf := 0 } 1) 2
    if o.code = 0 then (o.s, o.xf, .done) else (s, 0, .fin (.code o.code))

/-! ### The walk (R342) -/

def walker (s : State) (cmd : Cmd) : Walker :=
  { cmd := cmd, w := cmd.who s, r := cmd.record s, len := roundUp (s.wgRec cmd.wg).scratch 64 }

/-- A REVERSE, or another command of OP 0x38, after one step: still running, or complete with a CODE, or waiting. -/
structure RunOut where
  s : State
  xf : Nat := 0
  fin : Option EngEnd

/-- REVERSE ends: the header, and REV (R342). -/
def endReverse (s : State) (cmd : Cmd) (xf : Nat) (fin : EngEnd) : RunOut :=
  let w := cmd.who s
  let o := orWait s cmd.wg (engWrites s w (headerWrites (cmd.record s)))
  if o.fin = .wait then { s := o.s, fin := some .wait }
  else
    { s := o.s.modRec cmd.wg (fun r => { r with rev := false }), xf := xf
      fin := some (if fin = .done then o.fin else fin) }

/-- The walk goes on below entry RPOS: entries that need no work are passed, to the mark or the start. -/
def walkOn (cmd : Cmd) : Nat → State → Nat → RunOut
  | 0, s, xf => { s := s, xf := xf, fin := none }
  | n + 1, s, xf =>
    let r := cmd.record s
    let stopAt (s : State) : RunOut :=
      endReverse (s.modRec cmd.wg (fun r => { r with nent := r.rpos }.addStat statDone)) cmd xf .done
    if r.rpos = 0 then stopAt (s.modRec cmd.wg (fun r => r.addStat statNomark))
    else
      let k := walker s cmd
      match readEntry s k.w r (r.rpos - 1) with
      | .error e => endReverse s cmd xf e
      | .ok e =>
        if e.typ = 2 && e.aval = cmd.a then stopAt s
        else if (entryWork s k e).isEmpty then walkOn cmd n (s.modRec cmd.wg (fun r => { r with rpos := r.rpos - 1 })) xf
        else { s := s, xf := xf, fin := none }

/-- The last walk of the record stopped under R343. -/
def RecState.stopped (r : RecState) : Bool := r.stat.getLsbD 1 || r.stat.getLsbD 2 || r.stat.getLsbD 5

/-- REVERSE begins (R342): at the tail of the log, or, after a walk that stopped, at the entry where it stopped (R343, R505).
[DEDUCED; log entry 136] -/
def beginReverse (s : State) (cmd : Cmd) : RunOut :=
  let r := cmd.record s
  if r.base = 0 || r.stat.getLsbD 0 then
    let s := s.modRec cmd.wg (fun r => r.addStat statRefused)
    endReverse (engineReport s cmd 0x0B (cmd.num % 2 ^ 48) (s.getWg cmd.wg).recd.stat.toNat) cmd 0 .done
  else
    let s := s.modRec cmd.wg (fun r => { r with stat := r.stat &&& 0xFFFFFF81, rpos := if r.stopped then r.rpos else r.nent })
    walkOn cmd (r.nent + 1) s 0

/-- The entry under way is not interrupted (R344): its gradient tiles coincide. -/
def unbroken (s : State) (cmd : Cmd) : Bool :=
  let k := walker s cmd
  match readEntry s k.w k.r (k.r.rpos - 1) with
  | .ok e => e.typ = 1 && !nullAdjoint e.fn && (e.desc 0).gro ≠ 0 && (coincide s k e 1 || coincide s k e 2)
  | .error _ => false

/-- Step STEP of the entry under way. -/
def stepReverse (s : State) (cmd : Cmd) (step : Nat) : RunOut × Nat :=
  let k := walker s cmd
  match readEntry s k.w k.r (k.r.rpos - 1) with
  | .error e => (endReverse s cmd 0 e, step)
  | .ok e =>
    let work := entryWork s k e
    match work[step]? with
    | none => (walkOn cmd (k.r.rpos + 1) (s.modRec cmd.wg (fun r => { r with rpos := r.rpos - 1 })) 0, 0)
    | some x =>
      match runWork s k e x with
      | (s, _, .stop bit reason info2) =>
        let s := s.modRec cmd.wg (fun r => r.addStat bit)
        (endReverse (engineReport s cmd reason (cmd.num % 2 ^ 48) info2) cmd 0 .done, step)
      | (s, xf, .fin e) => (endReverse s cmd xf e, step)
      | (s, xf, .done) =>
        if step + 1 < work.length then ({ s := s, xf := xf, fin := none }, step + 1)
        else (walkOn cmd (k.r.rpos + 1) (s.modRec cmd.wg (fun r => { r with rpos := r.rpos - 1 })) xf, 0)

/-! ### The other commands of OP 0x38 -/

/-- RECBEGIN, RECEND and RECMARK run (R333, R334). -/
def runRecord (s : State) (cmd : Cmd) : EngOut :=
  let w := cmd.who s
  let r := cmd.record s
  match cmd.instr with
  | .recbegin _ =>
    let s := s.modRec cmd.wg (fun r => { r with nent := 0, rpos := 0, payused := 0, stat := 0 })
    orWait s cmd.wg (engWrites s w [(r.base, headerBytes (cmd.record s) ++ zeros 192)])
  | .recend _ =>
    if cmd.b = 0 || r.base = 0 then { s := s, fin := .done }
    else orWait s cmd.wg (engWrites s w [(r.base + 0x10, toLE 4 r.nent ++ toLE 4 r.rpos),
                                         (r.base + 0x20, toLE 8 r.payused ++ toLE 4 r.stat.toNat)])
  | .recmark _ =>
    if cmd.b = 0 then { s := s, fin := .done }
    else logRoom s cmd 0 (fun prod =>
      let clear := if r.clr = 0 then [] else [(r.base + 0x40, prod.flatMap (toLE 4))]
      logWrites s cmd (clear ++ [(r.base + 0x100 + 128 * r.nent, entryBytes 0 2 0 cmd.num cmd.a 0 0 0 0)])
        (fun s => s.modRec cmd.wg (fun r => { r with clr := 0, nent := r.nent + 1 })))
  | _ => { s := s, fin := .done }

end Sys2Proof.Machine
end

