-- ==== Sys2Proof/Machine/Copies.lean ====
section
/-!
DEFINITION. OP 0x32 and 0x33: copy, gather, scatter and collective commands, and the instructions on handles (R165 to R169,
R318 to R325, R389, R499, R503).
-/

namespace Sys2Proof.Machine

open Sys2Proof

/-! ### Transfers -/

/-- One piece of a transfer: bits from a source to a destination, each in the issuer's scratchpad or in global memory. -/
structure Move where
  srcPad : Bool
  src : Nat
  dstPad : Bool
  dst : Nat
  n : Nat
  deriving DecidableEq, Repr

/-- A run of `n` bits cut at the aligned 8-byte words of its destination. -/
def movesOf (srcPad : Bool) (src : Nat) (dstPad : Bool) (dst n : Nat) : List Move :=
  if n = 0 then []
  else (List.range ((dst + n - 1) / 64 - dst / 64 + 1)).map (fun i =>
    let lo := max dst ((dst / 64 + i) * 64)
    let hi := min (dst + n) ((dst / 64 + i + 1) * 64)
    ⟨srcPad, src + (lo - dst), dstPad, lo, hi - lo⟩)

/-- Read bits for an engine. -/
def bitsRead (s : State) (w : Who) (pad : Bool) (b n : Nat) : Except EngEnd Nat × State :=
  if pad then
    match padBits s w.wg b n with
    | none => (.error (.code 4), s)
    | some x => (.ok x, s)
  else
    match engRead s w (b / 8) ((b + n - 1) / 8 - b / 8 + 1) with
    | (.error e, s) => (.error e, s)
    | (.ok bs, s) => (.ok (bits (ofLE bs) (b % 8) n), s)

/-- Where a piece's bits go, checked: nothing to check in a scratchpad. -/
def moveTarget (s : State) (w : Who) (m : Move) : Except EngEnd (List TPart) × State :=
  if m.dstPad then (.ok [], s)
  else
    match engParts s w rightW (lineParts (m.dst / 8) ((m.dst + m.n - 1) / 8 - m.dst / 8 + 1)) with
    | (_, some c, s) => (.error (.code c), s)
    | (ts, none, s) =>
      if ts.any (fun t => s.heldEngine t.pa t.part.n w.wg) then (.error .wait, s)
      else if engDelivery s w ts ≠ .done then (.error (engDelivery s w ts), s)
      else (.ok ts, s)

/-- Write a piece's bits. -/
def moveWrite (s : State) (w : Who) (m : Move) (ts : List TPart) (x : Nat) : EngOut :=
  if m.dstPad then { s := padPut s w.wg m.dst m.n x, fin := .done }
  else
    engRoom s w.wg ts 0 (fun s =>
      { s := (ts.foldl (fun (a : State × List (Byte × Byte)) t =>
          (engPut a.1 w.wg t (a.2.take t.part.n), a.2.drop t.part.n)) (s, bitBytes m.dst m.n x)).1
        fin := .done })

/-- Read pieces and check their targets, in order, up to the first that fails. -/
def gatherMoves (s : State) (w : Who) : List Move → List (Move × List TPart × Nat) × EngEnd × State
  | [] => ([], .done, s)
  | m :: ms =>
    match bitsRead s w m.srcPad m.src m.n with
    | (.error e, s) => ([], e, s)
    | (.ok x, s) =>
      match moveTarget s w m with
      | (.error e, s) => ([], e, s)
      | (.ok ts, s) =>
        let r := gatherMoves s w ms
        ((m, ts, x) :: r.1, r.2)

/-- Write gathered pieces whose aligned word is kept, in order. -/
def writeMoves (s : State) (w : Who) (keep : Nat → Bool) : List (Move × List TPart × Nat) → EngOut
  | [] => { s := s, fin := .done }
  | (m, ts, x) :: ms =>
    if !keep (m.dst / 64) then writeMoves s w keep ms
    else
      match moveWrite s w m ts x with
      | { s := s, fin := .done } => writeMoves s w keep ms
      | o => o

/-- One run of pieces, all read before any is written (R319). -/
def runMoves (s : State) (w : Who) (keep : Nat → Bool) (ms : List Move) : EngOut :=
  match gatherMoves s w ms with
  | (_, .wait, s) => { s := s, fin := .wait }
  | (gs, e, s) =>
    match writeMoves s w keep gs with
    | { s := s, fin := .done } => { s := s, fin := e }
    | o => o

/-- Rows one after another (R320): `row` gives a row's pieces from the state before it. -/
def runRows (s : State) (w : Who) (keep : Nat → Bool) (row : State → Nat → Except EngEnd (List Move)) :
    List Nat → EngOut
  | [] => { s := s, fin := .done }
  | r :: rs =>
    match row s r with
    | .error e => { s := s, fin := e }
    | .ok ms =>
      match runMoves s w keep ms with
      | { s := s, fin := .done } => runRows s w keep row rs
      | o => o

/-- The pieces of TCOPY's tile form (R319): elements, then scale words. -/
def tileMoves (d a : Desc) (sbo : Bool) : List Move :=
  let pad (x : Desc) : Bool := x.loc = 0
  (List.range d.rows).flatMap (fun i => (List.range d.cols).flatMap (fun j =>
    movesOf (pad a) (a.bitAt i j) (pad d) (d.bitAt i j) d.w)) ++
  (if d.kind then (List.range (d.scales sbo)).flatMap (fun t =>
    movesOf (pad a) (a.scaleBit t).toNat (pad d) (d.scaleBit t).toNat 11) else [])

/-- Row r of TGATHER or TSCATTER. -/
def rowMoves (w : Who) (cmd : Cmd) (f : Fields) (scatter : Bool) (s : State) (r : Nat) : Except EngEnd (List Move) :=
  let e := rowBytes f
  match padBits s w.wg (8 * (cmd.a + 4 * r)) 32 with
  | none => .error (.code 4)
  | some x =>
    let table := 8 * ((cmd.b + x * e) % 2 ^ 80)
    let pad := 8 * (cmd.c + r * e)
    .ok (if scatter then movesOf true pad false table (8 * e) else movesOf false table true pad (8 * e))

/-- Perform the transfer of a command, the words that `keep` names. -/
def transfer (s : State) (cmd : Cmd) (keep : Nat → Bool) : EngOut :=
  let w := cmd.who s
  match cmd.instr with
  | .tcopy f => runMoves s w keep (movesOf (bitB f.immN 26) (8 * cmd.a) (bitB f.immN 25) (8 * cmd.b) (8 * cmd.c))
  | .tcopyTile f => runMoves s w keep (tileMoves (descOf cmd.fmt cmd.dd) (descOf cmd.fmt cmd.da) (bitB f.immN 11))
  | .tgather f => runRows s w keep (rowMoves w cmd f false) (List.range (rowCount f))
  | .tscatter f => runRows s w keep (rowMoves w cmd f true) (List.range (rowCount f))
  | _ => { s := s, fin := .done }

/-! ### The queues of the shared engines (R166, R318, R323, R438) -/

/-- Start the command at the head of a context's queue: the cycle at which it completes is open. -/
def startHead (s : State) (e : Nat) : State :=
  let g := s.getEng e
  if g.queue = [] then s
  else { s with free := s.free + 1 }.setEng e { g with busyUntil := s.now + 1 + Config.delay s.free }

/-- The head of a context's queue is complete. -/
def popHead (s : State) (e : Nat) (cmd : Cmd) (code : Nat) : State :=
  let s := s.modEng e (fun g => { g with queue := g.queue.filter (fun c => c.num ≠ cmd.num) })
  startHead (finishCommand s e cmd code 0 false) e

/-- The head waits one more cycle; a workgroup whose buffer is full is held (R177). -/
def headWaits (s : State) (e : Nat) (cmd : Cmd) : State :=
  let s := if s.wgDet cmd.wg && ((transfer s cmd (fun _ => true)).s.getWg cmd.wg).det.held then holdFull s cmd.wg else s
  s.modEng e (fun g => { g with busyUntil := s.now + 1 })

/-- The words that a cancelled or failed transfer has written: any subset (R169, R438). -/
def subsetOf (n : Nat) : Nat → Bool := Config.subset n

/-- The head of the queue of a shared context comes to its end, and is a copy, gather or scatter command. -/
def completeTransfer (s : State) (e : Nat) (cmd : Cmd) : State :=
  if cmd.cancel && !cmd.begun then popHead s e cmd 1
  else
    let o := transfer s cmd (fun _ => true)
    let part (code : Nat) : State :=
      popHead (transfer { s with free := s.free + 1 } cmd (subsetOf s.free)).s e cmd code
    match o.fin with
    | .done => if cmd.cancel then part 1 else popHead o.s e cmd 0
    | .code 1 => popHead o.s e cmd 1
    | .code n => part (if cmd.cancel then 1 else n)
    | .wait =>
      if cmd.cancel then part 1 else headWaits s e cmd

/-- The head of a context's queue is due. -/
def headDue (s : State) (g : Eng) : Bool :=
  g.kind ≤ 1 && g.queue ≠ [] && g.busyUntil ≤ s.now

/-- ENGINE_COMMAND_COMPLETION (R302): the command at the head of engine context `ctx` completes. -/
def execEngineCommandCompletion (ctx : Nat) (s : State) : Host.Outcome State Fault Refusal :=
  .next (match (s.getEng ctx).queue with
    | cmd :: _ => if headDue s (s.getEng ctx) then completeTransfer s ctx cmd else s
    | [] => s)

/-! ### Issue of OP 0x32 (R318, R427) -/

/-- The engine contexts of a kind of a device context, by queue (R301). -/
def queueOf (s : State) (ctx kind q : Nat) : Option Nat :=
  ((s.engs.filter (fun (e : Nat × Eng) => e.2.owner = some ctx && e.2.kind = kind)).map (·.1))[q]?

/-- Q. -/
def Iss.queue (c : Iss) : Nat := bits c.f.immN 21 3

/-- The fault of scratchpad ranges that reach S' (R318, R472): per lane its ranges (offset, length). -/
def rangeTrap (c : Iss) (xs : List (Nat × Nat × Nat)) : Option Trap :=
  let bad := xs.filter (fun e => e.2.2 ≠ 0 && scratchLen c.s c.wg < e.2.1 + e.2.2)
  let info (e : Nat × Nat × Nat) : Nat := e.2.1 % 2 ^ 32 + c.g.qgpos % 4 * 2 ^ 32
  match bad with
  | [] => none
  | e :: _ =>
    let last := (bad.getLast?).getD e
    let hi := (bad.find? (fun x => x.1 = last.1)).getD last
    some { cls := 6, reason := 5, info := info e, info2 := info hi, fmask := laneSet ((bad.map (·.1)).dedup) }

/-- Put one command on a shared context. -/
def enqueue (s : State) (e : Nat) (cmd : Cmd) (promise : Bool) : State :=
  let g := s.getEng e
  let prom := if promise then s.now + Config.delay s.free else 0
  let s := if promise then { s with free := s.free + 1 } else s
  let g := { g with next := cmd.num + 1, queue := g.queue ++ [{ cmd with promised := prom }],
                    proms := if promise then g.proms.put cmd.num prom else g.proms }
  let s := s.setEng e g
  if g.queue.length = 1 && promise then startHead s e else s

/-- Issue one command per active lane to the context of queue Q of a kind (R167, R318): `mk` gives a lane's command of a
number, `now` says which complete at once. -/
def queueIssue (c : Iss) (kind sco : Nat) (mk : State → Nat → Nat → Cmd × State) (atOnce : Nat → Bool) : Res :=
  match queueOf c.s c.ctx kind c.queue with
  | none => .wait
  | some e =>
    if 64 < (c.s.getEng e).queue.length + c.act.length then .wait
    else
      match fenceFirst c c.s sco with
      | .error s => .other s
      | .ok s =>
        let r := c.act.foldl (fun (a : State × List (Nat × Nat)) l =>
          let num := (a.1.getEng e).next
          let m := mk a.1 num l
          let s := if atOnce l then
              finishCommand (m.2.modEng e (fun g => { g with next := num + 1, proms := g.proms.put num a.1.now })) e m.1 0 0 false
            else enqueue m.2 e m.1 (kind ≤ 1)
          (s, a.2 ++ [(l, handleOf e num)])) (s, [])
        .out { s := r.1, writes := if c.f.d = 0 then [] else destWrites c.warp c.f.d.toNat true r.2 }

/-- A command of OP 0x32 of one lane. -/
def Iss.laneCommand (c : Iss) (i : Instr) (num l a b k : Nat) : Cmd :=
  { c.command i num a b k with lane := l, log := false, draw := 0, gid := 0,
                               dd := c.g.m.get 0 c.f.cmd, da := c.g.m.get 0 c.f.cma, db := 0 }

/-- An operand of OP 0x32: a scratchpad offset, or a global address. -/
def Iss.place (c : Iss) (pad : Bool) (code : Nat) (l : Nat) : Nat :=
  if pad then c.read code false l else c.ea code (bitB c.f.immN 24) 0 l

/-- TCOPY, linear form (R318, R319). -/
def execTcopy (f : Fields) (s : State) : Host.Outcome State Fault Refusal :=
  .next (issue (.tcopy f)
    { run := fun c =>
        let ss := bitB c.f.immN 26
        let ds := bitB c.f.immN 25
        let a (l : Nat) : Nat := c.place ss c.f.a.toNat l
        let b (l : Nat) : Nat := c.place ds c.f.b.toNat l
        let n (l : Nat) : Nat := c.read c.f.c.toNat false l
        match rangeTrap c (c.act.flatMap (fun l =>
            (if ss then [(l, a l, n l)] else []) ++ (if ds then [(l, b l, n l)] else []))) with
        | some t => .trap t false
        | none => queueIssue c 0 6 (fun s num l => (c.laneCommand (.tcopy f) num l (a l) (b l) (n l), s)) (fun l => n l = 0) }
    s)

/-- The checks of TCOPY's tile form (R294, R319). -/
def tcopyFails (c : Iss) : List Fail :=
  let g := c.g
  let d := descOf g.fmts (g.m.get 0 c.f.cmd)
  let a := descOf g.fmts (g.m.get 0 c.f.cma)
  let sbo := bitB c.f.immN 11
  let len := roundUp c.lr.scratch 64
  let one (role ix : Nat) (x : Desc) : List (Nat × Fld × Nat) :=
    (if x.v && !x.kind && x.loc ≠ 2 && !(x.slot g.fmts g.amr).valid then [(0x0B, .slot, x.fs)] else []) ++
    (if !x.v || !x.formOk || !(x.loc = 0 || x.loc = 3) || x.selfOverlap || (x.loc = 0 && !x.fits len sbo) then
      [(0x10, .desc, ix + 16 * role)] else [])
  let alone := one 0 c.f.cmd d ++ one 1 c.f.cma a
  let pair : List (Nat × Fld × Nat) :=
    if alone.any (fun x => x.1 = 0x10) then []
    else if (d.loc = 0 && a.loc = 0) || d.rows ≠ a.rows || d.cols ≠ a.cols || d.kind ≠ a.kind || d.w ≠ a.w ||
        d.bl ≠ a.bl || (sbo && !d.kind) ||
        (d.loc = a.loc && spansMeet (d.spans ++ d.scaleSpans sbo) (a.spans ++ a.scaleSpans sbo)) then [(0x10, .desc, c.f.cma + 16)]
    else []
  (alone ++ pair).map (fun x => ⟨x.1, x.2.1, x.2.2, c.amask⟩)

/-- TCOPY, tile form (R319). -/
def execTcopyTile (f : Fields) (s : State) : Host.Outcome State Fault Refusal :=
  .next (issue (.tcopyTile f)
    { state := tcopyFails
      run := fun c => queueIssue c 0 6 (fun s num l => (c.laneCommand (.tcopyTile f) num l 0 0 0, s)) (fun _ => false) } s)

/-- TGATHER and TSCATTER (R320). -/
def rowsRun (c : Iss) (i : Instr) : Res :=
  let a (l : Nat) : Nat := c.read c.f.a.toNat false l
  let k (l : Nat) : Nat := c.read c.f.c.toNat false l
  let n := rowCount c.f
  match rangeTrap c (c.act.flatMap (fun l => [(l, a l, 4 * n), (l, k l, n * rowBytes c.f)])) with
  | some t => .trap t false
  | none => queueIssue c 1 6 (fun s num l =>
      (c.laneCommand i num l (a l) (c.ea c.f.b.toNat (bitB c.f.immN 24) 0 l) (k l), s)) (fun _ => false)

/-- TGATHER (R320). -/
def execTgather (f : Fields) (s : State) : Host.Outcome State Fault Refusal :=
  .next (issue (.tgather f) { run := fun c => rowsRun c (.tgather f) } s)
/-- TSCATTER (R320). -/
def execTscatter (f : Fields) (s : State) : Host.Outcome State Fault Refusal :=
  .next (issue (.tscatter f) { run := fun c => rowsRun c (.tscatter f) } s)

/-! ### Collectives (R321, R389) -/

/-- TCOLL (R321): accepted with the next number of its group. -/
def execTcoll (f : Fields) (s : State) : Host.Outcome State Fault Refusal :=
  .next (issue (.tcoll f)
    { vals := fun c => if c.act.length = 1 then [] else [⟨0x0C, .value, c.act.length, c.amask⟩]
      run := fun c =>
        queueIssue c 2 7 (fun s num l =>
          let g := s.groups.get Group.init (collGroup c.f)
          ({ c.laneCommand (.tcoll f) num l (c.ea c.f.a.toNat false 0 l) (c.ea c.f.b.toNat false 0 l)
               (c.read c.f.c.toNat false l) with coll := g.k },
           { s with groups := s.groups.put (collGroup c.f) { g with k := g.k + 1 } })) (fun _ => false) } s)

/-- The members of a group in rank order, as this package has them. -/
def groupMembers (s : State) (g : Nat) : List Nat :=
  let x := s.groups.get Group.init g
  (List.range (x.words.get 0 0 % 2048)).map (fun r => x.words.get 0 (r + 1) % 1024)

/-- One element of a reduction over the members' values in ascending rank. -/
def collElem (op : Nat) : List Nat → Nat
  | [] => 0
  | x :: xs => xs.foldl (fun a y => if op = 2 then (a + y) % 2 ^ 32 else if op = 0 then atomF32 0 a y else atomF32 2 a y) x

/-- What a member's destination receives, from every member's source in rank order. -/
def collResult (op count : Nat) (srcs : List (List Byte)) : List Byte :=
  match op with
  | 3 => srcs.flatten
  | 4 => srcs.headD []
  | _ => (List.range count).flatMap (fun e => toLE 4 (collElem op (srcs.map (fun b => leAt b (4 * e) 4))))

/-- A collective command ends. -/
def endColl (s : State) (e : Nat) (cmd : Cmd) (code : Nat) : State :=
  finishCommand (s.modEng e (fun g => { g with queue := g.queue.filter (fun c => c.num ≠ cmd.num) })) e cmd code 0 false

/-- COLLECTIVE_COMPLETE (R321, R389): every other member has brought its part to the oldest collective on the group, or this one
was cancelled before it started (R323). -/
def execCollectiveComplete (group : Nat) (remote : List CollPart) (s : State) : Host.Outcome State Fault Refusal :=
  .next (match oldestColl s group with
    | none => s
    | some (e, cmd) =>
      let ms := groupMembers s group
      let op := match cmd.instr with | .tcoll f => bits f.immN 25 3 | _ => 0
      let n := cmd.c
      if cmd.cancel && !cmd.begun then endColl s e cmd 1
      else if !ms.contains s.pkgid ||
          remote.any (fun p => ms.length ≤ p.rank || p.op ≠ op || p.count ≠ n || p.members ≠ ms) then endColl s e cmd 7
      else if !((List.range ms.length).all (fun r => ms[r]? = some s.pkgid || remote.any (fun p => p.rank = r))) then s
      else
        let w := cmd.who s
        match engRead s w cmd.a (4 * n) with
        | (.error (.code c), s) => endColl s e cmd c
        | (.error _, s) => s
        | (.ok own, s) =>
          let srcs := (List.range ms.length).map (fun r =>
            if ms[r]? = some s.pkgid then own
            else ((remote.find? (fun p => p.rank = r)).map (fun p => fitBytes (4 * n) p.data)).getD [])
          let o := engWrite s w cmd.b (collResult op n srcs)
          match o.fin with
          | .done => endColl o.s e cmd 0
          | .code c => endColl o.s e cmd c
          | .wait => s)

/-- A collective whose outcome needs no other member: the group has this package alone, or lacks it, or the collective was
cancelled before it started. -/
def soloColl (s : State) (g : Nat) : Bool :=
  match oldestColl s g with
  | none => false
  | some c => (c.2.cancel && !c.2.begun) || !(groupMembers s g).contains s.pkgid || (groupMembers s g).all (· = s.pkgid)

/-! ### Handles (R322 to R325, R499) -/

/-- The handle of a lane. -/
def Iss.handle (c : Iss) (l : Nat) : Nat := c.read c.f.a.toNat true l
/-- The trap of handles that may not be used (R499). -/
def Iss.handleFault (c : Iss) : Option Trap := handleTrap c.s c.ctx (c.act.map (fun l => (l, c.handle l)))
/-- A lane's command is complete. -/
def Iss.isDone (c : Iss) (l : Nat) : Bool := handleState c.s c.ctx (c.handle l) = .complete

/-- Lanes observe the completion of the commands named (R168), once no write-back of the core has to wait at its unit (R155). -/
def Iss.observe (c : Iss) (hs : List Nat) (k : State → Res) : Res :=
  if hs.all (· = 0) then k c.s
  else if writebackHeld c.s c.core (fun _ => true) then c.awaitWriteback (fun _ => true)
  else k (dropAll c.s c.core)

/-- HWAIT (R322). -/
def execHwait (f : Fields) (s : State) : Host.Outcome State Fault Refusal :=
  .next (issue (.hwait f)
    { run := fun c =>
        match c.handleFault with
        | some t => .trap t false
        | none =>
          if c.act.all c.isDone then c.observe (c.act.map c.handle) (fun s => .out { s := s })
          else .other (parkOnHandle c (c.f.a.toNat - 120)) } s)

/-- HTEST (R322). -/
def execHtest (f : Fields) (s : State) : Host.Outcome State Fault Refusal :=
  .next (issue (.htest f)
    { run := fun c =>
        match c.handleFault with
        | some t => .trap t false
        | none => c.observe ((c.act.filter c.isDone).map c.handle) (fun s =>
            .out { s := s, writes := destWrites c.warp c.f.d.toNat false (c.act.map (fun l => (l, b2n (c.isDone l)))) }) } s)

/-- The workgroup whose matrix engine context it is. -/
def engHolder (s : State) (e : Nat) : Option (Nat × Wg) := List.find? (fun (g : Nat × Wg) => g.2.eng = some e) s.wgs

/-- Ask for the cancellation of command `num` of engine context `e` (R323). -/
def cancelOne (s : State) (e num : Nat) : State :=
  let g := s.getEng e
  let mine (c : Cmd) : Bool := c.num = num
  let s := s.setEng e { g with
    queue := stopQueue s mine g.queue
    parkedRun := g.parkedRun.map (fun r => { r with cmd := r.cmd.stop mine true })
    parkedStaged := g.parkedStaged.map (fun x => x.stop mine false) }
  if g.kind ≠ 3 then s
  else
    match engHolder s e with
    | none => s
    | some (wg, x) => if x.resident then s.modMx wg (fun m => m.stop mine) else s

/-- HCANCEL (R322, R323). -/
def execHcancel (f : Fields) (s : State) : Host.Outcome State Fault Refusal :=
  .next (issue (.hcancel f)
    { run := fun c =>
        match c.handleFault with
        | some t => .trap t false
        | none => .out { s := c.act.foldl (fun s l =>
            let h := c.handle l
            if h = 0 || c.isDone l then s
            else cancelOne s (h / 2 ^ 52) (handleNum (s.getEng (h / 2 ^ 52)).count h)) c.s } } s)

/-- The promised cycle of a handle's command, if it carries one (R318, R324). -/
def promiseOf (s : State) (ctx h : Nat) : Option Nat :=
  let g := s.getEng (h / 2 ^ 52)
  let n := handleNum g.count h
  if h = 0 || g.owner ≠ some ctx || n ≤ g.abase || 1 < g.kind then none else Sparse.find? g.proms n

/-- HSLEEP (R324). -/
def execHsleep (f : Fields) (s : State) : Host.Outcome State Fault Refusal :=
  .next (issue (.hsleep f)
    { run := fun c =>
        match c.handleFault with
        | some t => .trap t false
        | none =>
          let ls := c.act.filterMap (fun l => (promiseOf c.s c.ctx (c.handle l)).map (fun p => (l, p)))
          .out { s := c.s.modWarp c.wg c.w (fun w => ls.foldl (fun w e =>
                   w.park [e.1] (.hsleep (c.f.a.toNat - 120)) c.cur.npc e.2) w)
                 moves := ls.map (fun e => (e.1, none)) } } s)

/-- The completion word that HSTAT writes (R325). -/
def statWord (s : State) (ctx h : Nat) : Nat :=
  if h = 0 then 0
  else
    let g := s.getEng (h / 2 ^ 52)
    let n := handleNum g.count h
    let w := (g.ring.get 0 (n % 256)).toNat
    if w % 2 ^ 48 = n % 2 ^ 48 && (n ≤ g.count || g.early.contains n) then w
    else if handleState s ctx h = .pending then 0xFE * 2 ^ 56
    else 0xFF * 2 ^ 56

/-- HSTAT (R325). -/
def execHstat (f : Fields) (s : State) : Host.Outcome State Fault Refusal :=
  .next (issue (.hstat f)
    { run := fun c =>
        match c.handleFault with
        | some t => .trap t false
        | none =>
          -- erratum 0x0002, emulated, answers all ones for a command without a promise (R408, R409)
          let none_ : Nat := if (c.s.getCtx c.ctx).compat then 2 ^ 64 - 1 else 0
          let x (l : Nat) : Nat := if bitB c.f.immN 20 then (promiseOf c.s c.ctx (c.handle l)).getD (if c.handle l = 0 then 0 else none_)
            else statWord c.s c.ctx (c.handle l)
          .out { s := c.s, writes := destWrites c.warp c.f.d.toNat true (c.act.map (fun l => (l, x l))) } } s)

/-- The register an HSLEEP sleeps on, for a lane whose wake cycle it is. -/
def hsleeping (w : Warp) (wake l : Nat) : Option Nat :=
  match (w.lane l).hold with
  | some h => (match h.kind with
    | .hsleep r => if h.wake = wake then some r else none
    | _ => none)
  | none => none

/-- Held lanes by the PC they resume at, each list the lanes of one trap (R428, R503). -/
def lateGroups (x : Warp) (ls : List Nat) : List (List Nat) :=
  let pc (l : Nat) : Option Va := (x.lane l).hold.map (·.rpc)
  (ls.map pc).dedup.map (fun p => ls.filter (fun l => pc l = p))

/-- HSLEEP_WAKE (R324, R503): the lanes of a wake cycle are released together; those whose command is complete have
observed it, once no write-back of their core has to wait at its unit (R155), and the others trap before they issue. -/
def execHsleepWake (wg warp wake : Nat) (s : State) : Host.Outcome State Fault Refusal :=
  .next (if s.now < wake then s
    else
      let x := s.getWarp wg warp
      let ls := x.heldLanes.filter (fun l => (hsleeping x wake l).isSome)
      let h (l : Nat) : Nat := (x.getH l ((hsleeping x wake l).getD 0)).toNat
      let late := ls.filter (fun l => handleState s (s.wgCtx wg) (h l) ≠ .complete)
      let core := (s.getWg wg).core
      let observes : Bool := ls.any (fun l => !late.contains l && h l ≠ 0)
      if observes && writebackHeld s core (fun _ => true) then sendWritebacks s core (fun _ => true) else
      let s := if observes then dropAll s core else s
      s.modWarp wg warp (fun y => (lateGroups x late).foldl (fun y g =>
        y.report (y.newReport 0x906 (h (g.headD 0)) wake (laneSet g) (laneSet g) (laneSet g))) (y.releaseLanes ls)))

end Sys2Proof.Machine
end

