-- ==== Sys2Proof/Machine/Infuser.lean ====
section
/-!
DEFINITION. The Infuser: starting a command, its native steps, the drain of TDRAIN, and how a command ends (R305 to R313,
R323, R336, R342, R438, R492 to R494).
-/

namespace Sys2Proof.Machine

open Sys2Proof

/-! ### A command as a tile to run -/

/-- The source codes that a command reads are those it began with: of a transposition in place (R294), and of a drain, whose updates
of `mx` may follow the writes of an earlier native tile (R312, R313). -/
def fromSnap (fn opx : Nat) (cmd : Cmd) : Bool := (fn = 5 && cmd.dd = cmd.da) || drains fn opx

/-- The engine context of a workgroup. -/
def engOf (s : State) (wg : Nat) : Nat := ((s.getWg wg).eng).getD 0

/-- The tile operation of a command. -/
def Cmd.tile (s : State) (cmd : Cmd) (fn : Nat) (f : Fields) : Tile :=
  let da := descOf cmd.fmt cmd.da
  let db := descOf cmd.fmt cmd.db
  let snap := (s.getEng (engOf s cmd.wg)).snap
  { fn := fn, opx := f.opx, a := cmd.a, d := descOf cmd.fmt cmd.dd, da := da, db := db, mr := cmd.mr, mc := cmd.mc,
    fmt := cmd.fmt, amr := cmd.amr, seed := (s.wgRec cmd.wg).seed, draw := cmd.draw, gid := cmd.gid, wg := cmd.wg,
    src := fun isB i j =>
      if isB then elemRead s cmd.wg db i j
      else if fromSnap fn f.opx cmd then Sparse.find? snap (256 * i + j)
      else elemRead s cmd.wg da i j
    scl := fun isB t => scaleRead s cmd.wg (if isB then db else da) t
    sc := fun n => (s.mxOf cmd.wg).scale n }

/-- The source codes that a command begins with. -/
def takeSnap (s : State) (cmd : Cmd) : Sparse Nat :=
  let d := descOf cmd.fmt cmd.da
  d.cells.foldl (fun m e => match elemRead s cmd.wg d e.1 e.2 with
    | some x => Sparse.put m (256 * e.1 + e.2) x
    | none => m) []

/-! ### TDRAIN (R313) -/

/-- One element of a drain: its place in the accumulator, the request, and the flags of its rounding. -/
structure Request where
  i : Nat
  j : Nat
  u : Nat
  xf : Nat
  ts : List TPart

/-- The requests of a step, up to the first element that fails; and the elements that were converted, of which the last one's request
may have failed. -/
def drainRequests (s : State) (cmd : Cmd) (t : Tile) (pair : Bool) : List (Nat × Nat) →
    List Request × List (Nat × Nat) × EngEnd × State
  | [] => ([], [], .done, s)
  | (i, j) :: es =>
    match t.src false i j with
    | none => ([], [], .code 4, s)
    | some c =>
      let p := mulVals (decodeVal t.a f32).negate (decodeVal c f32)
      let r := roundVal f32 p.1 0
      let parts : List Part := ⟨0, t.d.bitAt i j / 8 % 2 ^ 80, 4⟩ :: (if pair then [⟨0, t.d.twinAt i j, 4⟩] else [])
      match engParts s (cmd.who s) (if pair then rightRW else rightW) parts with
      | (_, some x, s) => ([], [(i, j)], .code x, s)
      | (ts, none, s) =>
        if pair && ts.any (fun x => x.mt = 2) then ([], [(i, j)], .code 3, s)
        else if ts.any (fun x => s.heldEngine x.pa 4 cmd.wg) then ([], [], .wait, s)
        else
          match engDelivery s (cmd.who s) ts with
          | .done =>
            let rest := drainRequests s cmd t pair es
            ({ i := i, j := j, u := r.1, xf := r.2 ||| p.2, ts := ts } :: rest.1, (i, j) :: rest.2.1, rest.2.2)
          | e => ([], [(i, j)], e, s)

/-- Perform one request at its unit (R141, R145, R479), or buffer it (R174). -/
def drainPerform (s : State) (cmd : Cmd) (r : Request) : State :=
  if s.wgDet cmd.wg then
    r.ts.foldl (fun s t => detReduce s cmd.wg { pa := t.pa, va := t.part.va, size := 4, aop := 0, float := true, val := r.u
                                                tid := 0, engine := true }) s
  else
    match r.ts.find? (fun t => blockPoison s t.pa) with
    | some t => poisonRecord s cmd.wg t.part.va t.pa
    | none =>
      let vs := r.ts.map (fun t => (t.pa, atomF32 0 (memNat s t.pa 4) r.u))
      vs.foldl (fun s e => l2Write s e.1 (toLE 4 e.2)) s

/-- A step of TDRAIN: every element is converted before a request is performed; a step that fails has changed nothing
but the `mx` register (R438, R492). [DEDUCED; log entry 71] -/
def drainStep (s : State) (cmd : Cmd) (t : Tile) (n : Nat) : EngOut × Nat :=
  let pair := bitB t.opx 0
  let k := bits t.opx 3 3
  let q := drainRequests s cmd t pair (t.cells n)
  let amax (s : State) : State := if bitB t.opx 2 then t.amax s n k (fun e => q.2.1.contains e) else s
  match q.2.2.1 with
  | .code c => ({ s := amax s, fin := .code c }, 0)
  | .wait => ({ s := s, fin := .wait }, 0)
  | .done =>
    let ts := q.1.flatMap (·.ts)
    let o := engRoom q.2.2.2 cmd.wg ts ts.length (fun s =>
      let s := q.1.foldl (fun s r => drainPerform s cmd r) s
      let s := amax s
      { s := if bitB t.opx 1 then q.1.foldl (fun s r => s.modMx cmd.wg (fun m => m.setAcc (t.da.entryAt r.i r.j) 0)) s else s
        fin := .done })
    (o, q.1.foldl (fun x r => x ||| r.xf) 0)

/-! ### Starting a command (R305, R336) -/

/-- A matrix command is off the engine and complete. -/
def endMatrix (s : State) (cmd : Cmd) (code xf : Nat) (corr : Bool) : State :=
  let e := engOf s cmd.wg
  let s := match cmd.instr with
    | .reverse _ => s.modRec cmd.wg (fun r => { r with rev := false })
    | _ => s
  finishCommand (s.modEng e (fun g => { g with snap := [] })) e cmd code xf corr

/-- A staged command may start. -/
def infuserReady (s : State) (core : Nat) : Bool :=
  let m := (s.getCore core).mx
  m.run.isNone && (match m.staged with | some c => c.cancel || !enginePauses s core | none => false)

/-- The cycles of a command's step: of REVERSE, 32 for a tile. -/
def stepCycles (cmd : Cmd) : Nat :=
  match tileOf cmd.instr with
  | some (fn, _) => tileCycles fn (descOf cmd.fmt cmd.da) (descOf cmd.fmt cmd.db) cmd.fmt cmd.amr
  | none => 32

/-- Log a command that is marked, and begin its first step (R305, R336); while its log has to wait, the command waits in step 0, still
marked. -/
def beginRun (s : State) (core : Nat) (cmd : Cmd) : State :=
  let put (s : State) (r : Option RunCmd) : State :=
    s.modCore core (fun c => { c with mx := { c.mx with run := r, upsets := [] } })
  let total := match tileOf cmd.instr with
    | some _ => (descOf cmd.fmt cmd.dd).tiles
    | none => 0
  let run (x : Cmd) (due : Nat) : RunCmd := { cmd := x, step := 0, total := total, stepDue := due, xf := 0, corr := false, code := 0 }
  let o : EngOut := if cmd.log then logCmd s cmd else { s := s, fin := .done }
  match o.fin with
  | .wait => put o.s (some (run cmd (s.now + 1)))
  | .code c => endMatrix (put o.s none) cmd (if cmd.cancel then 1 else c) 0 false
  | .done =>
    let s' := put o.s (some (run { cmd with log := false } (s.now + stepCycles cmd)))
    match tileOf cmd.instr with
    | some (fn, f) =>
      if fromSnap fn f.opx cmd then s'.modEng (engOf s' cmd.wg) (fun g => { g with snap := takeSnap s' cmd }) else s'
    | none => s'

/-- The staged command starts; one that was cancelled before performs nothing (R323). -/
def startCommand (s : State) (core : Nat) (cmd : Cmd) : State :=
  let s := s.modCore core (fun c => { c with mx := { c.mx with staged := none } })
  if cmd.cancel then endMatrix s cmd 1 0 false else beginRun s core cmd

/-- INFUSER_COMMAND_START (R305). -/
def execInfuserCommandStart (core : Nat) (s : State) : Host.Outcome State Fault Refusal :=
  .next (match ((s.getCore core).mx).staged with
    | some cmd => if infuserReady s core then startCommand s core cmd else s
    | none => s)

/-! ### Native steps (R305, R308, R309, R323) -/

/-- The running command's step is due; a paused command is due when it is cancelled (R439). -/
def stepReady (s : State) (core : Nat) : Bool :=
  match ((s.getCore core).mx).run with
  | some r => r.stepDue ≤ s.now || (r.cmd.cancel && parkedDue ≤ r.stepDue)
  | none => false

/-- The cycle at which the next step of a command completes: none while its owner's unit stands stopped (R317). -/
def nextStepDue (s : State) (core n : Nat) : Nat := if enginePauses s core then parkedDue else s.now + n

/-- Change the running command of a core. -/
def setRun (s : State) (core : Nat) (r : Option RunCmd) : State :=
  s.modCore core (fun c => { c with mx := { c.mx with run := r, upsets := [] } })

/-- The running command ends; one that was cancelled, with CODE 0x01 (R323). -/
def endRun (s : State) (core : Nat) (r : RunCmd) (code : Nat) : State :=
  endMatrix (setRun s core none) r.cmd (if r.cmd.cancel then 1 else code) r.xf.toNat r.corr

/-- It waits a cycle more for the memory it needs. -/
def waitRun (s : State) (core : Nat) (r : RunCmd) : State :=
  s.modCore core (fun c => { c with mx := { c.mx with run := some { r with stepDue := s.now + 1 } } })

/-- After a step that was performed: the command ends, or goes on. -/
def afterStep (s : State) (core : Nat) (r : RunCmd) : State :=
  if r.cmd.cancel then endRun s core r 1
  else if r.total ≤ r.step then endRun s core r 0
  else setRun s core (some { r with stepDue := nextStepDue s core (stepCycles r.cmd) })

/-- A native step of a tile operation. -/
def tileOpStep (s : State) (core : Nat) (r : RunCmd) (fn : Nat) (f : Fields) : State :=
  let t := r.cmd.tile s fn f
  if fn = 11 then
    let o := drainStep s r.cmd t r.step
    match o.1.fin with
    | .wait => waitRun o.1.s core r
    | .code c => endRun o.1.s core r c
    | .done => afterStep o.1.s core { r with step := r.step + 1, xf := r.xf ||| BitVec.ofNat 5 o.2 }
  else
    let p := r.step / t.d.tilesAcross
    let q := r.step % t.d.tilesAcross
    let ups := (((s.getCore core).mx).upsets).map (fun u => (32 * p + u.1, 32 * q + u.2.1, u.2.2))
    let o := tileStep s t r.step ups
    if o.code ≠ 0 then endRun o.s core r o.code
    else
      let s := if o.corr then
          (match t.check r.step ups with
           | .correct i j => correctedRecord o.s r.cmd.wg r.step i j
           | _ => o.s)
        else o.s
      afterStep s core { r with step := r.step + 1, xf := r.xf ||| BitVec.ofNat 5 o.xf, corr := r.corr || o.corr }

/-- A step of REVERSE: `total` 0 says that it has not begun, 1 that it walks. -/
def reverseStep (s : State) (core : Nat) (r : RunCmd) : State :=
  let o := if r.total = 0 then (beginReverse s r.cmd, 0) else stepReverse s r.cmd r.step
  let r' := { r with step := o.2, total := 1, xf := r.xf ||| BitVec.ofNat 5 o.1.xf }
  match o.1.fin with
  | some .wait =>
    -- the step is done again as a whole
    waitRun (if (o.1.s.getWg r.cmd.wg).det.held then holdFull s r.cmd.wg else s) core r
  | some .done => endRun o.1.s core r' 0
  | some (.code c) => endRun o.1.s core r' c
  | none =>
    if r.cmd.cancel then endRun (endReverse o.1.s r.cmd 0 .done).s core r' 1
    else
      let due := if o.2 ≠ 0 && unbroken o.1.s r.cmd then s.now + 32 else nextStepDue s core 32
      setRun o.1.s core (some { r' with stepDue := due })

/-- A paused command is cancelled: it runs no further step (R323, R439); a REVERSE finishes (R342). -/
def endPaused (s : State) (core : Nat) (r : RunCmd) : State :=
  match r.cmd.instr with
  | .reverse _ =>
    let o := endReverse s r.cmd 0 .done
    if o.fin = some .wait then waitRun o.s core { r with code := 1 } else endRun o.s core r 1
  | _ => endRun s core r 1

/-- A step of the running command of a core. -/
def runStep (s : State) (core : Nat) (r : RunCmd) : State :=
  if r.code ≠ 0 then endPaused s core r
  else if r.cmd.log then beginRun s core r.cmd
  else match tileOf r.cmd.instr with
  | some (fn, f) => tileOpStep s core r fn f
  | none =>
    match r.cmd.instr with
    | .reverse _ => reverseStep s core r
    | _ =>
      let o := runRecord s r.cmd
      match o.fin with
      | .wait => waitRun o.s core r
      | .code c => endRun o.s core r c
      | .done => endRun o.s core r (if r.cmd.cancel then 1 else 0)

/-- NATIVE_STEP_COMPLETE (R305). -/
def execNativeStepComplete (core : Nat) (s : State) : Host.Outcome State Fault Refusal :=
  .next (match ((s.getCore core).mx).run with
    | some r => if !stepReady s core then s else if parkedDue ≤ r.stepDue then endPaused s core r else runStep s core r
    | none => s)

end Sys2Proof.Machine
end

