-- ==== Sys2Proof/Machine/Fetch.lean ====
section
/-!
DEFINITION. Instruction fetch (R191, R192, R402, R474): the lines of an instruction cache, and where instructions
start.
-/

namespace Sys2Proof.Machine

open Sys2Proof

/-- The key of a line of an instruction cache: ASID, mode of the fetch, bundle.  The mode stands in it since a fetch in
mode P from a page with PRIV fails (R147, R348). -/
def icKey (asid : Nat) (modeS : Bool) (va : Nat) : Nat := (2 * asid + b2n modeS) * 2 ^ 74 + va / 64 % 2 ^ 74

/-- Fetch a bundle (R474): a fetch that fails leaves a failed line. -/
def fetchLine (s : State) (core asid va : Nat) (modeS : Bool) : ICLine × State :=
  match translatePart s core asid rightX modeS false ⟨0, va / 64 * 64 % 2 ^ 80, 64⟩ with
  | (.ok t, s) => ({ bytes := memBytes s t.pa 64, fault := 0, pa := t.pa, poison := blockPoison s t.pa }, s)
  | (.error r, s) => ({ bytes := [], fault := r, pa := 2 ^ 52, poison := false }, s)

/-- The line of an instruction cache, if it is there. -/
def icLine (s : State) (core asid va : Nat) (modeS : Bool) : Option ICLine :=
  (s.getCore core).icache.find? (icKey asid modeS va)

/-- Fill one line of an instruction cache. -/
def fillLine (s : State) (core asid va : Nat) (modeS : Bool) : State :=
  let r := fetchLine s core asid va modeS
  r.2.modCore core (fun c => { c with icache := c.icache.put (icKey asid modeS va) r.1 })

/-- ICACHE_FILL (R191): the bundle is fetched; its check is made on the bytes kept. -/
def execIcacheFill (core asid va : Nat) (s : State) : Host.Outcome State Fault Refusal :=
  .next (fillLine (fillLine s core asid va false) core asid va true)

/-- Forget a failed or poisoned line, so that an instruction tried again is fetched again (R148, R477).
[DEDUCED; log entry 83] -/
def forgetLine (s : State) (core asid va : Nat) (modeS : Bool) : State :=
  s.modCore core (fun c => { c with icache := c.icache.del (icKey asid modeS va) })

/-- The bundle at an address as a fetch would now find it. -/
def codeLine (s : State) (core asid va : Nat) (modeS : Bool) : ICLine :=
  match icLine s core asid va modeS with
  | some l => l
  | none => (fetchLine s core asid va modeS).1

/-- A thread of the workgroup runs QPF words (R402): the supervisor's section is always native. -/
def runsQpf (s : State) (wg : Nat) (modeS : Bool) : Bool := (s.getWg wg).qpf && !modeS

/-- The PC is the start of an instruction of a section (R431, R459).  In a bundle that cannot be fetched or is
malformed every PC passes, and traps when it is issued (R449, R474). -/
def isStart (s : State) (wg : Nat) (modeS : Bool) (pc : Nat) : Bool :=
  let sec := sectionOf s wg modeS
  sec.1 ≤ pc && pc < sec.1 + sec.2 &&
    (if runsQpf s wg modeS then (pc - sec.1) % 16 = 0
     else
       let l := codeLine s (s.getWg wg).core (s.wgAsid wg) pc modeS
       l.fault ≠ 0 || l.poison ||
       (match bundleForms l.bytes with
        | none => true
        | some fs => fs.contains (pc % 64)))

end Sys2Proof.Machine
end

