-- ==== Sys2Proof/Machine/System.lean ====
section
/-!
DEFINITION. System instructions: OP 0x3C and 0x3D (R348 to R361, R431), with the acknowledgement of an invalidation
(R149, R477).
-/

namespace Sys2Proof.Machine

open Sys2Proof

/-! ### TRAP and ERET (R351, R352, R431) -/

/-- TRAP (R351). -/
def execTrap (f : Fields) (s : State) : Host.Outcome State Fault Refusal :=
  .next (issue (.trap f)
    { run := fun c => .trap { cls := 0, reason := 0, info := bits c.f.immN 0 16, fmask := c.amask } true } s)

/-- A stack group of a lane in the warp's spill area (R54). -/
def spillVa (w : Warp) (l grp : Nat) : Nat := (sextVa w.spbase + (grp * 32 + l) * 64) % 2 ^ 80

/-- Parts of the spill or fill that resumes a trap of class 0x04: the lanes that needed it, with their groups (R54). -/
def windowParts (w : Warp) (fill : Bool) (ls : List Nat) : List Part :=
  ls.map (fun l => ⟨l, spillVa w l ((w.lane l).rb / 16 - b2n fill), 64⟩)

/-- Spill 16 positions of a lane (R54), and whether the store waits at its unit. A poisoned position poisons the block it goes to
(R478). -/
def spillLane (s : State) (wg w core : Nat) (t : TPart) : State × Nat :=
  let x := s.getWarp wg w
  let l := t.part.lane
  let rb := (x.lane l).rb
  let q := storeParts s wg w core x.nextIdx 0 0 [t] (fullMask ((List.range 16).flatMap (fun j => toLE 4 (x.getV l (rb + j)).toNat)))
  let s := q.1
  let bad := (List.range 16).any (fun j => x.poison.get false (poisonV (rb + j) l))
  let s := if bad then poisonBlock (dropLines s core (inLine (t.pa / 128))) t.pa else s
  (s.modWarp wg w (fun x => x.modLane l (fun y => { y with rb := rb + 16 })), q.2)

/-- Fill 16 positions of a lane (R54). -/
def fillLane (s : State) (wg w core : Nat) (t : TPart) : State :=
  let l := t.part.lane
  let r := weakRead s wg core 0 t
  r.2.2.modWarp wg w (fun x =>
    let rb := (x.lane l).rb - 16
    ((List.range 16).foldl (fun x j =>
      x.write (.v l (rb + j) (if r.2.1 then none else some (BitVec.ofNat 32 (leAt r.1 (4 * j) 4))))) x).modLane l
        (fun y => { y with rb := rb }))

/-- Restore the registers of a frame (R352, R430): of the entry's lanes, `v0`–`v15` and the predicates; `k0`–`k7`; the
writable fields of `wcr`. Registers from a poisoned block of the frame are poisoned (R478). -/
def restoreFrame (x : Warp) (fr : List Byte) (bad : Nat → Bool) : Warp :=
  let ls := lanesOf x.trapLanes
  let word (off : Nat) : Option Word := if bad off then none else some (BitVec.ofNat 32 (leAt fr off 4))
  let x := (List.range 8).foldl (fun x i => x.write (.k i (word (0x40 + 4 * i)))) x
  let x := ls.foldl (fun x l =>
    let x := (List.range 7).foldl (fun x n => x.write (.p l (n + 1) (bitB (leAt fr (0x60 + l) 1) (n + 1)))) x
    (List.range 16).foldl (fun x r => x.write (.v l (x.pos l r) (word (0x100 + 128 * r + 4 * l)))) x) x
  { x with wcr := BitVec.ofNat 32 (leAt fr 0x28 4 &&& 0x1F1FFF) }

/-- Leave mode S (R352): the stopped entries issue again. -/
def leaveS (x : Warp) : Warp :=
  { x with modeS := false, trapLanes := 0, table := x.aside.foldl tableInsert x.table, aside := [] }

/-- ERET once the frame's pages are translated: the end of a warp that consumed poison (R437), the check of RPC (R431),
the spill or fill of R54 [DEDUCED; log entry 54], and the return. -/
def eretRun (c : Iss) (ts : List TPart) (s : State) : Res :=
  let rd := ts.foldl (fun (a : List Byte × List (Nat × Nat) × State) t =>
    let r := weakRead a.2.2 c.wg c.core 0 t
    (a.1 ++ r.1, if r.2.1 then a.2.1 ++ [(a.1.length, r.1.length)] else a.2.1, r.2.2)) ([], [], s)
  let fr := rd.1
  let s := rd.2.2
  let cause := c.warp.tcause.toNat
  if cause / 256 = 7 then
    .other (endWorkgroup c.s0 c.wg { wgErr c.s0 c.wg 7 (cause % 256) 2 2 with addr := c.entry.pc.toNat, detail := 0xFFFE })
  else
    let rpc := leAt fr 0x10 10
    if !isStart c.s c.wg false rpc then .trap (c.illegal (c.bad 4 rpc)) false
    else
      let win := cause / 256 = 4
      let fill := cause % 256 = 2
      let need := lanesOf (BitVec.ofNat 32 (leAt fr 0x2C 4) &&& c.warp.trapLanes)
      let bad (off : Nat) : Bool := rd.2.1.any (fun e => e.1 ≤ off && off < e.1 + e.2)
      -- the registers go back first: the spilled positions may be among those of the frame
      let s := s.modWarp c.wg c.w (fun x => restoreFrame x fr bad)
      let go (a : State × Nat) : Res :=
        .outThen { s := a.1, moves := (lanesOf c.entry.mask).map (fun l => (l, some rpc)), awaits := a.2 }
          (fun s => s.modWarp c.wg c.w leaveS)
      if !win || need = [] then go (s, 0)
      else if fill then
        withAccess c s rightR false (windowParts c.warp true need) (fun ts s =>
          go (ts.foldl (fun s t => fillLane s c.wg c.w c.core t) s, 0))
      else
        withAccess c s rightW false (windowParts c.warp false need) (fun ts s => withRoom c s ts 0 (fun s =>
          go (ts.foldl (fun (a : State × Nat) t =>
            let q := spillLane a.1 c.wg c.w c.core t
            (q.1, a.2 + q.2)) (s, 0))))

/-- The RPC of the frame is no place to resume at (R431), where the frame can be read: a check of step 6, before the next one. -/
def eretFails (c : Iss) : List Fail :=
  (match superRead c.s c.wg c.warp.tfbase 2304 with
   | some fr =>
     let rpc := leAt fr 0x10 10
     if c.warp.tcause.toNat / 256 = 7 || isStart c.s c.wg false rpc then [] else [c.bad 4 rpc]
   | none => []) ++
  (if c.entry.mask = c.warp.trapLanes then [] else [c.badState 0x0E 0 c.amask])

/-- ERET (R352). -/
def execEret (f : Fields) (s : State) : Host.Outcome State Fault Refusal :=
  .next (issue (.eret f)
    { state := fun c => eretFails c
      run := fun c => withAccess c c.s rightR false
        ((lineParts c.warp.tfbase 2304).map (fun p => { p with lane := c.l0 })) (eretRun c) } s)

/-! ### System registers (R350) -/

/-- The system register belongs to the owner of the matrix engine (R91). -/
def ownedReg (n : Nat) : Bool := 0x100 ≤ n && n < 0x208

/-- The value of a system register (R350). -/
def sysReg (c : Iss) (n : Nat) : Nat :=
  let m := c.s.mxOf c.wg
  if n = 0 then readWcr c.s c.wg c.w
  else if n = 1 then c.warp.flags.toNat
  else if 8 ≤ n && n < 16 then (c.g.fmt.get 0 (n - 8)).toNat
  else if n = 16 then c.g.amr.toNat
  else if n = 0x40 then c.core
  else if n = 0x41 then b2n c.warp.modeS + 2 * b2n (bitB c.lr.flags 1)
  else if n = 0x300 then c.warp.tfbase
  else if n = 0x302 then c.warp.tcause.toNat
  else if n = 0x304 then c.warp.spbase
  else if n = 0x306 then c.lr.spsize
  else if n < 0x200 then m.scale (n - 0x100)
  else (m.mx.get 0 (n - 0x200)).toNat

/-- MFS (R350). -/
def execMfs (f : Fields) (s : State) : Host.Outcome State Fault Refusal :=
  .next (issue (.mfs f)
    { state := fun c => if ownedReg c.f.sr then ownFail c else []
      run := fun c => putD c { s := c.s } c.f.mW (c.act.map (fun l => (l, sysReg c c.f.sr))) } s)

/-- MTS to `wcr` (R87, R350): the fields that are written. -/
def execMtsWcr (f : Fields) (s : State) : Host.Outcome State Fault Refusal :=
  .next (issue (.mtsWcr f)
    { run := fun c => .out { s := c.modWarp (fun x =>
        { x with wcr := BitVec.ofNat 32 (c.a false c.l0 &&& 0x1F1FFF) }) } } s)
/-- MTS to the sticky flags: a 1 clears (R350). -/
def execMtsXflagsClear (f : Fields) (s : State) : Host.Outcome State Fault Refusal :=
  .next (issue (.mtsXflagsClear f)
    { run := fun c => .out { s := c.modWarp (fun x =>
        { x with flags := x.flags &&& ~~~(BitVec.ofNat 5 (c.a false c.l0)) }) } } s)
/-- MTS to a format slot of the workgroup (R92, R102), which later cycles see; bits [31:26] are ignored (R3, R101). -/
def execMtsFmt (f : Fields) (s : State) : Host.Outcome State Fault Refusal :=
  .next (issue (.mtsFmt f)
    { run := fun c => .out { s := c.s.modWg c.wg (fun g =>
        { g with fmtNext := g.fmtNext.put (c.f.sr - 8) (BitVec.ofNat 32 (c.a false c.l0 &&& 0x03FFFFFF)) }) } } s)
/-- MTS to `amr` of the workgroup (R92, R108), which later cycles see; bit 7 of each byte is ignored (R3). -/
def execMtsAmr (f : Fields) (s : State) : Host.Outcome State Fault Refusal :=
  .next (issue (.mtsAmr f)
    { run := fun c => .out { s := c.s.modWg c.wg (fun g =>
        { g with amrNext := some (BitVec.ofNat 64 (c.a true c.l0 &&& 0x7F7F7F7F7F7F7F7F)) }) } } s)
/-- MTS to a scale register (R91, R124): it waits for the commands that read scales. -/
def execMtsSc (f : Fields) (s : State) : Host.Outcome State Fault Refusal :=
  .next (issue (.mtsSc f)
    { state := ownFail
      run := fun c =>
        if c.awaitsCmd readsScales then .wait
        else .out { s := c.s.modMx c.wg (fun m =>
               { m with sc := m.sc.set 0x3F800000 (c.f.sr - 0x100) (BitVec.ofNat 32 (c.a false c.l0)) }) } } s)
/-- MTS to a max-magnitude register (R91). -/
def execMtsMx (f : Fields) (s : State) : Host.Outcome State Fault Refusal :=
  .next (issue (.mtsMx f)
    { state := ownFail
      run := fun c => .out { s := c.s.modMx c.wg (fun m =>
        { m with mx := m.mx.set 0 (c.f.sr - 0x200) (BitVec.ofNat 32 (c.a false c.l0)) }) } } s)

/-! ### Time and launch (R353, R354) -/

/-- CYCRD (R353). -/
def execCycrd (f : Fields) (s : State) : Host.Outcome State Fault Refusal :=
  .next (issue (.cycrd f) (laneBody (fun _ => true) (fun c _ => c.s.sample (coreDie c.core))) s)

/-- Enqueue a launch record (R364, R365): its identifier, or none while the queue is full. -/
def enqueueLaunch (s : State) (ctx queue cap : Nat) (bs : List Byte) (host owner : Bool) (prio : Nat) : Option (Nat × State) :=
  let q := (s.getCtx ctx).queues.get [] queue
  if cap ≤ q.length then none
  else
    let id := s.nextLid
    let r : QRec := { lid := id, bytes := bs, host := host, owner := owner, prio := prio }
    some (id, { s with nextLid := id + 1, lids := s.lids.put id (ctx, 0) }.modCtx ctx (fun x =>
      { x with queues := x.queues.put queue (q ++ [r]) }))

/-- LAUNCH (R354). -/
def execLaunch (f : Fields) (s : State) : Host.Outcome State Fault Refusal :=
  .next (issue (.launch f)
    { run := fun c =>
        match fenceFirst c c.s 6 with
        | .error s => .other s
        | .ok s =>
          let va := c.ea c.f.a.toNat (bitB c.f.immN 24) 0 c.l0
          withAccess c s rightR false ((lineParts va 256).map (fun p => { p with lane := c.l0 })) (fun ts s =>
            let r := readParts s c.wg c.core 0 ts
            if r.2.1 then .trap { cls := 7, reason := 2, info := va, fmask := laneSet [c.l0] } false
            else
              match enqueueLaunch r.2.2 c.ctx (1 + bits c.f.immN 20 2) 64 r.1 false false c.lr.prio with
              | some (id, s) => .out { s := s, writes := destWrites c.warp c.f.d.toNat true (c.act.map (fun l => (l, id))) }
              | none => .out { s := r.2.2
                               writes := destWrites c.warp c.f.d.toNat true (c.act.map (fun l => (l, 0))) }) } s)

/-! ### Translation invalidation (R149, R355, R477) -/

/-- A cached translation is one that an invalidation removes (R149 step 1). -/
def Inval.hits (v : Inval) (e : TlbEntry) : Bool := e.asid = v.asid && e.va < v.hi && v.lo < e.va + 2 ^ e.size
/-- The bits of address below the index of a level's table (R146): what one of its tables spans. -/
def tableSpan (lvl : Nat) : Nat :=
  match ptLevels.find? (fun e => e.2.2 = lvl) with
  | some e => e.1 + e.2.1
  | none => 80
/-- A cached table is one that an invalidation removes. -/
def Inval.hitsWalk (v : Inval) (e : WalkEntry) : Bool :=
  let n := tableSpan e.lvl
  e.asid = v.asid && e.vaHi * 2 ^ n < v.hi && v.lo < (e.vaHi + 1) * 2 ^ n

/-- The frames that the removed entries map, in every TLB of the package. -/
def Inval.framesIn (v : Inval) (s : State) : List (Nat × Nat) :=
  let tlbs := s.cores.flatMap (fun (e : Nat × Core) => e.2.tlb) ++ s.quadTlb.flatMap (fun (e : Nat × List TlbEntry) => e.2) ++
    s.dieTlb.flatMap (fun (e : Nat × List TlbEntry) => e.2)
  ((tlbs.filter v.hits).map (fun e => (e.pa, e.size))).dedup

/-- Step 1 of R149. -/
def removeTranslations (s : State) (v : Inval) : State :=
  let keep (l : List TlbEntry) : List TlbEntry := l.filter (fun e => !v.hits e)
  { s with cores := s.cores.map (fun e => (e.1, { e.2 with tlb := keep e.2.tlb }))
           quadTlb := s.quadTlb.map (fun e => (e.1, keep e.2))
           dieTlb := s.dieTlb.map (fun e => (e.1, keep e.2))
           walkCache := s.walkCache.map (fun e => (e.1, e.2.filter (fun w => !v.hitsWalk w))) }

/-- A line of an L1 is one that an invalidation takes out: by its record, or by its frame (R149 step 2). -/
def Inval.line (v : Inval) (c : Core) (pa : Nat) : Bool :=
  v.frames.any (fun e => pa / 2 ^ e.2 = e.1 / 2 ^ e.2) ||
  (match c.l1tag.find? (pa / 128) with
   | some (a, page) => a = v.asid && page * 65536 < v.hi && v.lo < (page + 1) * 65536
   | none => false)

/-- Step 2 of R149 in every core, with the code lines of the removed frames (R477). -/
def sweepLines (s : State) (v : Inval) : State :=
  let s := (s.cores.keys).foldl (fun s p =>
    let c := s.getCore p
    dropLines s p (fun a => v.line c a)) s
  dropCode s (fun a => v.frames.any (fun e => a / 2 ^ e.2 = e.1 / 2 ^ e.2))

/-- The virtual ranges that a request was translated for: its own, its twin's, and those of its late result. -/
def AtomReq.ranges (q : AtomReq) : List (Nat × Nat) :=
  (q.va, q.size) :: (if q.kind = 6 then [(q.twinVa, q.size)] else []) ++ q.late.flatMap (fun p => p.parts.map (fun x => (x.1, x.2.1)))

/-- Steps 1 to 3 are done everywhere: no line is left of those to take out, and no request that was translated through
a removed entry waits at an atomic unit. -/
def invalDone (s : State) (v : Inval) : Bool :=
  s.cores.all (fun e => !e.2.l1tag.any (fun t => v.line e.2 (t.1 * 128))) &&
  !s.atomQ.any (fun q => q.kind ≠ 8 && s.wgAsid q.wg = v.asid && q.ranges.any (fun x => overlaps v.lo (v.hi - v.lo) x.1 x.2))

/-- A result that an operation waited for has come: the registers it writes take the value, or stay as they were to be
written; `more` stores of it wait at their units instead. -/
def deliverWait (s : State) (wg w idx more : Nat) (f : List RegWrite → List RegWrite) : State :=
  s.modWarp wg w (fun x => { x with pend := x.pend.map (fun b =>
    if b.idx = idx then { b with awaits := b.awaits + more - 1, writes := f b.writes } else b) })

/-- TLBI (R355). -/
def execTlbi (f : Fields) (s : State) : Host.Outcome State Fault Refusal :=
  .next (issue (.tlbi f)
    { run := fun c =>
        let all := bitB c.f.immN 27
        let a := c.ea c.f.a.toNat (bitB c.f.immN 24) 0 c.l0
        let b := c.read c.f.b.toNat true c.l0
        let v0 : Inval :=
          { wg := c.wg, warp := c.w, idx := c.warp.nextIdx
            asid := if bitB c.f.immN 26 then c.read c.f.c.toNat false c.l0 % 2 ^ 16 else c.asid
            lo := if all then 0 else a / 65536 * 65536
            hi := if all then 2 ^ 80 else if b = 0 then 0 else roundUp (a + b) 65536, frames := [] }
        let v := if v0.hi = 0 then v0 else { v0 with frames := v0.framesIn c.s }
        let s := if v.hi = 0 then c.s else sweepLines (removeTranslations c.s v) v
        .out { s := { s with invals := s.invals ++ [v] }, awaits := 1, stays := true } } s)

/-- The invalidation of a warp that is done, if there is one. -/
def ackReady (s : State) (wg w : Nat) : Option Inval :=
  s.invals.find? (fun v => v.wg = wg && v.warp = w && (v.hi = 0 || invalDone s v))

/-- TLBI_ACKNOWLEDGE (R149 step 4): lines that an LR hold kept back go now, and the TLBI completes when none is left. -/
def execTlbiAcknowledge (wg warp : Nat) (s : State) : Host.Outcome State Fault Refusal :=
  let s := (s.invals.filter (fun v => v.wg = wg && v.warp = warp && v.hi ≠ 0)).foldl sweepLines s
  .next (match ackReady s wg warp with
    | none => s
    | some v => deliverWait { s with invals := s.invals.erase v } wg warp v.idx 0 id)

/-! ### Scan test and retirement (R356 to R359) -/

/-- The results of OP 0x3D, the same in every active lane. -/
def Iss.status (c : Iss) (s : State) (wide : Bool) (x : Nat) : Res := putD c { s := s } wide (c.act.map (fun l => (l, x)))
/-- The core operand. -/
def Iss.coreArg (c : Iss) : Nat := c.a false c.l0
/-- R356: a core above 319. -/
def Iss.withCore (c : Iss) (wide : Bool) (k : Nat → Res) : Res :=
  if 319 < c.coreArg then c.status c.s wide (if wide then 2 ^ 64 - 1 else 2 ^ 32 - 1) else k c.coreArg

/-- A core is in service (R518). -/
def inService (s : State) (p : Nat) : Bool := s.mask.getLsbD p

/-- The bind records of a die, and those of a core. -/
def bindsFor (s : State) (p : Nat) : List Bind := (s.slots.get [] (coreDie p)).filter (fun b => b.core = p)
/-- With those that are decided on and have had no room yet (R370). -/
def bindsAhead (s : State) (p : Nat) : List Bind :=
  bindsFor s p ++ (s.launches.flatMap (fun e => e.2.unwritten)).filter (fun b => b.core = p)
/-- The slot table of a core's die, of 256 records, has room for one more (R368). -/
def slotFree (s : State) (p : Nat) : Bool := (s.slots.get [] (coreDie p)).length < 256

/-- The scan of a core is running (R357). -/
def scanning (s : State) (p : Nat) : Bool := (s.getCore p).scan.state = 1

/-- The status with which SCANGO answers, the first that applies in the order 3, 2, 1, 4 (R357). -/
def scanStatus (s : State) (p : Nat) : Nat :=
  if !inService s p then 3
  else if scanning s p then 2
  else if residents s p ≠ [] || (bindsAhead s p).any (fun b => b.kind ≤ 1) then 1
  else if (List.range 4).any (fun i => scanning s (p / 4 * 4 + i)) then 4
  else 0

/-- Counts that a scan takes (R357). -/
def scanTime : Nat := 420000

/-- A scan begins (R357): the core leaves the slot table, and its L1 is written back and invalidated; the code it keeps goes with its
state (R437). -/
def scanStart (s : State) (p : Nat) (yl : Bool) (prio why : Nat) : State :=
  (dropAll (forgetCode s (fun q _ => q = p)) p).modCore p (fun c =>
    { c with withdrawn := true
             scan := { state := 1, start := s.now, ended := s.now + scanTime, chain := none, yl := yl, prio := prio,
                       count := c.scan.count + 1, why := why } })

/-- The core after a scan that destroyed its state (R357). -/
def coreAfterScan (c : Core) (sc : Scan) : Core :=
  { Core.init with scan := sc, withdrawn := sc.state = 3, retiring := c.retiring, waiters := c.waiters }

/-- A scan is aborted (R357, R358): the core is reset and returns to service. -/
def scanAbortNow (s : State) (p : Nat) : State :=
  if !scanning s p then s
  else s.modCore p (fun c => coreAfterScan c { c.scan with state := 4, ended := s.now })

/-- SCANGO (R357). -/
def execScango (f : Fields) (s : State) : Host.Outcome State Fault Refusal :=
  .next (issue (.scango f)
    { run := fun c => c.withCore false (fun p =>
        let st := scanStatus c.s p
        c.status (if st = 0 then scanStart c.s p (bitB c.f.immN 27) c.lr.prio 0 else c.s) false st) } s)

/-- SCANPOLL (R358). -/
def execScanpoll (f : Fields) (s : State) : Host.Outcome State Fault Refusal :=
  .next (issue (.scanpoll f)
    { run := fun c => c.withCore true (fun p =>
        let sc := (c.s.getCore p).scan
        let elapsed := if sc.state = 1 then c.s.now - sc.start else sc.ended - sc.start
        c.status c.s true (sc.state + elapsed / 256 % 2 ^ 24 * 2 ^ 8 + (sc.chain.getD (2 ^ 32 - 1)) % 2 ^ 32 * 2 ^ 32)) } s)

/-- SCANSTOP (R358). -/
def execScanstop (f : Fields) (s : State) : Host.Outcome State Fault Refusal :=
  .next (issue (.scanstop f)
    { run := fun c => c.withCore false (fun p =>
        c.status (scanAbortNow c.s p) false (if scanning c.s p then 4 else 0)) } s)

/-- CORERET (R359): at once for a core that is retired already, else when the map has been renumbered. -/
def execCoreret (f : Fields) (s : State) : Host.Outcome State Fault Refusal :=
  .next (issue (.coreret f)
    { run := fun c => c.withCore false (fun p =>
        if (c.s.getCore p).scan.state ≠ 3 then c.status c.s false (2 ^ 32 - 1)
        else if !inService c.s p then c.status c.s false c.s.ncore
        else
          let d := c.f.d.toNat
          match (if isS d then reserveAppend c c.s (d - 96) c.act else .ok ([], [], c.s)) with
          | .error r => r
          | .ok (ps, _, s) =>
            let x : Waiter := { wg := c.wg, warp := c.w, idx := c.warp.nextIdx
                                late := c.act.map (fun l => (l, (ps.filter (fun p => p.1 = l)).map (·.2))) }
            .out { s := s.modCore p (fun y => { y with retiring := true, waiters := y.waiters ++ [x] })
                   awaits := 1
                   writes := destWrites c.warp d false (c.act.map (fun l => (l, 0))) }) } s)

/-- HALT (R360). -/
def execHalt (f : Fields) (s : State) : Host.Outcome State Fault Refusal :=
  .next (issue (.halt f)
    { run := fun c =>
        let cause := c.warp.tcause.toNat
        .other (endWorkgroup c.s c.wg { wgErr c.s c.wg (cause / 256) (cause % 256) 2 2 with
          addr := c.entry.pc.toNat, detail := c.a false c.l0 % 2 ^ 16 }) } s)

/-! ### Ends of operations -/

/-- VARIABLE_LATENCY_COMPLETION (R88): an operation of class V that is due writes its destination, and its token
drops. -/
def execVariableLatencyCompletion (wg warp idx : Nat) (s : State) : Host.Outcome State Fault Refusal :=
  .next (s.modWarp wg warp (fun x =>
    match x.pend.find? (fun b => b.idx = idx && b.isVar && b.awaits = 0 && b.due ≤ s.now) with
    | some b => x.complete b
    | none => x))

/-- REMOTE_TIMEOUT (R475): a part not accepted within 2 ms is dropped with every held part; the instruction traps with
reason 0x09 as its entry is issued again.  The limit comes before the cycle of acceptance. -/
def execRemoteTimeout (wg warp : Nat) (s : State) : Host.Outcome State Fault Refusal :=
  let mark (e : Entry) : Entry := match e.wait with
    | .remote a d => if d ≤ s.now && d < a then { e with wait := .undelivered 9 } else e
    | _ => e
  .next (s.modWarp wg warp (fun x => { x with table := x.table.map mark, aside := x.aside.map mark }))

end Sys2Proof.Machine
end

