-- ==== Sys2Proof/Machine/Placement.lean ====
section
/-!
DEFINITION. Kettle firmware's scheduling (R35, R362 to R377): taking and checking a launch record, choosing where its
workgroups go, pre-empting for them, and finishing the launch.
-/

namespace Sys2Proof.Machine

open Sys2Proof

/-! ### The launch record (R362) -/

/-- The fields of a record. -/
def parseRec (bs : List Byte) : LRec :=
  let n (off len : Nat) : Nat := leAt bs off len
  { ver := n 0 4, ctx := n 4 2, prio := n 6 1, flags := n 7 1, sect := sextVa (n 8 8), entry := n 0x10 4, wgsize := n 0x14 2,
    qgs := n 0x16 1, stack := n 0x17 1, ngx := n 0x18 4, ngy := n 0x1C 4, ngz := n 0x20 4, scratch := n 0x24 4,
    sets := n 0x28 1, descs := n 0x29 1, minc := n 0x2A 1, seed := n 0x30 8, ctrb := n 0x38 8, args := n 0x40 8,
    spbase := n 0x48 8, spsize := n 0x50 8, wbbase := n 0x58 8, wbsize := n 0x60 8, pibase := n 0x68 8, pisize := n 0x70 8,
    status := sextVa (n 0x78 8), prod := n 0x80 8, map := n 0x88 1,
    coef := (List.range 8).map (fun i => signed 32 (n (0x90 + 4 * i) 4)) }

/-- The number of workgroups of a grid. -/
def LRec.nwg (r : LRec) : Nat := r.ngx * r.ngy * r.ngz
/-- The number of warps of a workgroup (R33). -/
def LRec.nwarps (r : LRec) : Nat := ceilDiv r.wgsize 32
/-- Deterministic, with the maintenance right, STRICT, CHK. -/
def LRec.det (r : LRec) : Bool := bitB r.flags 0
def LRec.maint (r : LRec) : Bool := bitB r.flags 1
def LRec.strict (r : LRec) : Bool := bitB r.flags 3
def LRec.chk (r : LRec) : Bool := bitB r.flags 4

/-- How many coefficients a MAP uses (R369). -/
def mapCoefs (m : Nat) : Nat := if m = 2 then 8 else if m = 3 || m = 4 then 2 else 0

/-- No cause of reason 0x01 (R367): version, zero fields, reserved codes, ranges. -/
def recordOk (bs : List Byte) (r : LRec) : Bool :=
  let zero (off len : Nat) : Bool := leAt bs off len = 0
  r.ver = 1 && r.ctx ≤ 63 && r.prio ≤ 3 && r.flags < 32 && r.entry % 64 = 0 && 1 ≤ r.wgsize && r.wgsize ≤ 1024 &&
  1 ≤ r.qgs && r.qgs ≤ 4 && 4 ≤ r.stack && r.stack ≤ 16 && 1 ≤ r.ngx && 1 ≤ r.ngy && 1 ≤ r.ngz && r.nwg ≤ 2 ^ 32 &&
  r.scratch ≤ 491520 && r.sets ≤ 16 && r.descs ≤ 16 && 1 ≤ r.minc && r.minc ≤ 16 && zero 0x2B 5 &&
  r.spbase % 256 = 0 && r.spsize % 2048 = 0 && r.wbbase % 64 = 0 && r.wbsize % 64 = 0 && r.pibase % 64 = 0 &&
  r.pisize % 64 = 0 && (r.det || (r.wbbase = 0 && r.wbsize = 0 && r.pibase = 0 && r.pisize = 0)) &&
  r.status % 64 = 0 && r.map ≤ 5 && (r.map ≠ 0 || r.prod = 0) && zero 0x89 7 &&
  (r.coef.drop (mapCoefs r.map)).all (· = 0) && zero 0xB0 80

/-! ### Dependences (R369) -/

/-- Numbers of a range [lo, lo + n) that lie below `hi`, as a range of naturals. -/
def clip (lo n : Int) (hi : Nat) : Nat × Nat :=
  let a := clampInt 0 hi lo
  let b := clampInt 0 hi (lo + n)
  (a.toNat, (max a b).toNat)

/-- The box of producer workgroups on which consumer `i` depends: ranges in x, y and z (R369). -/
def producerBox (r p : LRec) (i : Nat) : (Nat × Nat) × (Nat × Nat) × (Nat × Nat) :=
  let x : Int := i % r.ngx
  let y : Int := i / r.ngx % r.ngy
  let z : Int := i / r.ngx / r.ngy
  let c (n : Nat) : Int := r.coef.getD n 0
  let all := ((0, p.ngx), (0, p.ngy), (0, p.ngz))
  match r.map with
  | 2 => (clip (c 0 * x + c 1) (c 2) p.ngx, clip (c 3 * y + c 4) (c 5) p.ngy, clip (c 6 * z + c 7) 1 p.ngz)
  | 3 => ((0, p.ngx), clip (c 0 * y + c 1) 1 p.ngy, clip z 1 p.ngz)
  | 4 => (clip (c 0 * x + c 1) 1 p.ngx, (0, p.ngy), clip z 1 p.ngz)
  | _ => all

/-- The number of members of a range, and membership. -/
def rangeSize (r : Nat × Nat) : Nat := r.2 - r.1
def inRange (r : Nat × Nat) (n : Nat) : Bool := r.1 ≤ n && n < r.2

/-- Every producer workgroup that consumer `i` depends on has its completion bit set (R369). -/
def producersDone (r : LRec) (p : Launch) (i : Nat) : Bool :=
  if r.map = 1 then p.lr.nwg ≤ i || p.done.get false i
  else
    let b := producerBox r p.lr i
    let n := ((p.done.filter (fun e =>
      inRange b.1 (e.1 % p.lr.ngx) && inRange b.2.1 (e.1 / p.lr.ngx % p.lr.ngy) && inRange b.2.2 (e.1 / p.lr.ngx / p.lr.ngy))).length)
    rangeSize b.1 * rangeSize b.2.1 * rangeSize b.2.2 ≤ n

/-- A create record does not wait for its producer (R369). -/
def depReady (s : State) (lslot i : Nat) : Bool :=
  let r := (s.getLaunch lslot).lr
  r.map = 0 ||
    (match List.find? (fun (e : Nat × Launch) => e.2.lid = r.prod) s.launches with
     | none => true
     | some e => producersDone r e.2 i)

/-! ### Room on a core (R21, R34, R35, R138) -/

/-- What stands on a core: register entries in use by partition, warp slots in use, ways held, the largest minimum of
cache ways, and whether its matrix engine is free for a workgroup that is resumed (R63). -/
structure Load where
  regs : List Nat
  slots : List Nat
  ways : Nat
  minc : Nat
  eng : Bool
  deriving DecidableEq, Repr

def Load.empty : Load := { regs := [0, 0, 0, 0], slots := [], ways := 0, minc := 1, eng := true }

/-- The partition with the most free register entries; among equals the lowest (R34). -/
def Load.best (L : Load) : Nat :=
  (List.range 4).foldl (fun b q => if L.regs.getD q 0 < L.regs.getD b 0 then q else b) 0

/-- Put one warp of stack depth 16·`stack` on a partition: it takes the lowest free of the partition's twelve slots, of
which partition q has numbers 12q to 12q + 11. [DEDUCED; log entry 84] -/
def Load.addWarp (L : Load) (stack q : Nat) : Option ((Nat × Nat) × Load) :=
  let used := L.regs.getD q 0
  if 24576 < used + 512 * stack then none
  else
    match (List.range 12).find? (fun i => !L.slots.contains (12 * q + i)) with
    | none => none
    | some i => some ((q, 12 * q + i), { L with regs := L.regs.set q (used + 512 * stack), slots := (12 * q + i) :: L.slots })

/-- Put a workgroup of a launch on a core: the partitions and slots of its warps. -/
def Load.add (L : Load) (r : LRec) : Option (List (Nat × Nat) × Load) :=
  let minc := max L.minc r.minc
  let ways := L.ways + ceilDiv r.scratch 32768
  if 16 < ways + minc then none
  else
    let b := L.best
    ((List.range r.nwarps).foldlM (fun (a : List (Nat × Nat) × Load) w =>
      (a.2.addWarp r.stack ((b + w) % 4)).map (fun x => (a.1 ++ [x.1], x.2))) ([], { L with ways := ways, minc := minc }))

/-- What stands on a core now, but for some workgroups. -/
def coreLoad (s : State) (p : Nat) (without : List Nat) : Load :=
  ((residents s p).filter (fun e => !without.contains e.1)).foldl (fun L e =>
    let r := s.wgRec e.1
    let L := { L with ways := L.ways + ceilDiv r.scratch 32768, minc := max L.minc r.minc }
    (s.wgWarps e.1).foldl (fun L w =>
      let x := s.getWarp e.1 w
      { L with regs := L.regs.set x.part4 (L.regs.getD x.part4 0 + 512 * r.stack), slots := x.slot :: L.slots }) L) Load.empty

/-- The engine of a core has no owner that stays, and is not promised to a workgroup that waits to be resumed there (R63). -/
def engineFree (s : State) (p : Nat) (without : List Nat) : Bool :=
  (match (s.getCore p).mx.owner with | some o => without.contains o | none => true) &&
  !(bindsAhead s p).any (fun b => b.kind = 1 && (s.getWg (wgKey b.lslot b.wg)).eng.isSome)

/-- A core with the create and resume records that wait for it. -/
def plannedLoad (s : State) (p : Nat) (without : List Nat) : Load :=
  ((bindsAhead s p).filter (fun b => b.kind ≤ 1)).foldl (fun L b =>
    match L.add (s.getLaunch b.lslot).lr with
    | some x => x.2
    | none => L) { coreLoad s p without with eng := engineFree s p without }

/-- The cores on which workgroups may be placed: none for a core that is not available. -/
abbrev World := Nat → Option Load

/-- A core whose scan gives way to a launch of a priority (R357, R535). -/
def scanYields (s : State) (prio p : Nat) : Bool :=
  let sc := (s.getCore p).scan
  sc.state = 1 && sc.yl && sc.prio < prio && s.now + 1 < sc.ended

/-- A deterministic launch is running: it counts on the map as it was taken (R376, R518). -/
def detRunning (s : State) : Bool := s.launches.any (fun e => e.2.checked && e.2.lr.det)

/-- The scan of a core that a map commit adds is over (R518). -/
def mapScanOver (s : State) (p : Nat) : Bool :=
  let sc := (s.getCore p).scan
  sc.why = 2 && (sc.state = 2 || sc.state = 3)
/-- The mask that a map commit comes to: a core that failed its scan stays out. -/
def mapFinal (s : State) : BitVec 320 :=
  s.mapScan.foldl (fun m p => if (s.getCore p).scan.state = 3 then m &&& ~~~(BitVec.ofNat 320 (2 ^ p)) else m) s.mapNew

/-- The lowest core that is drained for a change of the map (R18): none while a deterministic launch runs. -/
def drainFrom (s : State) : Option Nat :=
  let out := (s.cores.filter (fun (e : Nat × Core) => e.2.retiring && inService s e.1)).map (·.1)
  let low := if s.mapStat = 1 && s.mapScan.all (mapScanOver s) then (lowestBit 320 (s.mask ^^^ mapFinal s).toNat).toList else []
  if detRunning s then none else (out ++ low).min?

/-- The world of now without some workgroups; `open_` admits cores under scan.  A core for which a withdraw-core record
waits, or that is being drained (R18), is not available. -/
def world (s : State) (without : List Nat) (open_ : Nat → Bool) : World := fun p =>
  if (drainFrom s).any (fun d => d ≤ p) then none
  else if inService s p && (!(s.getCore p).withdrawn || open_ p) && !(bindsFor s p).any (fun b => b.kind = 3) then
    some (plannedLoad s p without)
  else none

/-! ### What is placed next, and where (R63, R373, R376) -/

/-- One workgroup to place. -/
structure Member where
  index : Nat
  qgp : Nat
  qgn : Nat
  /-- it is resumed, and owns an engine -/
  resume : Bool
  eng : Bool
  /-- the core it left -/
  old : Nat
  deriving DecidableEq, Repr

/-- A create or resume record for a workgroup waits. -/
def bindWaits (s : State) (lslot index : Nat) : Bool :=
  (s.slots.flatMap (fun e => e.2) ++ (s.getLaunch lslot).unwritten).any (fun b => b.kind ≤ 1 && b.lslot = lslot && b.wg = index)

/-- The members of the quad group of an index, or the workgroup alone. -/
def groupIndices (r : LRec) (i : Nat) : List Nat :=
  let g := i / max 1 r.qgs
  (List.range r.qgs).filterMap (fun j => if g * r.qgs + j < r.nwg then some (g * r.qgs + j) else none)

/-- A group of workgroups to create or to resume. -/
def memberGroup (s : State) (lslot : Nat) (r : LRec) (resume : Bool) (is : List Nat) : List Member :=
  is.map (fun i =>
    let g := s.getWg (wgKey lslot i)
    { index := i, qgp := i % max 1 r.qgs, qgn := (groupIndices r i).length, resume := resume,
      eng := resume && g.eng.isSome, old := g.core })

/-- The groups that are placed next for a launch (R373): pre-empted workgroups before uncreated ones, each in ascending
order; a GANG launch as a whole. -/
def nextGroups (s : State) (lslot : Nat) : List (List Member) :=
  let l := s.getLaunch lslot
  let r := l.lr
  let saved := ((s.wgs.filter (fun e => e.2.lslot = lslot && e.2.isSaved && !bindWaits s lslot e.2.index)).map (fun e => e.2.index))
  let heads (is : List Nat) : List Nat := is.filter (fun i => (groupIndices r i).head? = some i)
  match saved with
  | i :: _ =>
    let is := if isGang r then heads saved else [((groupIndices r i).head?).getD i]
    if isGang r && s.wgs.any (fun e => e.2.lslot = lslot && e.2.stopping) then []
    else is.map (fun i => memberGroup s lslot r true ((groupIndices r i).filter saved.contains))
  | [] =>
    if l.failing || l.reason ≠ 0 || r.nwg ≤ l.nextWg then []
    else if isGang r then (heads (List.range r.nwg)).map (fun i => memberGroup s lslot r false (groupIndices r i))
    else [memberGroup s lslot r false (groupIndices r l.nextWg)]

/-- The cores a member may go to, in the order in which they are tried: ascending logical numbers; for a workgroup that
was stopped for its swap, the core it left (R407). -/
def coresFor (s : State) (l : Launch) (m : Member) : List Nat :=
  let swap := s.wgs.any (fun e => (s.getLaunch e.2.lslot).lid = l.lid && e.2.index = m.index && e.2.swapStop)
  let r := l.lr
  if m.resume && swap then [m.old]
  else if r.det then
    if m.resume then [m.old] else ((s.physical (m.index % max 1 l.ncore)).toList)
  else (setBitsOf 320 s.mask.toNat).filter (fun p => !(m.resume && isGang r && coreDie p ≠ coreDie m.old))

/-- Try a list of cores for a member. -/
def tryCores (W : World) (r : LRec) (m : Member) (ps : List Nat) : Option (Nat × World) :=
  ps.findSome? (fun p =>
    match W p with
    | none => none
    | some L =>
      if m.eng && !L.eng then none
      else (L.add r).map (fun x => (p, fun q => if q = p then some { x.2 with eng := L.eng && !m.eng } else W q)))

/-- Place the members of a group on cores of a list, one each. -/
def placeOn (r : LRec) : World → List Nat → List Member → Option (List (Member × Nat) × World)
  | W, _, [] => some ([], W)
  | W, ps, m :: ms =>
    match tryCores W r m ps with
    | none => none
    | some (p, W') => (placeOn r W' (ps.erase p) ms).map (fun x => ((m, p) :: x.1, x.2))

/-- Place a group: one workgroup on the first core that has room, a quad group on the first quad (R373). -/
def placeGroup (s : State) (l : Launch) (W : World) (ms : List Member) : Option (List (Member × Nat) × World) :=
  match ms with
  | [] => some ([], W)
  | m :: _ =>
    let ps := coresFor s l m
    if m.qgn ≤ 1 then placeOn l.lr W ps ms
    else ((List.range 80).findSome? (fun q => placeOn l.lr W (ps.filter (fun p => coreQuad p = q)) ms))

/-- Place all the groups, or none. -/
def placeGroups (s : State) (l : Launch) : World → List (List Member) → Option (List (Member × Nat))
  | _, [] => some []
  | W, g :: gs =>
    match placeGroup s l W g with
    | none => none
    | some x => (placeGroups s l x.2 gs).map (fun y => x.1 ++ y)

/-- A create record waits on its producer (R369). -/
def onProducer (s : State) (b : Bind) : Bool := b.kind = 0 && !depReady s b.lslot b.wg

/-- The slot tables have room for records (R368, R370): each holds 256, of which 32 may wait on producers. -/
def slotRoom (s : State) (bs : List Bind) : Bool :=
  (List.range 4).all (fun d =>
    let old := s.slots.get [] d
    let new := bs.filter (fun b => coreDie b.core = d)
    let waits (xs : List Bind) : Nat := (xs.filter (onProducer s)).length
    old.length + new.length ≤ 256 && (waits new = 0 || waits old + waits new ≤ 32))

/-- The records of one quad group, or of one workgroup, at a time. -/
def bindGroups (s : State) (bs : List Bind) : List (List Bind) :=
  let key (b : Bind) : Nat × Nat × Nat := (b.lslot, b.kind, b.wg / max 1 (s.getLaunch b.lslot).lr.qgs)
  ((bs.map key).dedup).map (fun k => bs.filter (fun b => key b = k))

/-! ### Pre-emption (R374, R375, R399) -/

/-- An upper bound of the bytes of a workgroup's image (R95): which registers are live is not known before the stop. -/
def imageBound (s : State) (wg : Nat) : Nat :=
  let g := s.getWg wg
  256 + 2048 + g.nwarps * (5120 + 128 * 64) + roundUp (s.wgRec wg).scratch 64 + (if g.eng.isSome then 264192 else 0)

/-- The image part of a save pool (R399). -/
def imageBase (x : Ctx) : Nat := x.poolBase + 0x21C0000
def imageEnd (x : Ctx) : Nat := x.poolBase + x.poolLen

/-- Room for an image of `n` bytes (R399): the lowest aligned address that is free. Where Kettle firmware places an image
is its own matter. [DESIGN CHOICE; log entry 87] -/
def imageRoom (x : Ctx) (imgs : List ImageRec) (n : Nat) : Option Nat :=
  let fits (a : Nat) : Bool := a + n ≤ imageEnd x && imgs.all (fun i => !(overlaps a n i.addr i.size))
  (imageBase x :: imgs.map (fun i => roundUp (i.addr + i.size) 256)).find? fits

/-- Room for several images at once. -/
def imagesRoom (x : Ctx) : List ImageRec → List (Nat × Nat) → Option (List ImageRec)
  | imgs, [] => some imgs
  | imgs, (wg, n) :: rest =>
    match imageRoom x imgs n with
    | none => none
    | some a => imagesRoom x ({ wg := wg, addr := a, size := n } :: imgs) rest

/-- Workgroups by quad group: the images of each are written as one run (R95). -/
def imageRuns (s : State) (ks : List Nat) : List (List Nat) :=
  let key (k : Nat) : Nat × Nat := ((s.getWg k).lslot, (s.getWg k).index / max 1 (s.wgRec k).qgs)
  ((ks.map key).dedup).map (fun q => ks.filter (fun k => key k = q))

/-- A yield record names a workgroup. -/
def yieldNames (s : State) (b : Bind) (k : Nat) : Bool := b.kind = 2 && b.lslot = (s.getWg k).lslot && b.wg = (s.getWg k).index
/-- A yield record for a workgroup waits. -/
def yieldWaits (s : State) (k : Nat) : Bool := (bindsFor s (s.getWg k).core).any (fun b => yieldNames s b k)

/-- The workgroups of a context that stop, or for which a yield record stands. -/
def outgoing (s : State) (ctx : Nat) : List Nat :=
  let ks := (s.wgs.filter (fun e => e.2.alive && s.wgCtx e.1 = ctx && (e.2.stopping || yieldWaits s e.1))).map (·.1)
  (ks.flatMap (fun k => unitOf s k Wg.alive)).dedup

/-- The workgroups of a context that are on their way out, with those of a list, will find room for their images, run by run (R95,
R399). -/
def poolAdmits (s : State) (ctx : Nat) (more : List Nat) : Bool :=
  let x := s.getCtx ctx
  let ks := (outgoing s ctx ++ more.filter (fun k => s.wgCtx k = ctx)).dedup
  more.all (fun k => s.wgCtx k ≠ ctx) ||
    (imagesRoom x x.images ((imageRuns s ks).map (fun r =>
      (r.headD 0, (r.map (fun k => roundUp (imageBound s k) 256)).foldl (· + ·) 0)))).isSome

/-- Units of lower priority on their cores, each as its workgroups: lowest priority first, then the most recently
created, which for a unit is its last workgroup's creation (R374). -/
def victims (s : State) (prio : Nat) : List (List Nat) :=
  let ks := s.wgs.filter (fun e => e.2.alive && (s.wgRec e.1).prio < prio)
  let units := (ks.map (fun e => unitOf s e.1 Wg.alive)).dedup
  let rank (u : List Nat) : Nat × Nat :=
    (((u.head?).map (fun k => (s.wgRec k).prio)).getD 0, (u.map (fun k => (s.getWg k).created)).foldl max 0)
  let before (a b : List Nat) : Bool := (rank a).1 < (rank b).1 || ((rank a).1 = (rank b).1 && (rank b).2 ≤ (rank a).2)
  units.mergeSort before

/-- A unit is already on its way out: one yield record stands for all of it (R368). -/
def leaving (s : State) (u : List Nat) : Bool := u.any (fun k => (s.getWg k).stopping || yieldWaits s k)

/-- The fewest victims, in order, after which the groups can be placed; none when not even all of them suffice. -/
def chooseVictims (s : State) (l : Launch) (gs : List (List Member)) : List Nat → List (List Nat) → Option (List (List Nat))
  | gone, us =>
    if (placeGroups s l (world s gone (fun _ => false)) gs).isSome then some []
    else match us with
      | [] => none
      | u :: us => (chooseVictims s l gs (gone ++ u) us).map (fun vs => u :: vs)

/-! ### Choosing a launch (R373) -/

/-- A launch may have workgroups created now: checked, its context with a save pool (R399), and a deterministic launch
of a QPF kernel only once its translation has ended (R407). -/
def launchReady (s : State) (l : Launch) : Bool :=
  l.checked && (s.getCtx l.lr.ctx).poolLen ≠ 0 &&
  !(l.lr.det && (match l.kernel with | some k => k.form = 1 | none => false))

/-- A launch has workgroups left to place. -/
def unplaced (s : State) (lslot : Nat) : Bool :=
  let l := s.getLaunch lslot
  !l.failing && (!l.checked || l.unwritten ≠ [] || nextGroups s lslot ≠ [])

/-- The launch whose turn it is for a context and a priority: the earliest with workgroups left (R373). -/
def turnOf (s : State) (ctx prio : Nat) : Option Nat :=
  let ls := s.launches.filter (fun e => e.2.lr.ctx = ctx && e.2.lr.prio = prio && unplaced s e.1)
  (ls.foldl (fun (a : Option (Nat × Nat)) e =>
    match a with
    | none => some (e.1, e.2.lid)
    | some x => if e.2.lid < x.2 then some (e.1, e.2.lid) else a) none).map (·.1)

/-- What placing a launch comes to now. -/
inductive Plan where
  /-- bind records for these members -/
  | bind (ms : List (Member × Nat))
  /-- bind records that were decided on before are written as far as there is room -/
  | write
  /-- abort the scan of this core first (R357) -/
  | abort (p : Nat)
  /-- pre-empt the units of these workgroups -/
  | yield (ks : List Nat)
  /-- workgroups are already stopping for it -/
  | waits
  | none
  deriving DecidableEq, Repr

/-- The bind records for members that have been given cores. -/
def bindsOf (lslot ctx : Nat) (ms : List (Member × Nat)) : List Bind :=
  ms.map (fun m => { kind := b2n m.1.resume, core := m.2, ctx := ctx, qgp := m.1.qgp, qgn := m.1.qgn - 1, lslot := lslot, wg := m.1.index })

/-- The plan of a launch.  A GANG launch takes its cores as a whole, and its records are written as the slot tables have room. -/
def planOf (s : State) (lslot : Nat) : Plan :=
  let l := s.getLaunch lslot
  let gs := nextGroups s lslot
  if l.unwritten ≠ [] then (if (bindGroups s l.unwritten).any (slotRoom s) then .write else .none)
  else if !launchReady s l || gs = [] then .none
  else
    match placeGroups s l (world s [] (fun _ => false)) gs with
    | some ms => if isGang l.lr || slotRoom s (bindsOf lslot l.lr.ctx ms) then .bind ms else .none
    | none =>
      match placeGroups s l (world s [] (scanYields s l.lr.prio)) gs with
      | some ms =>
        match ms.find? (fun m => scanning s m.2) with
        | some m => .abort m.2
        | none => .none
      | none =>
        let us := victims s l.lr.prio
        let out := us.filter (leaving s)
        match chooseVictims s l gs out.flatten (us.filter (fun u => !leaving s u)) with
        | none => .none
        | some [] => .waits
        | some vs =>
          let ks := vs.flatten
          let heads := (vs.filterMap (·.head?)).filter (fun k => slotFree s (s.getWg k).core)
          if heads ≠ [] && (ks.map (fun k => s.wgCtx k)).dedup.all (fun c => poolAdmits s c ks) then .yield heads else .none

/-- The contexts in the order of their turn at a priority (R373). -/
def ctxOrder (s : State) (prio : Nat) : List Nat :=
  let last := s.rr.get 63 prio
  (List.range 64).map (fun i => (last + 1 + i) % 64)

/-- The launches in the order in which their turn comes. -/
def turns (s : State) : List Nat :=
  [3, 2, 1, 0].flatMap (fun prio => (ctxOrder s prio).filterMap (fun c => turnOf s c prio))

/-- The first launch for which something can be done, with its plan.  A launch that cannot be placed at all lets others
go on; one that waits for stopping workgroups does not. [DESIGN CHOICE; log entry 85] -/
def nextPlan (s : State) : List Nat → Option (Nat × Plan)
  | [] => none
  | l :: ls =>
    match planOf s l with
    | .none => nextPlan s ls
    | .waits => none
    | p => some (l, p)

/-! ### Writing bind records -/

/-- Write a bind record to the slot table of its die (R368). -/
def writeBind (s : State) (b : Bind) : State :=
  let d := coreDie b.core
  { s with slots := s.slots.put d (s.slots.get [] d ++ [b]) }

/-- STATE of a launch, in the status block too (R366). -/
def setLaunchState (s : State) (lslot st : Nat) : State :=
  writeStatus (s.modLaunch lslot (fun l => { l with state := st })) lslot 0 (toLE 4 st)

/-- Ask the units of workgroups to yield (R374, R515): one record each, as far as the slot tables have room. -/
def writeYields (s : State) (ks : List Nat) : State :=
  ks.foldl (fun s k =>
    let g := s.getWg k
    if !slotFree s g.core then s
    else writeBind s { kind := 2, core := g.core, ctx := s.wgCtx k, qgp := g.qgpos, qgn := g.qgsize - 1, lslot := g.lslot, wg := g.index }) s

/-- Write the records of a launch that have not been written, group by group, as far as there is room (R368, R370). -/
def writeBinds (s : State) (lslot : Nat) : State :=
  let gs := bindGroups s (s.getLaunch lslot).unwritten
  let r := gs.foldl (fun (a : State × List Bind) bs =>
    if slotRoom a.1 bs then (bs.foldl writeBind a.1, a.2) else (a.1, a.2 ++ bs)) (s, [])
  r.1.modLaunch lslot (fun l => { l with unwritten := r.2 })

/-- Carry out a plan. -/
def runPlan (s : State) (lslot : Nat) : Plan → State
  | .none | .waits => s
  | .write => writeBinds s lslot
  | .abort p => scanAbortNow s p
  | .yield ks => writeYields s ks
  | .bind ms =>
    let l := s.getLaunch lslot
    let s := if l.state = 0 then setLaunchState s lslot 1 else s
    let n := (ms.filter (fun m => !m.1.resume)).length
    writeBinds ({ s with rr := s.rr.put l.lr.prio l.lr.ctx }.modLaunch lslot (fun l =>
      { l with nextWg := l.nextWg + n, pending := l.pending + n, unwritten := bindsOf lslot l.lr.ctx ms })) lslot

/-! ### Taking and checking a record (R365, R367) -/

/-- The loaded kernel of a context whose section begins at an address, with its load. -/
def kernelAt (s : State) (ctx sect : Nat) : Option (Nat × Kernel) :=
  (s.getCtx ctx).loads.findSome? (fun L => (L.kernels.find? (fun k => k.sect = sect)).map (fun k => (L.id, k)))

/-- ENTRY is a bundle of the section, or a function entry of a QPF section (R367, R396). -/
def entryOk (k : Kernel) (entry : Nat) : Bool :=
  if k.form = 0 then entry < k.len else k.funcs.any (fun e => e.1 = entry)

/-- The virtual ranges of Kettle firmware's writes that a launch will use (R540). -/
def launchRanges (r : LRec) : List (Nat × Nat) :=
  [(r.status, 64), (sextVa r.spbase, r.nwg * r.nwarps * r.spsize)] ++
  (if r.det then [(sextVa r.wbbase, r.nwg * r.wbsize), (sextVa r.pibase, r.pisize)] else [])

/-- The whole launch fits in the package at once, or one group of it on an empty quad (R35). -/
def fitsEmpty (s : State) (r : LRec) : Bool :=
  let W : World := fun p => if inService s p then some Load.empty else none
  let l := { Launch.init with lr := { r with flags := r.flags &&& 0xFE } }
  let group (i : Nat) : List Member := (groupIndices r i).map (fun i =>
    { index := i, qgp := i % max 1 r.qgs, qgn := (groupIndices r i).length, resume := false, eng := false, old := 0 })
  let heads := if isGang r then (List.range r.nwg).filter (fun i => i % max 1 r.qgs = 0) else [0]
  (!isGang r || r.nwg ≤ 320 * 48) && (placeGroups s l W (heads.map group)).isSome

/-- What the producer of a record has come to: `none` while it has not been checked. -/
def producerCheck (s : State) (ctx : Nat) (r : LRec) : Option Nat :=
  if r.map = 0 then some 0
  else
    match s.lids.find? r.prod with
    | none => some 7
    | some (c, st) => if c ≠ ctx || st = 4 then some 7 else if st = 0 then none else some 0

/-- The reason with which a record is rejected, 0 for none (R367): the lowest that applies. -/
def rejectReason (s : State) (q : QRec) (ctx : Nat) (r : LRec) (prod : Nat) : Nat :=
  let k := kernelAt s ctx r.sect
  let below (k : Kernel) : Bool := r.stack < k.stk || r.scratch < k.scr || r.sets < k.sets || r.descs < k.descs
  if !recordOk q.bytes r then 1
  else if !fitsEmpty s r || (s.held && !r.maint) then 2
  else if (match k with | some (_, k) => !entryOk k r.entry || below k | none => true) then 3
  else if r.ctx ≠ ctx then 4
  else if !q.host && q.prio < r.prio then 5
  else if r.maint && !(q.host && q.owner) then 6
  else if prod ≠ 0 then prod
  else if r.det && (1 < r.qgs || isGang r) then 8
  else if r.spsize = 0 || (r.det && (r.wbsize = 0 || r.pisize = 0)) then 9
  else if !(launchRanges r).all (fun e => kettleMapped s (s.getCtx ctx).asid e.1 e.2) then 10
  else 0

/-- FTH of the signature (R179). -/
def formatHash (k : Kernel) : Nat :=
  ((List.range 8).map (fun i => (k.fmt.getD i 0).toNat) ++ [k.amr.toNat % 2 ^ 32, k.amr.toNat / 2 ^ 32]).foldl
    (fun h w => mix64 (h ^^^ w)) 0

/-- The reproducibility signature of a deterministic launch (R179). -/
def signature (s : State) (r : LRec) (k : Kernel) (compat : Bool) : Nat :=
  formatHash k * 2 ^ 192 + r.seed * 2 ^ 128 + r.ctrb * 2 ^ 64 + 0xB0 * 2 ^ 56 + 1 * 2 ^ 48 + b2n compat * 2 ^ 12 + 2 ^ 11 +
  s.ncore

/-- Set what is remembered of a launch identifier: 0 unchecked, 1 checked, 2 complete, 3 failed, 4 rejected. -/
def setLid (s : State) (lid ctx st : Nat) : State := { s with lids := s.lids.put lid (ctx, st) }

/-- The whole status block as it stands when a record enters the table, or is rejected. -/
def statusBlock (st reason lid : Nat) : List Byte := toLE 4 st ++ toLE 4 reason ++ toLE 8 lid ++ zeros 48

/-- Check a record in the launch table (R367): it is rejected, held for its producer, or admitted; one that was held is rejected with
reason 0x07 where its producer was; a consumer whose STRICT producer has failed creates nothing (R372). -/
def checkLaunch (s : State) (lslot : Nat) (q : QRec) (ctx : Nat) (waited : Bool) : State :=
  let r := parseRec q.bytes
  match producerCheck s ctx r with
  | none => s
  | some prod =>
    match (if waited && prod ≠ 0 then prod else rejectReason s q ctx r prod) with
    | 0 =>
      let k := kernelAt s ctx r.sect
      let strict : Bool := r.strict && r.map ≠ 0 && (s.lids.find? r.prod) = some (ctx, 3)
      let s := setLid s q.lid ctx 1
      let s := s.modLaunch lslot (fun l => { l with lr := r, checked := true, kernel := k.map (·.2), loadId := (k.map (·.1)).getD 0,
                                                    ncore := s.ncore, reason := if strict then 0x10 else 0 })
      match r.det, k with
      | true, some (_, k) => s.modCtx ctx (fun x => { x with rsig := BitVec.ofNat 256 (signature s r k x.compat) })
      | _, _ => s
    | reason =>
      let s := if reason = 2 && s.held && !r.maint then writeRecord s { hubEvent .heldLaunch 5 7 with lid := q.lid, ctx := some ctx } else s
      let s := writeStatus s lslot 0 (statusBlock 4 reason q.lid)
      { setLid s q.lid ctx 4 with launches := s.launches.del lslot }

/-- The record of a launch in the table, as it came from its queue. -/
def Launch.qrec (l : Launch) (bytes : List Byte) : QRec :=
  { lid := l.lid, bytes := bytes, host := l.host, owner := l.owner, prio := l.prio }

/-- LAUNCH_RECORD_TAKE (R365): the record at the head of a queue enters the launch table and is checked. -/
def execLaunchRecordTake (ctx queue : Nat) (s : State) : Host.Outcome State Fault Refusal :=
  .next (match (s.getCtx ctx).queues.get [] queue, (List.range 1024).find? (fun i => (s.launches.find? i).isNone) with
    | q :: qs, some lslot =>
      let s := s.modCtx ctx (fun x => { x with queues := x.queues.put queue qs })
      let r := parseRec q.bytes
      let s := s.setLaunch lslot { Launch.init with lid := q.lid, lr := { r with ctx := ctx }, host := q.host, owner := q.owner,
                                                    prio := q.prio, held := q.bytes }
      let s := writeStatus s lslot 0 (statusBlock 0 0 q.lid)
      checkLaunch { s with rr := s.rr.put (4 + r.prio % 4) ctx } lslot q ctx false
    | _, _ => s)

/-- A launch in the table waits only for its check. -/
def checkDue (s : State) (lslot : Nat) : Bool :=
  let l := s.getLaunch lslot
  l.lid ≠ 0 && !l.checked && (producerCheck s l.lr.ctx (parseRec l.held)).isSome

/-- The unit of a launch that is to be stopped for its swap next (R407), if its images will find room (R399). -/
def swapVictim (s : State) (lslot : Nat) : Option (List Nat) :=
  (s.wgs.filter (fun e => e.2.lslot = lslot && e.2.swapWanted && e.2.phase = .running && !yieldWaits s e.1)).findSome? (fun e =>
    let u := unitOf s e.1 Wg.alive
    if poolAdmits s (s.wgCtx e.1) u && slotFree s e.2.core then some (e.1 :: u.erase e.1) else none)

/-- WORKGROUP_PLACEMENT (R373): the check that a record was held for, a swap stop (R407), or the next step of
placement. -/
def execWorkgroupPlacement (lslot : Nat) (s : State) : Host.Outcome State Fault Refusal :=
  .next (
    let l := s.getLaunch lslot
    if checkDue s lslot then checkLaunch s lslot (l.qrec l.held) l.lr.ctx true
    else if l.lid = 0 then s
    else
      match swapVictim s lslot with
      | some u => writeYields (u.foldl (fun s k => s.modWg k (fun g => { g with swapStop := g.swapWanted })) s) [u.headD 0]
      | none => runPlan s lslot (planOf s lslot))

/-! ### The end of a launch (R366, R372) -/

/-- Nothing of a launch is left to run, and its last completion bit is set. -/
def launchDone (s : State) (lslot : Nat) : Bool :=
  let l := s.getLaunch lslot
  l.lid ≠ 0 && l.checked && !s.wgs.any (fun e => e.2.lslot = lslot) && l.pending = 0 &&
  (l.failing || l.reason ≠ 0 || l.lr.nwg ≤ l.ndone)

/-- The STRICT consumers of a failed launch create nothing more, and their waiting create records go (R372). -/
def stopConsumers (s : State) (lid ctx : Nat) : State :=
  (s.launches.filter (fun e => e.2.checked && e.2.lr.strict && e.2.lr.map ≠ 0 && e.2.lr.prod = lid && e.2.lr.ctx = ctx)).foldl
    (fun s e =>
      let s := { s with slots := s.slots.map (fun (d : Nat × List Bind) => (d.1, d.2.filter (fun b => !(b.kind = 0 && b.lslot = e.1)))) }
      s.modLaunch e.1 (fun l => { l with
        reason := 0x10, pending := 0, unwritten := l.unwritten.filter (fun b => b.kind ≠ 0) })) s

/-- LAUNCH_FINISH (R366): STATE 2, or 3 for a launch with failed workgroups or one that was failed or stopped. -/
def execLaunchFinish (lslot : Nat) (s : State) : Host.Outcome State Fault Refusal :=
  .next (if !launchDone s lslot then s
    else
      let l := s.getLaunch lslot
      let st := if l.failing || l.reason ≠ 0 || l.failed ≠ 0 then 3 else 2
      let s := writeStatus s lslot 0x28 (toLE 8 s.now)
      let s := if l.reason ≠ 0 then writeStatus s lslot 4 (toLE 4 l.reason) else s
      let s := writeStatus s lslot 0 (toLE 4 st)
      let s := setLid { s with launches := s.launches.del lslot } l.lid l.lr.ctx st
      if st = 3 then stopConsumers s l.lid l.lr.ctx else s)

end Sys2Proof.Machine
end

