-- ==== Sys2Proof/Machine/Crc.lean ====
section
/-!
DEFINITION. The cyclic redundancy checks the spec names: CRC-32 of IEEE 802.3 (R96, R468) and CRC-32C (R380), bit by bit.
-/

namespace Sys2Proof

/-- One bit of a reflected CRC of polynomial `poly`. -/
def crcBit (poly x : Nat) : Nat := if x % 2 = 1 then (x / 2) ^^^ poly else x / 2
/-- One byte. -/
def crcByte (poly c : Nat) (b : Byte) : Nat := (List.range 8).foldl (fun x _ => crcBit poly x) (c ^^^ b.toNat)
/-- A 32-bit reflected CRC with all ones at the start and complemented at the end. -/
def crcOf (poly : Nat) (bs : List Byte) : Nat := (bs.foldl (crcByte poly) (2 ^ 32 - 1)) ^^^ (2 ^ 32 - 1)
/-- CRC-32 of IEEE 802.3. -/
def crc32 (bs : List Byte) : Nat := crcOf 0xEDB88320 bs
/-- CRC-32C. -/
def crc32c (bs : List Byte) : Nat := crcOf 0x82F63B78 bs

end Sys2Proof
end

