-- ==== Sys2Proof/Machine/Portable.lean ====
section
/-!
DEFINITION. The portable form: QPF words (R201 to R203), and what the loader requires of code in either form (R60, R194,
R197, R223, R402 to R406).
-/

namespace Sys2Proof.Machine

open Sys2Proof

/-! ### QPF words -/

/-- The native operand code of a portable operand number (R202, R402): `qx` is window register `vx`. -/
def qpfCode (x : Nat) : Option Nat := if x < 64 then some x else if 0xF40 ≤ x then some (x - 0xF00) else none

/-- A QPF word taken apart: OP, FN, the fields of its native counterpart, and its encoding failures. -/
structure QpfForm where
  op : Nat
  fn : Nat
  f : Fields
  /-- reasons of R443 with their fields and what these hold: reserved bits and operand numbers (R201, R202, R447) -/
  fails : List (Nat × Fld × Nat)
  deriving DecidableEq, Repr

/-- The QPF word held by 16 bytes (R201): it carries no timing and no safe point; STALL 3 stands for its pace of four issue
cycles (R203). -/
def qpfForm (bs : List Byte) : QpfForm :=
  let q := ofLE (bs.take 16)
  let code (lo : Nat) : Nat := (qpfCode (bits q lo 12)).getD 0
  let opnds : List (Nat × Fld) := [(20, .d), (32, .a), (44, .b), (56, .c)]
  { op := bits q 0 8, fn := bits q 8 4
    f := { stall := 3, gp := BitVec.ofNat 3 (bits q 12 3), gn := bitB q 15, d := BitVec.ofNat 8 (code 20),
           a := BitVec.ofNat 8 (code 32), b := BitVec.ofNat 8 (code 44), fs := BitVec.ofNat 3 (bits q 16 3), sp := false,
           st := 0, wm := 0, c := BitVec.ofNat 8 (code 56), y := bitB q 19, imm := BitVec.ofNat 28 (bits q 68 28) }
    fails := (if bits q 96 32 ≠ 0 then [(5, .whole, 0)] else []) ++
      (opnds.filter (fun e => (qpfCode (bits q e.1 12)).isNone)).map (fun e => (8, e.2, bits q e.1 12)) }

/-- The instruction of a QPF word, if its OP and FN name one. -/
def QpfForm.instr (q : QpfForm) : Option Instr := selectInstr q.op q.fn q.f

/-- A register of the device's translation stands in an operand field (R403). -/
def reservedQ (c : Nat) : Bool := c = 60 || c = 61 || c = 62

/-- A word of a QPF section of `len` bytes, at byte `off`, meets R403 and R404. -/
def qpfWordOk (funcs : List (Nat × Nat)) (len off : Nat) (bs : List Byte) : Bool :=
  let q := qpfForm bs
  let tgt (n : Nat) : Int := off + 16 * signed n q.f.immN
  match q.instr with
  | none => false
  | some i =>
    q.fails = [] && (encodingFailure i).isNone &&
    !(reservedQ q.f.d.toNat || reservedQ q.f.a.toNat || reservedQ q.f.b.toNat || reservedQ q.f.c.toNat) &&
    (match i with
     | .bra _ => 0 ≤ tgt 28 && tgt 28 < len
     | .call f => bits f.immN 26 2 = 0 && 0 ≤ tgt 26 && funcs.any (fun e => (e.1 : Int) = tgt 26)
     | .callx f => bits f.immN 26 2 = 0
     | _ => true)

/-- A QPF section meets R404. -/
def qpfSectionOk (funcs : List (Nat × Nat)) (bs : List Byte) : Bool :=
  bs.length % 16 = 0 && bs.length ≤ 2 ^ 28 &&
  (List.range (bs.length / 16)).all (fun i => qpfWordOk funcs bs.length (16 * i) ((bs.drop (16 * i)).take 16))

/-- The words of a QPF section that a backward BRA or CALL reaches: they are its safe points (R203). -/
def qpfBacks (bs : List Byte) : List Nat :=
  (List.range (bs.length / 16)).filterMap (fun i =>
    let q := qpfForm (bs.drop (16 * i))
    let tgt (n : Nat) : Int := 16 * i + 16 * signed n q.f.immN
    match q.instr with
    | some (.bra _) => if 0 ≤ tgt 28 && tgt 28 ≤ 16 * i then some (tgt 28).toNat else none
    | some (.call _) => if 0 ≤ tgt 26 && tgt 26 ≤ 16 * i then some (tgt 26).toNat else none
    | _ => none)

/-- The functions of a QPF function table: entry offset and frame size (R405). -/
def qpfFuncs (bs : List Byte) : List (Nat × Nat) :=
  (List.range (bs.length / 16)).map (fun i => (leAt bs (16 * i) 4, 16 * leAt bs (16 * i + 4) 1))

/-- A QPF function table meets R405 for a section of `len` bytes; the entry function stands first. -/
def qpfTableOk (len : Nat) (bs : List Byte) : Bool :=
  bs ≠ [] && bs.length % 16 = 0 &&
  (List.range (bs.length / 16)).all (fun i =>
    leAt bs (16 * i) 4 % 64 = 0 && leAt bs (16 * i) 4 < len && leAt bs (16 * i + 4) 1 ≤ 3 && allZero ((bs.drop (16 * i + 5)).take 11))

/-! ### Native sections -/

/-- A native section: the bundle at a byte offset. -/
def bundleAt (bs : List Byte) (off : Nat) : List Byte := (bs.drop off).take 64

/-- The stored forms of a bundle, decoded: none of a malformed bundle. -/
def bundleInstrs (b : List Byte) : List (Except DecodeErr (Instr × Nat)) :=
  ((bundleForms b).getD []).map (fun o => decodeBytes (b.drop o))

/-- A bundle contains an instruction with SP set. -/
def hasSafePoint (b : List Byte) : Bool :=
  ((bundleForms b).getD []).any (fun o => match expandForm (b.drop o) with
    | some (w, _) => (fieldsOf w).sp
    | none => false)

/-- A class V instruction that writes a `v`, `k` or predicate register, with no token (R197).
[A stream is no register here; DEDUCED, log entry 97] -/
def lacksToken (i : Instr) : Bool :=
  (opFn i).isSome && (latOf i).isNone && (i.fields.map (·.st)) = some 0 &&
  (usedFields i).any (fun e => (e.1 = .d || e.1 = .imm) && (isVK e.2.1 || isP e.2.1))

/-- The direct transfer of an instruction in the bundle at `off`: its target (R193, R223). -/
def directTarget (i : Instr) (off : Nat) : Option Int :=
  match i with
  | .bra f => some ((off : Int) + 64 * signed 28 f.immN)
  | .call f => some ((off : Int) + 64 * signed 26 f.immN)
  | _ => none

/-- A bundle of a native section meets R60, R194, R197 and R223. -/
def bundleOk (bs : List Byte) (nlive off : Nat) : Bool :=
  let b := bundleAt bs off
  let lsi := bundleLSI (leAt b 0 4)
  (lsi = 0 || lsi < nlive) &&
  (bundleInstrs b).all (fun r => match r with
    | .ok (i, _) =>
      !lacksToken i &&
      (match directTarget i off with
       | some t => 0 ≤ t && t < bs.length && ((off : Int) < t || hasSafePoint (bundleAt bs t.toNat))
       | none => true)
    | .error _ => true)

/-- A native section meets the loader's rules. -/
def nativeOk (bs : List Byte) (nlive : Nat) : Bool :=
  (List.range (bs.length / 64)).all (fun i => bundleOk bs nlive (64 * i))

/-! ### Translations (R406) -/

/-- The registers that an instruction's fields name, by code; those it writes alone. -/
def fieldCodes (i : Instr) (writes : Bool) : List Nat :=
  (((usedFields i).filter (fun e => !writes || e.1 = .d || e.1 = .imm)).flatMap (fun e => (List.range e.2.2).map (e.2.1 + ·))).filter
    (fun c => isVK c || isP c || isH c)

/-- No lane goes on to the next instruction. -/
def leavesAll : Instr → Bool
  | .bra f | .brx f | .call f | .callx f | .ret f | .exit f | .eret f | .halt f => f.gp = 0 && !f.gn
  | _ => false

/-- A walk through code in address order: the cycle, and the registers under way with the cycle from which they may be used. -/
structure GapScan where
  now : Nat
  owed : List (Nat × Nat)
  ok : Bool
  deriving DecidableEq, Repr

/-- One instruction of the walk: it issues at the gap that the STALL before it leaves. -/
def GapScan.next (g : GapScan) (i : Instr) : GapScan :=
  match i.fields with
  | none => g
  | some f =>
    let used := (if f.gp = 0 then [] else [112 + f.gp.toNat]) ++ fieldCodes i false
    let mine := match latOf i with | some n => (fieldCodes i true).map (fun c => (c, g.now + n)) | none => []
    { now := g.now + 1 + f.stall.toNat
      owed := if leavesAll i then [] else g.owed.filter (fun e => g.now < e.2) ++ mine
      ok := g.ok && g.owed.all (fun e => e.2 ≤ g.now || !used.contains e.1) }

/-- Along every path that follows addresses alone, the gaps of R196 are kept. -/
def gapsOk (bs : List Byte) : Bool :=
  (((List.range (bs.length / 64)).flatMap (fun i => bundleInstrs (bundleAt bs (64 * i)))).foldl
    (fun (g : GapScan) r => match r with | .ok (i, _) => g.next i | .error _ => g) ⟨0, [], true⟩).ok

/-- The room for the translation of a QPF section and its swap map (R396). -/
def qpfRoom (len : Nat) : Nat := roundUp (5 * len) 64 - roundUp len 64

/-- Translated code and its swap map are such as R406 describes: one entry per QPF word, each the start of an instruction;
the code meets the loader's rules and keeps the gaps of R196, and both fit.  That it has the effects of the QPF words, and converts
their code addresses, is not tested. [DESIGN CHOICE; log entry 139] -/
def translationOk (len : Nat) (code : List Byte) (swap : List Nat) : Bool :=
  code.length % 64 = 0 && nativeOk code 0 && gapsOk code && swap.length = len / 16 && code.length + 4 * swap.length ≤ qpfRoom len &&
  swap.all (fun o => o < code.length &&
    (match bundleForms (bundleAt code (o / 64 * 64)) with
     | some fs => fs.contains (o % 64)
     | none => false))

end Sys2Proof.Machine
end

