-- ==== Sys2Proof/Machine/Images.lean ====
section
/-!
DEFINITION. Workgroup images (R94 to R100, R259, R317, R328): what a save writes into the context's save pool, the checks
made before a unit is resumed, and what a resumption reads back.  What an image does not cover (parked commands, phases of
barriers, signers, the buffered writes of a deterministic workgroup) the device keeps. [DEDUCED; log entry 80]
-/

namespace Sys2Proof.Machine

open Sys2Proof

/-! ### The bytes of an image -/

/-- PCs at which a warp stands: its entries and its held lanes. -/
def Warp.stopPcs (x : Warp) : List Nat :=
  (x.table.map (fun e => e.pc.toNat)) ++ (x.heldLanes.filterMap (fun l => (x.lane l).hold.map (fun h => h.rpc.toNat)))

/-- The live set of the bundle of a stop PC (R61, R194), as a mask; 64 registers where it is not named, or where the bundle
has no instruction with SP set, in which LSI has no effect. -/
def liveMask (s : State) (wg pc : Nat) : Nat :=
  let all := 2 ^ 64 - 1
  let g := s.getWg wg
  match s.wgKernel wg with
  | none => all
  | some k =>
    let b := (codeLine s g.core (s.wgAsid wg) pc false).bytes
    let n := bundleLSI (leAt b 0 4)
    if k.form ≠ 0 || n = 0 || k.nlive ≤ n || !hasSafePoint b then all
    else
      match kettleRead s (s.wgAsid wg) (k.live + 8 * n) 8 with
      | some bs => ofLE bs
      | none => all

/-- The live union of a warp (R61). -/
def liveUnion (s : State) (wg w : Nat) : Nat :=
  ((s.getWarp wg w).stopPcs).foldl (fun m pc => m ||| liveMask s wg pc) 0

/-- A rejoin set (R64). -/
def RjSet.word (r : RjSet) : Nat :=
  r.mem.toNat + r.arr.toNat * 2 ^ 32 + r.depth * 2 ^ 64 + b2n r.isOpen * 2 ^ 80 + b2n r.orph * 2 ^ 81
/-- A signing register (R75). -/
def SignReg.word (r : SignReg) : Nat := r.decl + r.sgn * 2 ^ 11 + b2n r.latch.isSome * 2 ^ 22
/-- A latch (R97). -/
def latchBytes (l : Option Latch) : List Byte :=
  match l with
  | none => zeros 64
  | some t => fitBytes 64 (toLE 12 (((encodeWord t.instr).map (·.toNat)).getD 0) ++ zeros 4 ++ (t.vals.take 3).flatMap (fun v => toLE 8 v.toNat))
/-- FLG of the record state (R328). -/
def RecState.flg (r : RecState) : Nat := b2n r.act + 2 * b2n r.tw + 4 * b2n r.rev
/-- The record state (R328). -/
def recBytes (r : RecState) : List Byte :=
  toLE 10 r.base ++ toLE 1 r.flg ++ zeros 1 ++ toLE 2 r.rcm.toNat ++ toLE 2 r.clr.toNat ++ toLE 4 r.entcap ++ toLE 4 r.size ++
  toLE 4 r.nent ++ toLE 4 r.rpos ++ toLE 8 r.payused ++ toLE 4 r.stat.toNat ++ zeros 20

/-- The workgroup block (R97). -/
def wgBlock (s : State) (wg : Nat) : List Byte :=
  let g := s.getWg wg
  (List.range 8).flatMap (fun n => toLE 8 (g.sign n).word) ++
  (List.range 8).flatMap (fun n => latchBytes (g.sign n).latch) ++
  (List.range 16).flatMap (fun n => toLE 32 (g.m.get 0 n).toNat) ++
  (List.range 4).flatMap (fun n => toLE 32 (g.maskR n).toNat) ++ (List.range 4).flatMap (fun n => toLE 32 (g.maskC n).toNat) ++
  (List.range 8).flatMap (fun n => toLE 4 (g.fmt.get 0 n).toNat) ++ toLE 8 g.amr.toNat ++ toLE 8 g.shash.toNat ++
  toLE 10 g.det.base ++ zeros 2 ++ toLE 4 g.det.used ++
  (List.range 16).flatMap (fun n => toLE 8 ((g.bar 3 n).count + barExpected s wg 3 n * 2 ^ 16)) ++
  recBytes g.recd ++ zeros 448

/-- STATE and ARG of a held lane (R99). -/
def HoldKind.code : HoldKind → Nat × Nat
  | .rejoin n => (1, n)
  | .barrier _ n _ => (2, n)
  | .sleep => (3, 0)
  | .hsleep r => (4, r)
  | .handle r => (5, r)
  | .signed g => (6, g)

/-- A lane record (R99): PC, STATE, ARG and the rest.  The PC of a lane in STATE 7 or 8, for which the rule gives none, is
written as zero. [DESIGN CHOICE; log entry 126] -/
def laneRecord (x : Warp) (l : Nat) : List Byte :=
  let y := x.lane l
  let pc := (((x.table.find? (fun e => e.mask.getLsbD l)).map (fun e => e.pc.toNat)).getD 0)
  let p : Nat × Nat × Nat × Nat :=
    if !y.launched then (0, 8, 0, 0)
    else if y.exited then (0, 7, 0, 0)
    else match y.hold with
      | some h => (h.rpc.toNat, h.kind.code.1, h.kind.code.2, h.wake)
      | none => (pc, 0, 0, 0)
  let wake := if p.2.1 = 3 || p.2.1 = 4 then p.2.2.2 else 0
  toLE 10 p.1 ++ toLE 1 p.2.1 ++ toLE 1 p.2.2.1 ++ toLE 2 y.fp ++ toLE 2 y.rb ++ toLE 2 y.depth ++ zeros 6 ++
  toLE 8 y.draw ++ toLE 8 wake ++ zeros 8

/-- The CHAIN area (R259). -/
def chainBytes (c : Option Chain) : List Byte :=
  match c with
  | none => zeros 256
  | some c =>
    fitBytes 64 (c.prog.flatMap (fun w => toLE 8 w.toNat)) ++ toLE 4 c.n ++ toLE 4 c.done ++ toLE 1 (1 + 2 * c.st) ++ zeros 7 ++
    toLE 8 c.d0 ++ toLE 8 c.g0 ++ toLE 1 c.flags.toNat ++ zeros 159

/-- A warp block (R98) with the registers of a live union. -/
def warpBlock (s : State) (wg w live : Nat) : List Byte :=
  let x := s.getWarp wg w
  toLE 4 (readWcr s wg w &&& 0xFFFF7FFF) ++ toLE 4 x.part ++ toLE 4 x.flags.toNat ++
  toLE 4 (maskOf ((List.range 32).filter (fun l => (x.lane l).launched))) ++ toLE 8 live ++ zeros 8 ++
  (List.range 32).flatMap (fun n => toLE 4 (x.getK n).toNat) ++
  (List.range 16).flatMap (fun n => toLE 16 (x.rj n).word) ++
  (List.range 16).flatMap (fun n => toLE 16 (x.s.get Stream.init n).desc.toNat ++ toLE 8 (x.s.get Stream.init n).pos.toNat ++ zeros 8) ++
  chainBytes x.chain ++ zeros 96 ++
  (List.range 32).flatMap (laneRecord x) ++
  (List.range 8).flatMap (fun n => (List.range 32).flatMap (fun l => toLE 8 (x.getH l n).toNat)) ++
  predBytes x ++ zeros 224 ++
  (setBitsOf 64 live).flatMap (fun i => (List.range 32).flatMap (fun l => toLE 4 (x.getV l (x.pos l i)).toNat))

/-- A command record (R317). -/
def cmdBytes (c : Option Cmd) : List Byte :=
  match c with
  | none => zeros 88
  | some c =>
    toLE 12 (((encodeWord c.instr).map (·.toNat)).getD 0) ++ zeros 4 ++ toLE 8 c.num ++ toLE 4 c.a ++ zeros 4 ++
    fitBytes 32 (c.fmt.flatMap (fun x => toLE 4 x.toNat)) ++ toLE 8 c.amr.toNat ++ toLE 8 c.draw ++ toLE 8 c.gid

/-- What the engine holds at a stop: a failed or finished command is gone, and a staged one is then recorded as RUN
(R439). -/
def engHeld (m : Mx) : Option Cmd × Option Cmd × Nat :=
  match m.run with
  | some r => (some r.cmd, m.staged, r.step)
  | none => (m.staged, none, 0)

/-- The engine block (R99, R317). -/
def engBlock (s : State) (wg : Nat) : List Byte :=
  let m := s.mxOf wg
  let e := engOf s wg
  let g := s.getEng e
  let h := engHeld m
  toLE 2 e ++ zeros 6 ++ toLE 8 g.next ++ toLE 8 g.count ++ toLE 2 h.2.2 ++ toLE 1 (b2n h.1.isSome + b2n h.2.1.isSome) ++ zeros 37 ++
  cmdBytes h.1 ++ cmdBytes h.2.1 ++ zeros 16 ++
  (List.range 256).flatMap (fun n => toLE 4 (m.scale n)) ++ (List.range 8).flatMap (fun n => toLE 4 (m.mx.get 0 n).toNat) ++
  zeros 736 ++ (List.range 65536).flatMap (fun n => toLE 4 (m.acc.get 0 n).toNat)

/-- The scratchpad block. -/
def scratchBlock (s : State) (wg : Nat) : List Byte :=
  let n := (s.wgRec wg).scratch
  fitBytes (roundUp n 64) ((List.range n).map (fun i => (s.getWg wg).scratch.get 0 i))

/-- Live unions of the warps of a workgroup. -/
def liveUnions (s : State) (wg : Nat) : List (Nat × Nat) := (s.wgWarps wg).map (fun w => (w, liveUnion s wg w))

/-- The size of an image (R95).  A workgroup that holds its engine context under MXREL has an engine block, and FLAGS[0], as an
owner has: ownership ends when the commands are complete (R300). [DEDUCED; log entry 127] -/
def imageSize (s : State) (wg : Nat) (lives : List (Nat × Nat)) : Nat :=
  256 + 2048 + ((lives.map (fun e => 5120 + 128 * popCount 64 e.2)).foldl (· + ·) 0) + roundUp (s.wgRec wg).scratch 64 +
  (if (s.getWg wg).eng.isSome then 264192 else 0)

/-- The header (R96) with a value of CRC. -/
def imageHeader (s : State) (wg size crc : Nat) : List Byte :=
  let g := s.getWg wg
  let r := s.wgRec wg
  toLE 4 0x43494845 ++ toLE 4 1 ++ toLE 8 size ++ toLE 8 (s.getLaunch g.lslot).lid ++ toLE 4 g.index ++ toLE 4 g.nwarps ++
  toLE 4 (16 * r.stack) ++
  toLE 4 (b2n g.eng.isSome + 2 * b2n r.det + 4 * b2n g.recd.act + 8 * b2n (1 < g.qgsize)) ++
  toLE 4 (s.logical g.core) ++ toLE 4 (g.qgpos + 4 * (g.qgsize - 1)) ++ toLE 8 s.now ++ toLE 4 crc ++ zeros 196

/-- The whole image (R95). -/
def imageBytes (s : State) (wg : Nat) (lives : List (Nat × Nat)) : List Byte :=
  let size := imageSize s wg lives
  let body := wgBlock s wg ++ lives.flatMap (fun e => warpBlock s wg e.1 e.2) ++ scratchBlock s wg ++
    (if (s.getWg wg).eng.isSome then engBlock s wg else [])
  imageHeader s wg size (crc32 (imageHeader s wg size 0 ++ body)) ++ body

/-- The offset of a warp's block. -/
def warpOffset (lives : List (Nat × Nat)) (w : Nat) : Nat :=
  2304 + (((lives.filter (fun e => e.1 < w)).map (fun e => 5120 + 128 * popCount 64 e.2)).foldl (· + ·) 0)

/-- Offsets in an image of the poisoned values it holds (R478). -/
def poisonedOffsets (s : State) (wg : Nat) (lives : List (Nat × Nat)) : List Nat :=
  let scratch := warpOffset lives (s.getWg wg).nwarps
  let eng := scratch + roundUp (s.wgRec wg).scratch 64
  lives.flatMap (fun e =>
    let x := s.getWarp wg e.1
    let o := warpOffset lives e.1
    let rs := setBitsOf 64 e.2
    ((List.range 32).filter (fun n => x.poison.get false (poisonK n))).map (fun n => o + 0x20 + 4 * n) ++
    ((List.range 256).filter (fun n => x.poison.get false (poisonH (n / 32) (n % 32)))).map (fun n => o + 0xB00 + 8 * n) ++
    (List.range rs.length).flatMap (fun j => ((List.range 32).filter (fun l =>
      x.poison.get false (poisonV (x.pos l (rs.getD j 0)) l))).map (fun l => o + 0x1400 + 128 * j + 4 * l))) ++
  ((s.getWg wg).scratchPoison.keys).map (fun n => scratch + 4 * n) ++
  (if (s.getWg wg).eng.isSome then (s.mxOf wg).accPoison.keys.map (fun n => eng + 0x800 + 4 * n) else [])

/-! ### Saving (R61, R62, R94) -/

/-- A failed step of a save. -/
inductive SaveFail where
  | overrun (w l : Nat)
  | walk (reason : Nat)
  deriving DecidableEq, Repr

/-- The reason of the walk that keeps Kettle firmware from a range (R540). -/
def kettleFailure (s : State) (asid va n : Nat) : Nat :=
  (kettleFault s asid va n).getD 1

/-- Write [RB, FP) of a lane to its spill area (R94). -/
def spillRest (s : State) (wg w l : Nat) : Except SaveFail State :=
  let x := s.getWarp wg w
  let y := x.lane l
  let groups := (List.range (y.fp / 16 - y.rb / 16)).map (fun i => y.rb / 16 + i)
  if y.fp ≤ y.rb then .ok s
  else if (s.wgRec wg).spsize / 2048 < y.fp / 16 then .error (.overrun w l)
  else
    groups.foldlM (fun s g =>
      let va := spillVa x l g
      match kettleWrite s (s.wgAsid wg) va ((List.range 16).flatMap (fun j => toLE 4 (x.getV l (16 * g + j)).toNat)) with
      | some s' =>
        .ok (if (List.range 16).any (fun j => x.poison.get false (poisonV (16 * g + j) l)) then
               (match kettlePa s' (s.wgAsid wg) va with | some pa => poisonBlock s' pa | none => s')
             else s')
      | none => .error (.walk (kettleFailure s (s.wgAsid wg) va 64))) s

/-- Step 1 of R94 for every thread. -/
def spillAll (s : State) (wg : Nat) : Except SaveFail State :=
  (s.wgWarps wg).foldlM (fun s w => (List.range 32).foldlM (fun s l => spillRest s wg w l) s) s

/-- A warp after steps 1 and 2 of R94: its spilled windows gone, reservations cleared, the flags of its CHAIN merged
(R259), and reports that no entry can take dropped (R498). -/
def settleWarp (x : Warp) : Warp :=
  { x with
    lanes := x.lanes.map (fun e => (e.1, { e.2 with rb := e.2.fp, resv := none, sinceLR := 0 }))
    flags := match x.chain with | some c => x.flags ||| c.flags | none => x.flags
    reports := x.reports.filter (fun r => !r.engine) }

/-- Records of the reports that a save or a retirement drops (R498). -/
def dropReports (s : State) (wg : Nat) : State :=
  (s.wgWarps wg).foldl (fun s w => ((s.getWarp wg w).reports.filter (·.engine)).foldl (fun s r =>
    writeRecord s (wgErr s wg 9 (r.cause % 256) 1 1)) s) s

/-- The engine of a stopped owner leaves its core: its commands are parked in the engine context (R301, R317). -/
def parkEngine (s : State) (wg : Nat) : State :=
  match (s.getWg wg).eng with
  | none => s
  | some e =>
    let m := s.mxOf wg
    let s := s.modEng e (fun g => { g with parkedRun := m.run, parkedStaged := m.staged, parkedHeld := m.held })
    s.modCore (s.getWg wg).core (fun c => { c with mx := Mx.init })

/-- End a workgroup whose save fails (R460, R540). -/
def saveFailed (s : State) (wg : Nat) : SaveFail → State
  | .overrun w l => endWorkgroup s wg { wgErr s wg 5 7 2 2 with detail := w + l * 256 }
  | .walk r => endWorkgroup s wg (wgErr s wg 6 r 2 2)

/-- Save one workgroup at an address: the image is written, and the workgroup leaves its core. -/
def saveWg (s : State) (wg addr : Nat) (lives : List (Nat × Nat)) : State :=
  let size := imageSize s wg lives
  match kettleWrite s (s.wgAsid wg) addr (imageBytes s wg lives) with
  | none => saveFailed s wg (.walk (kettleFailure s (s.wgAsid wg) addr size))
  | some s' =>
    let s' := (poisonedOffsets s wg lives).foldl (fun s o =>
      match kettlePa s (s.wgAsid wg) (addr + o) with
      | some pa => poisonBlock s pa
      | none => s) s'
    let s' := parkEngine s' wg
    let s' := s'.modCtx (s'.wgCtx wg) (fun x => { x with images := { wg := wg, addr := addr, size := size } :: x.images })
    s'.modWg wg (fun g => { g with phase := .saved addr size })

/-- Prepare a workgroup for its save: the Caddy header (R329), its spills, and what its warps give up. -/
def prepareSave (s : State) (wg : Nat) : Except SaveFail State :=
  match spillAll (flushHeader s wg) wg with
  | .error e => .error e
  | .ok s =>
    let s := dropReports s wg
    let s := (s.wgWarps wg).foldl (fun s w => s.modWarp wg w settleWarp) s
    .ok { s with holdsLR := s.holdsLR.filter (fun h => h.wg ≠ wg) }

/-- The engine of a workgroup has come to its stop: no command of it runs on (R62, R317). -/
def engineStopped (s : State) (wg : Nat) : Bool :=
  match (s.mxOf wg).run with
  | some r => r.cmd.wg ≠ wg || parkedDue ≤ r.stepDue
  | none => true

/-- A unit has come to its stop, and nothing keeps it from being saved. -/
def unitAtRest (s : State) (wg : Nat) : Bool :=
  unitStopped s wg && (unitOf s wg Wg.alive).all (fun k => engineStopped s k && !writebackHeld s (s.getWg k).core (fun _ => true) &&
    !flushWaits s k)

/-- A workgroup made ready to be saved, or ended when it cannot be. -/
def prepareOne (s : State) (k : Nat) : State := match prepareSave s k with | .ok s => s | .error e => saveFailed s k e

/-- The bytes that an image takes. -/
def imageSpace (s : State) (e : Nat × List (Nat × Nat)) : Nat := roundUp (imageSize s e.1 e.2) 256
/-- The workgroups of a list that are there to be saved, with the registers that are live in their warps. -/
def toSave (s : State) (ks : List Nat) : List (Nat × List (Nat × Nat)) :=
  (ks.filter (fun k => (s.getWg k).alive)).map (fun k => (k, liveUnions s k))
/-- The room that images take together. -/
def imagesSpace (s : State) (es : List (Nat × List (Nat × Nat))) : Nat := (es.map (imageSpace s)).foldl (· + ·) 0
/-- Save workgroups one after another from an address on. -/
def saveRun (s : State) (a : Nat) (es : List (Nat × List (Nat × Nat))) : State :=
  (es.foldl (fun (p : State × Nat) e => (saveWg p.1 e.1 p.2 e.2, p.2 + imageSpace s e)) (s, a)).1
/-- A unit, its lines written back, each of its workgroups ready to be saved or ended. -/
def preparedUnit (s : State) (ks : List Nat) : State :=
  ks.foldl prepareOne (ks.foldl (fun s k => writebackAll s (s.getWg k).core) s)
/-- Where runs of images go, one after another (R95, R399). -/
def placeRuns (s : State) (x : Ctx) :
    List ImageRec → List (List (Nat × List (Nat × Nat))) → Option (List (Nat × List (Nat × List (Nat × Nat))))
  | _, [] => some []
  | imgs, es :: rest =>
    match imageRoom x imgs (imagesSpace s es) with
    | none => none
    | some a => (placeRuns s x ({ wg := 0, addr := a, size := imagesSpace s es } :: imgs) rest).map ((a, es) :: ·)
/-- Where the images of a unit go: those of a quad group in one run. -/
def unitRoom (s : State) (wg : Nat) (ks : List Nat) : Option (List (Nat × List (Nat × List (Nat × Nat)))) :=
  let x := s.getCtx (s.wgCtx wg)
  let es := toSave s ks
  placeRuns s x x.images ((imageRuns s (es.map (·.1))).map (fun r => es.filter (fun e => r.contains e.1)))

/-- A unit is to be saved now: there is room for its images. -/
def saveReady (s : State) (wg : Nat) : Bool := unitAtRest s wg && (unitRoom s wg (unitOf s wg Wg.alive)).isSome

/-- The yield records of a unit are carried out (R368). -/
def endYields (s : State) (ks : List Nat) : State :=
  { s with slots := s.slots.map (fun (d : Nat × List Bind) => (d.1, d.2.filter (fun b => !ks.any (yieldNames s b)))) }

/-- WORKGROUP_SAVE (R62, R94): every workgroup of a stopped unit is saved, the images of a quad group in one run; a workgroup that
cannot be saved is ended. -/
def execWorkgroupSave (wg : Nat) (s : State) : Host.Outcome State Fault Refusal :=
  .next (if !saveReady s wg then s
    else
      match unitRoom (preparedUnit s (unitOf s wg Wg.alive)) wg (unitOf s wg Wg.alive) with
      | none => preparedUnit s (unitOf s wg Wg.alive)
      | some rs =>
        endYields (rs.foldl (fun s r => saveRun s r.1 r.2) (preparedUnit s (unitOf s wg Wg.alive))) (unitOf s wg Wg.alive))

/-! ### Checking an image (R100) -/

/-- The live unions that an image states. -/
def livesIn (bs : List Byte) : Nat → Nat → Nat → List (Nat × Nat)
  | 0, _, _ => []
  | n + 1, w, off =>
    let m := leAt bs (off + 0x10) 8
    (w, m) :: livesIn bs n (w + 1) (off + 5120 + 128 * popCount 64 m)

/-- Bytes [off, off + n) are zero. -/
def zeroAt (bs : List Byte) (off n : Nat) : Bool := allZero ((bs.drop off).take n)
/-- Bits of a field are zero. -/
def clearAt (bs : List Byte) (off n lo : Nat) : Bool := leAt bs off n / 2 ^ lo = 0

/-- Reserved fields of the workgroup block are zero (R75, R97, R328). -/
def wgBlockOk (bs : List Byte) (o : Nat) : Bool :=
  (List.range 8).all (fun n => clearAt bs (o + 8 * n) 8 23) &&
  (List.range 8).all (fun n => zeroAt bs (o + 0x40 + 64 * n + 12) 4 && zeroAt bs (o + 0x40 + 64 * n + 40) 24) &&
  zeroAt bs (o + 0x57A) 2 &&
  (List.range 16).all (fun n => bits (leAt bs (o + 0x580 + 8 * n) 8) 11 5 = 0 && clearAt bs (o + 0x580 + 8 * n) 8 27) &&
  (List.range 16).all (fun n => bits (leAt bs (o + 0x240 + 32 * n) 32) 224 3 = 0) &&
  (List.range 8).all (fun n => clearAt bs (o + 0x540 + 4 * n) 4 26 && bits (leAt bs (o + 0x560 + n) 1) 7 1 = 0) &&
  clearAt bs (o + 0x60A) 1 3 && zeroAt bs (o + 0x60B) 1 && zeroAt bs (o + 0x62C) 20 && zeroAt bs (o + 0x640) 448

/-- The barrier that a lane in STATE 2 names is the one at which the warp kept it, and, for a barrier of the workgroup, has
arrivals in the image (R97, R100). -/
def barrierArgOk (x : Warp) (bs : List Byte) (wo l arg : Nat) : Bool :=
  match (x.lane l).hold.map Hold.kind with
  | some (.barrier sco n _) => n = arg && (sco ≠ 3 || bits (leAt bs (wo + 0x580 + 8 * arg) 8) 0 11 ≠ 0)
  | _ => false

/-- STATE, ARG and the reserved fields of a lane record agree with the rest of the image (R99, R100). -/
def laneOk (x : Warp) (bs : List Byte) (wo o l : Nat) : Bool :=
  let r := o + 0x500 + 48 * l
  let st := leAt bs (r + 10) 1
  let arg := leAt bs (r + 11) 1
  let launched := bitB (leAt bs (o + 0xC) 4) l
  let j (n lo : Nat) : Bool := bitB (leAt bs (o + 0xA0 + 16 * n) 16) (lo + l)
  let argOk : Bool :=
    if st = 1 then arg < 16 && j arg 0 && j arg 32
    else if st = 2 then barrierArgOk x bs wo l arg
    else if st = 4 || st = 5 then arg < 8
    else if st = 6 then arg < 8 && bitB (leAt bs (wo + 8 * arg) 8) 22
    else arg = 0
  st ≤ 8 && (st = 8) = !launched && leAt bs (r + 12) 2 = leAt bs (r + 14) 2 && argOk && zeroAt bs (r + 18) 6 && zeroAt bs (r + 40) 8 &&
  (st = 3 || st = 4 || zeroAt bs (r + 32) 8)

/-- A warp block keeps the rules of R100. -/
def warpBlockOk (x : Warp) (bs : List Byte) (wo o : Nat) : Bool :=
  leAt bs o 4 &&& 0xFFC02000 = 0 && !bitB (leAt bs o 4) 15 && clearAt bs (o + 8) 4 5 && zeroAt bs (o + 0x18) 8 &&
  (List.range 16).all (fun n => clearAt bs (o + 0xA0 + 16 * n) 16 82) &&
  (List.range 16).all (fun n => zeroAt bs (o + 0x1A0 + 32 * n + 20) 12 &&
    bits (leAt bs (o + 0x1A0 + 32 * n + 16) 4) 25 4 = 0) &&
  clearAt bs (o + 0x3A0 + 0x48) 1 4 && zeroAt bs (o + 0x3A0 + 0x49) 7 && clearAt bs (o + 0x3A0 + 0x60) 1 5 && zeroAt bs (o + 0x3A0 + 0x61) 159 &&
  zeroAt bs (o + 0x4A0) 96 && (List.range 32).all (fun l => !bitB (leAt bs (o + 0x1300 + l) 1) 0) && zeroAt bs (o + 0x1320) 224 &&
  (List.range 32).all (laneOk x bs wo o)

/-- The engine block keeps the rules of R100. -/
def engBlockOk (bs : List Byte) (o : Nat) : Bool :=
  zeroAt bs (o + 2) 6 && zeroAt bs (o + 0x1B) 37 && zeroAt bs (o + 0xF0) 16 && zeroAt bs (o + 0x520) 736 &&
  [0x40, 0x98].all (fun r => zeroAt bs (o + r + 12) 4 && zeroAt bs (o + r + 0x1C) 4 &&
    (List.range 8).all (fun n => clearAt bs (o + r + 0x20 + 4 * n) 4 26 && bits (leAt bs (o + r + 0x40 + n) 1) 7 1 = 0))

/-- The checks of R100 on the bytes of a workgroup's image. -/
def imageOk (s : State) (wg : Nat) (bs : List Byte) : Bool :=
  let g := s.getWg wg
  let lives := livesIn bs g.nwarps 0 2304
  let scratch := warpOffset lives g.nwarps
  leAt bs 0 4 = 0x43494845 && leAt bs 4 4 = 1 && leAt bs 8 8 = bs.length && imageSize s wg lives = bs.length &&
  leAt bs 0x38 4 = crc32 (bs.take 0x38 ++ zeros 4 ++ bs.drop 0x3C) &&
  clearAt bs 0x24 4 4 && clearAt bs 0x2C 4 4 && zeroAt bs 0x3C 196 &&
  wgBlockOk bs 256 && (List.range g.nwarps).all (fun w => warpBlockOk (s.getWarp wg w) bs 256 (warpOffset lives w)) &&
  zeroAt bs (scratch + (s.wgRec wg).scratch) (roundUp (s.wgRec wg).scratch 64 - (s.wgRec wg).scratch) &&
  (g.eng.isNone || engBlockOk bs (scratch + roundUp (s.wgRec wg).scratch 64))

/-- A block of an image is poisoned, so that its check fails (R478). -/
def imagePoisoned (s : State) (asid addr size : Nat) : Bool :=
  (List.range (size / 64 + 1)).any (fun i =>
    match kettlePa s asid (addr + min (64 * i) (size - 1)) with
    | some pa => blockPoison s pa
    | none => false)

/-- The bytes of a saved workgroup's image, if it passes its check. -/
def checkedImage (s : State) (wg : Nat) : Option (List Byte) :=
  match (s.getWg wg).phase with
  | .saved addr size =>
    match kettleRead s (s.wgAsid wg) addr size with
    | some bs => if imageOk s wg bs && !imagePoisoned s (s.wgAsid wg) addr size then some bs else none
    | none => none
  | _ => none

/-! ### Resuming (R63, R100) -/

/-- `n` entries of a sparse map read from consecutive fields. -/
def sparseFrom {α : Type} [DecidableEq α] (d : α) (n : Nat) (f : Nat → α) : Sparse α :=
  (List.range n).foldl (fun m i => Sparse.set m d i (f i)) []

/-- The record state of an image. -/
def recFrom (bs : List Byte) (o : Nat) : RecState :=
  let flg := leAt bs (o + 10) 1
  { base := leAt bs o 10, act := bitB flg 0, tw := bitB flg 1, rev := bitB flg 2, rcm := BitVec.ofNat 16 (leAt bs (o + 12) 2),
    clr := BitVec.ofNat 16 (leAt bs (o + 14) 2), entcap := leAt bs (o + 16) 4, size := leAt bs (o + 20) 4, nent := leAt bs (o + 24) 4,
    rpos := leAt bs (o + 28) 4, payused := leAt bs (o + 32) 8, stat := BitVec.ofNat 32 (leAt bs (o + 40) 4) }

/-- The workgroup as its image gives it.  Its scratchpad is the one kept, into which commands that ran on while it was
saved have written (R94). [DEDUCED; log entry 80] -/
def wgFrom (g : Wg) (bs : List Byte) : Wg :=
  let o := 256
  let big (off i : Nat) : BitVec 256 := BitVec.ofNat 256 (leAt bs (o + off + 32 * i) 32)
  { g with
    g := (List.range 8).foldl (fun m i =>
      let x := leAt bs (o + 8 * i) 8
      Sparse.put m i { g.sign i with decl := bits x 0 11, sgn := bits x 11 11 }) g.g
    m := sparseFrom 0 16 (big 0x240)
    mr := sparseFrom 0 4 (fun i => ~~~(big 0x440 i))
    mc := sparseFrom 0 4 (fun i => ~~~(big 0x4C0 i))
    fmt := sparseFrom 0 8 (fun i => BitVec.ofNat 32 (leAt bs (o + 0x540 + 4 * i) 4))
    amr := BitVec.ofNat 64 (leAt bs (o + 0x560) 8)
    shash := BitVec.ofNat 64 (leAt bs (o + 0x568) 8)
    bars := (List.range 16).foldl (fun m i =>
      let b := g.bar 3 i
      if (Sparse.find? m (barKey 3 i)).isNone then m
      else Sparse.put m (barKey 3 i) { b with count := bits (leAt bs (o + 0x580 + 8 * i) 8) 0 11 }) g.bars
    recd := recFrom bs (o + 0x600) }

/-- A QPF address as its native translation has it (R406, R407). -/
def swapPc (k : Kernel) (pc : Nat) : Nat := k.nsect + (k.swap.getD ((pc - k.sect) / 16) 0)

/-- A held lane as its image gives it. -/
def holdFrom (h : Option Hold) (st arg : Nat) (pc : Va) (wake : Nat) : Option Hold :=
  let base : Hold := h.getD { kind := .sleep, rpc := pc, wake := 0, need := true, group := 0, stall := 0 }
  let kind : Option HoldKind :=
    match st with
    | 1 => some (.rejoin arg)
    | 2 => (match base.kind with | .barrier sco _ ph => some (.barrier sco arg ph) | _ => none)
    | 3 => some .sleep
    | 4 => some (.hsleep arg)
    | 5 => some (.handle arg)
    | 6 => some (.signed arg)
    | _ => none
  kind.map (fun k => { base with kind := k, rpc := pc, wake := wake, stall := 0 })

/-- One lane of a warp as its image gives it; `pcOf` is the swap of R407. -/
def laneFrom (y : Lane) (bs : List Byte) (o l : Nat) (pcOf : Nat → Nat) : Lane :=
  let r := o + 0x500 + 48 * l
  let st := leAt bs (r + 10) 1
  { y with
    launched := st ≠ 8, exited := st = 7, fp := leAt bs (r + 12) 2, rb := leAt bs (r + 14) 2, depth := leAt bs (r + 16) 2,
    draw := leAt bs (r + 24) 8, resv := none, sinceLR := 0,
    hold := holdFrom y.hold st (leAt bs (r + 11) 1) (BitVec.ofNat 80 (pcOf (leAt bs r 10))) (leAt bs (r + 32) 8) }

/-- The CHAIN of an image continues the one that the warp has. -/
def chainFrom (c : Option Chain) (bs : List Byte) (o : Nat) : Option Chain :=
  if !bitB (leAt bs (o + 0x48) 1) 0 then none
  else c.map (fun c => { c with
    prog := (List.range 8).map (fun i => BitVec.ofNat 64 (leAt bs (o + 8 * i) 8)), n := leAt bs (o + 0x40) 4, done := leAt bs (o + 0x44) 4,
    st := bits (leAt bs (o + 0x48) 1) 1 3, d0 := leAt bs (o + 0x50) 8, g0 := leAt bs (o + 0x58) 8,
    flags := BitVec.ofNat 5 (leAt bs (o + 0x60) 1) })

/-- The operations that a stopped warp still has under way keep no token but a CHAIN's, which counts its own again. -/
def keptPend (x : Warp) (c : Option Chain) : List Writeback :=
  x.pend.map (fun b => if c.map (·.idx) = some b.idx then { b with token := (c.map (·.st)).getD 0 } else { b with token := 0 })

/-- The window registers of an image, at the positions of each lane's window. -/
def windowFrom (x : Warp) (bs : List Byte) (o live : Nat) : Sparse Word :=
  let rs := setBitsOf 64 live
  (List.range rs.length).foldl (fun m j => (List.range 32).foldl (fun m l =>
    Sparse.set m 0 (vKey (x.pos l (rs.getD j 0)) l) (BitVec.ofNat 32 (leAt bs (o + 0x1400 + 128 * j + 4 * l) 4))) m) []

/-- A warp as its image gives it, placed in a slot (R63): its PC table rebuilt, every counter zero, no yield pending.  It
counts as having issued last now. [DESIGN CHOICE; log entry 122] -/
def warpFrom (x : Warp) (bs : List Byte) (o live : Nat) (place : Nat × Nat) (tfbase now : Nat) (pcOf : Nat → Nat) : Warp :=
  let lanes := (List.range 32).foldl (fun (m : Sparse Lane) l => Sparse.put m l (laneFrom (x.lane l) bs o l pcOf)) []
  let chain := chainFrom x.chain bs (o + 0x3A0)
  let running := (List.range 32).filter (fun l => leAt bs (o + 0x500 + 48 * l + 10) 1 = 0)
  let table := running.foldl (fun t l =>
    tableInsert t (Entry.fresh (BitVec.ofNat 80 (pcOf (leAt bs (o + 0x500 + 48 * l) 10))) (laneSet [l]))) []
  let y := { x with
    part4 := place.1, slot := place.2, table := table, aside := [], lanes := lanes
    k := sparseFrom 0 32 (fun n => BitVec.ofNat 32 (leAt bs (o + 0x20 + 4 * n) 4))
    p := (List.range 7).foldl (fun m n => Sparse.set m 0 (n + 1) (laneSet ((List.range 32).filter (fun l =>
      bitB (leAt bs (o + 0x1300 + l) 1) (n + 1))))) []
    h := sparseFrom 0 256 (fun n => BitVec.ofNat 64 (leAt bs (o + 0xB00 + 8 * n) 8))
    poison := []
    j := sparseFrom RjSet.init 16 (fun n =>
      let w := leAt bs (o + 0xA0 + 16 * n) 16
      { mem := BitVec.ofNat 32 w, arr := BitVec.ofNat 32 (w / 2 ^ 32), depth := bits w 64 16, isOpen := bitB w 80, orph := bitB w 81 })
    s := sparseFrom Stream.init 16 (fun n =>
      { desc := BitVec.ofNat 128 (leAt bs (o + 0x1A0 + 32 * n) 16), pos := BitVec.ofNat 64 (leAt bs (o + 0x1A0 + 32 * n + 16) 8) })
    chain := chain, part := leAt bs (o + 4) 4, flags := BitVec.ofNat 5 (leAt bs (o + 8) 4)
    wcr := BitVec.ofNat 32 (leAt bs o 4 &&& 0x1F1FFF)
    tokens := match chain with | some c => if c.st = 0 then [] else [(c.st, 1)] | none => []
    pend := keptPend x chain, modeS := false, tfbase := tfbase, trapLanes := 0, yp := false, lastIssue := now, skip := false, crcFails := 0 }
  -- with flags enabled, no entry issues before the CHAIN has ended (R259, R428) [DEDUCED; log entry 123]
  let y := match chain with
    | some c => if y.xen = 0 then y else { y with table := y.table.map (fun (e : Entry) => { e with owed := [c.idx] }) }
    | none => y
  { y with v := windowFrom y bs o live }

/-- The engine of a core as an image gives it, with the commands that its engine context kept (R63, R317). -/
def mxFrom (wg : Nat) (g : Eng) (bs : List Byte) (o now : Nat) : Mx :=
  { owner := some wg, held := g.parkedHeld
    sc := sparseFrom 0x3F800000 256 (fun n => BitVec.ofNat 32 (leAt bs (o + 0x100 + 4 * n) 4))
    mx := sparseFrom 0 8 (fun n => BitVec.ofNat 32 (leAt bs (o + 0x500 + 4 * n) 4))
    acc := sparseFrom 0 65536 (fun n => BitVec.ofNat 32 (leAt bs (o + 0x800 + 4 * n) 4))
    accPoison := []
    run := g.parkedRun.map (fun r => { r with stepDue := now + stepCycles r.cmd })
    staged := g.parkedStaged, upsets := [] }

/-- Where a workgroup's trap frames lie (R399, R432). -/
def frameArea (s : State) (wg core slot : Nat) : Nat := (s.getCtx (s.wgCtx wg)).poolBase + 2304 * (48 * core + slot)

/-- The swap of R407 is to be made for a workgroup: its kernel is translated and it still runs QPF words. -/
def swaps (s : State) (wg : Nat) : Option Kernel :=
  match s.wgKernel wg with
  | some k => if (s.getWg wg).qpf && k.form = 2 && (s.getWg wg).swapWanted then some k else none
  | none => none

/-- Free a workgroup's image (R399). -/
def freeImage (s : State) (wg : Nat) : State :=
  s.modCtx (s.wgCtx wg) (fun x => { x with images := x.images.filter (fun i => i.wg ≠ wg) })

/-- An engine context keeps no commands of a saved workgroup any more. -/
def Eng.unpark (g : Eng) : Eng := { g with parkedRun := none, parkedStaged := none, parkedHeld := false }

/-- A saved workgroup whose image fails its check ends (R100, R436): its saved commands are not restarted. -/
def imageFailed (s : State) (wg : Nat) : State :=
  let s := match (s.getWg wg).eng with
    | some e => s.modEng e Eng.unpark
    | none => s
  endWorkgroup (freeImage s wg) wg (wgEvent s wg .imageCheck 2 5)

/-- Restore a workgroup on a core from the bytes of its image, its warps in the given slots. -/
def restoreWg (s : State) (wg core : Nat) (bs : List Byte) (places : List (Nat × Nat)) : State :=
  let g := s.getWg wg
  let lives := livesIn bs g.nwarps 0 2304
  let scratch := warpOffset lives g.nwarps
  let n := (s.wgRec wg).scratch
  let k := swaps s wg
  let pcOf (pc : Nat) : Nat := match k with | some k => swapPc k pc | none => pc
  let s := (List.range g.nwarps).foldl (fun s w =>
    let p := places.getD w (0, 0)
    s.modWarp wg w (fun x => warpFrom x bs (warpOffset lives w) ((lives.getD w (0, 0)).2) p (frameArea s wg core p.2) s.now pcOf)) s
  let s := s.setWg wg { wgFrom g bs with core := core, phase := .running, swapWanted := false, swapStop := false,
                                                   qpf := g.qpf && k.isNone }
  let s := match g.eng with
    | some e =>
      let m := mxFrom wg (s.getEng e) bs (scratch + roundUp n 64) s.now
      (s.modCore core (fun c => { c with mx := m })).modEng e Eng.unpark
    | none => s
  releaseHandles (freeImage s wg)

end Sys2Proof.Machine
end

