-- ==== Sys2Proof/Machine/Binds.lean ====
section
/-!
DEFINITION. The dispatch units: carrying out bind records (R368 to R370), the budgets of a pending yield (R60, R462, R468),
and the retirement of a workgroup (R37, R170).
-/

namespace Sys2Proof.Machine

open Sys2Proof

/-! ### The record that stands first for a core -/

/-- The first record of a core. -/
def firstBind (s : State) (core : Nat) : Option Bind := (bindsFor s core).head?

/-- Take a record out of its slot table. -/
def popBind (s : State) (b : Bind) : State :=
  let d := coreDie b.core
  { s with slots := s.slots.put d ((s.slots.get [] d).erase b) }

/-- The records that are carried out together with a create or resume record: those of its quad group (R34, R368). -/
def groupBinds (s : State) (b : Bind) : List Bind :=
  if b.qgn = 0 then [b]
  else
    let q := max 1 (s.getLaunch b.lslot).lr.qgs
    (s.slots.get [] (coreDie b.core)).filter (fun x => x.kind = b.kind && x.lslot = b.lslot && x.wg / q = b.wg / q)

/-! ### Creating a workgroup (R34, R36, R81, R170, R363) -/

/-- The core takes create and resume records. -/
def coreOpen (s : State) (p : Nat) : Bool := inService s p && !(s.getCore p).withdrawn && !scanning s p

/-- The core can give a workgroup its room now, and drop its L1. -/
def coreAdmits (s : State) (b : Bind) : Bool :=
  coreOpen s b.core && ((coreLoad s b.core []).add (s.getLaunch b.lslot).lr).isSome && !writebackHeld s b.core (fun _ => true)

/-- The scratchpad share of a core grows to what its workgroups and a new one need (R137, R138). -/
def shareFor (s : State) (p : Nat) (r : LRec) : State :=
  let need := heldWays s p + ceilDiv r.scratch 32768
  let minc := max (minCacheWays s p) r.minc
  setShare s p (min (16 - minc) (max (s.getCore p).share need))

/-- The first instruction of a launch, and whether it is a QPF word (R36, R396, R407). -/
def entryPoint (k : Kernel) (entry : Nat) : Nat × Bool :=
  if k.form = 0 then (k.sect + entry + 4, false)
  else if k.form = 2 then (k.nsect + k.swap.getD (entry / 16) 0, false)
  else (k.sect + entry, true)

/-- A new warp (R36, R81, R93).  It counts as having issued last when it was created. [DESIGN CHOICE; log entry 122] -/
def newWarp (s : State) (r : LRec) (index core w : Nat) (place : Nat × Nat) (pool pc : Nat) : Warp :=
  let ls := (List.range 32).filter (fun l => 32 * w + l < r.wgsize)
  { Warp.init with
    part4 := place.1, slot := place.2
    table := [Entry.fresh (BitVec.ofNat 80 pc) (laneSet ls)]
    lanes := ls.foldl (fun m l => Sparse.put m l { Lane.init with launched := true, draw := r.ctrb }) []
    k := sparseFrom 0 2 (fun i => BitVec.ofNat 32 (r.args / 2 ^ (32 * i)))
    wcr := BitVec.ofNat 32 (0x100 + b2n r.chk * 2 ^ 12)
    tfbase := pool + 2304 * (48 * core + place.2)
    spbase := r.spbase + (index * r.nwarps + w) * r.spsize
    lastIssue := s.now }

/-- The workgroup of a create record stands on its core, its warps in `places` (R36, R368). -/
def placeWg (s : State) (b : Bind) (k : Kernel) (places : List (Nat × Nat)) : State :=
  let l := s.getLaunch b.lslot
  let r := l.lr
  let e := entryPoint k r.entry
  let key := wgKey b.lslot b.wg
  let pool := (s.getCtx r.ctx).poolBase
  let g : Wg := { Wg.init with
    lslot := b.lslot, index := b.wg, core := b.core, qgpos := b.qgp, qgsize := b.qgn + 1, created := s.nextCreated, qpf := e.2,
    nwarps := r.nwarps, fmt := sparseFrom 0 8 (fun i => k.fmt.getD i 0), amr := k.amr,
    det := { DetState.init with base := if r.det then (sextVa r.wbbase + b.wg * r.wbsize) % 2 ^ 80 else 0 } }
  let s := { s.setWg key g with nextCreated := s.nextCreated + 1 }
  let s := (List.range r.nwarps).foldl (fun s w => s.setWarp key w (newWarp s r b.wg b.core w (places.getD w (0, 0)) pool e.1)) s
  let s := if l.started then s else writeStatus s b.lslot 0x20 (toLE 8 s.now)
  s.modLaunch b.lslot (fun l => { l with started := true, cycS := if l.started then l.cycS else s.now, pending := l.pending - 1 })

/-- Carry out one create record whose core admits it. -/
def createWg (s : State) (b : Bind) : State :=
  let l := s.getLaunch b.lslot
  match l.kernel, (coreLoad s b.core []).add l.lr with
  | some k, some (places, _) => placeWg (shareFor (dropAll s b.core) b.core l.lr) b k places
  | _, _ => s

/-- A create record, with its quad group, can be carried out. -/
def createReady (s : State) (b : Bind) : Bool :=
  let bs := groupBinds s b
  bs.all (fun x => firstBind s x.core = some x && depReady s x.lslot x.wg && coreAdmits s x)

/-- BIND_CREATE (R368). -/
def execBindCreate (core : Nat) (s : State) : Host.Outcome State Fault Refusal :=
  .next (match firstBind s core with
    | some b =>
      if b.kind = 0 && createReady s b then (groupBinds s b).foldl (fun s x => createWg (popBind s x) x) s else s
    | none => s)

/-! ### Resuming a workgroup (R63, R100, R407) -/

/-- A resume record, with its quad group, can be carried out: an engine owner needs the core's engine free (R63). -/
def resumeReady (s : State) (b : Bind) : Bool :=
  (groupBinds s b).all (fun x =>
    firstBind s x.core = some x && coreAdmits s x &&
    ((s.getWg (wgKey x.lslot x.wg)).eng.isNone || (s.getCore x.core).mx.owner.isNone))

/-- Resume one workgroup from the bytes of its image. -/
def resumeWg (s : State) (b : Bind) (bs : List Byte) : State :=
  match (coreLoad s b.core []).add (s.getLaunch b.lslot).lr with
  | some (places, _) =>
    restoreWg (shareFor (dropAll s b.core) b.core (s.getLaunch b.lslot).lr) (wgKey b.lslot b.wg) b.core bs places
  | none => s

/-- BIND_RESUME (R368): when a check fails, the unit is not resumed and the workgroups that failed it are ended (R100). -/
def execBindResume (core : Nat) (s : State) : Host.Outcome State Fault Refusal :=
  .next (match firstBind s core with
    | some b =>
      if b.kind = 1 && resumeReady s b then
        let bs := groupBinds s b
        let key (x : Bind) : Nat := wgKey x.lslot x.wg
        let bad := bs.filter (fun x => (checkedImage s (key x)).isNone)
        let s := bs.foldl popBind s
        if bad ≠ [] then bad.foldl (fun s x => if (s.getWg (key x)).isSaved then imageFailed s (key x) else s) s
        else bs.foldl (fun s x => resumeWg s x ((checkedImage s (key x)).getD [])) s
      else s
    | none => s)

/-! ### Yield, withdraw, return (R59, R62, R368) -/

/-- Every warp of a workgroup is asked to yield (R59). -/
def askYield (s : State) (wg : Nat) : State :=
  match (s.getWg wg).phase with
  | .running =>
    let s := s.modWg wg (fun g => { g with phase := .stopping s.now false })
    (s.wgWarps wg).foldl (fun s w => s.modWarp wg w (fun x => { x with yp := true })) s
  | _ => s

/-- A yield record can be carried out: for a GANG launch, once none of its workgroups waits to be placed (R375). -/
def yieldReady (s : State) (b : Bind) : Bool :=
  !(isGang (s.getLaunch b.lslot).lr && s.slots.any (fun e => e.2.any (fun x => x.kind ≤ 1 && x.lslot = b.lslot)))

/-- The yield record of a workgroup that is there no more: it has no effect. -/
def yieldOver (s : State) (b : Bind) : Bool :=
  let k := wgKey b.lslot b.wg
  !((s.wgs.find? k).isSome && (s.getWg k).alive)
/-- A yield record asks something now; until its unit has been saved it stays, and later records for its core wait (R368). -/
def yieldAsks (s : State) (b : Bind) : Bool :=
  yieldOver s b || (yieldReady s b && (unitOf s (wgKey b.lslot b.wg) Wg.alive).any (fun k => (s.getWg k).phase = .running))

/-- YIELD_REQUEST (R59, R368): it applies to the whole unit; a workgroup that has retired is not affected. -/
def execYieldRequest (core : Nat) (s : State) : Host.Outcome State Fault Refusal :=
  .next (match firstBind s core with
    | some b =>
      if b.kind = 2 && yieldAsks s b then
        if yieldOver s b then popBind s b else (unitOf s (wgKey b.lslot b.wg) Wg.alive).foldl askYield s
      else s
    | none => s)

/-- BIND_WITHDRAW_CORE (R368). -/
def execBindWithdrawCore (core : Nat) (s : State) : Host.Outcome State Fault Refusal :=
  .next (match firstBind s core with
    | some b => if b.kind = 3 then (popBind s b).modCore core (fun c => { c with withdrawn := true }) else s
    | none => s)

/-- BIND_RETURN_CORE (R368). -/
def execBindReturnCore (core : Nat) (s : State) : Host.Outcome State Fault Refusal :=
  .next (match firstBind s core with
    | some b => if b.kind = 4 then (popBind s b).modCore core (fun c => { c with withdrawn := false }) else s
    | none => s)

/-! ### Overdue safe points (R60, R462, R468) -/

/-- The budget of R60. -/
def yieldBudget : Nat := 210000

/-- The workgroups of a unit that have not stopped. -/
def unstopped (s : State) (wg : Nat) : List Nat := (unitOf s wg Wg.alive).filter (fun k => !wgStopped s k)

/-- The entry that a record of an overdue unit names: warp, and the entry with the lowest PC that has not stopped. -/
def overdueEntry (s : State) (wg : Nat) : Option (Nat × Entry) :=
  let ws := (s.wgWarps wg).filter (fun w => !warpStopped s wg w)
  let es := ws.flatMap (fun w => ((s.getWarp wg w).table.map (fun e => (w, e))))
  let run := es.filter (fun e => !e.2.halted (s.getWarp wg e.1))
  (if run = [] then es else run).foldl (fun (a : Option (Nat × Entry)) e =>
    match a with
    | none => some e
    | some x => if e.2.pc.toNat < x.2.pc.toNat then some e else a) none

/-- The record of an overdue safe point (R462). -/
def overdueRecord (s : State) (wg sev : Nat) : ErrRec :=
  let r := wgErr s wg 5 9 sev 2
  match overdueEntry s wg with
  | some (w, e) => { r with addr := e.pc.toNat, detail := w + ((lowestLane e.mask).getD 0) * 256 }
  | none => r

/-- The first budget of a unit has run out. -/
def firstOverdue (s : State) (wg : Nat) : Bool :=
  match (s.getWg wg).phase with
  | .stopping since false => since + yieldBudget ≤ s.now && !unitStopped s wg
  | _ => false
/-- The second budget of a unit has run out. -/
def secondOverdue (s : State) (wg : Nat) : Bool :=
  match (s.getWg wg).phase with
  | .stopping since true => since + 2 * yieldBudget ≤ s.now && !unitStopped s wg
  | _ => false

/-- A swap stop is given up (R468): the workgroup goes on in QPF form. -/
def dropYield (s : State) (wg : Nat) : State :=
  let s := s.modWg wg (fun g => { g with phase := .running, swapWanted := false, swapStop := false })
  (s.wgWarps wg).foldl (fun s w => s.modWarp wg w (fun x =>
    { x with yp := false, table := x.table.map (fun e => { e with stopped := false }) })) s

/-- SAFE_POINT_OVERDUE (R462), or the end of a swap stop (R468). -/
def execSafePointOverdue (wg : Nat) (s : State) : Host.Outcome State Fault Refusal :=
  .next (if !firstOverdue s wg then s
    else
      let u := unitOf s wg Wg.alive
      let k := ((unstopped s wg).head?).getD wg
      if u.any (fun k => (s.getWg k).swapStop) then
        u.foldl dropYield (endYields (writeRecord s { wgErr s k 5 0x0B 1 2 with detail := 2 }) u)
      else
        let s := writeRecord s (overdueRecord s k 1)
        u.foldl (fun s k => s.modWg k (fun g =>
          { g with phase := match g.phase with | .stopping t _ => .stopping t true | p => p })) s)

/-- SAFE_POINT_SECOND_BUDGET (R462): the workgroups of the unit that have not stopped end; the others are saved. -/
def execSafePointSecondBudget (wg : Nat) (s : State) : Host.Outcome State Fault Refusal :=
  .next (if !secondOverdue s wg then s
    else (unstopped s wg).foldl (fun s k => endWorkgroup s k (overdueRecord s k 2)) s)

/-! ### Retirement (R37, R170) -/

/-- Every thread has exited, or the workgroup was ended. -/
def wgOver (s : State) (wg : Nat) : Bool :=
  (s.getWg wg).phase = .ended || ((s.getWg wg).alive && liveThreads s wg = 0)

/-- A workgroup retires now: nothing of it is under way, its deterministic writes are merged, and its core's dirty lines can
be written back. -/
def retireReady (s : State) (wg : Nat) : Bool :=
  let g := s.getWg wg
  wgOver s wg && !wgBusy s wg && !s.atomQ.any (fun q => q.wg = wg) &&
  (s.wgWarps wg).all (fun w => (s.getWarp wg w).pend = [] && (s.getWarp wg w).chain.isNone) &&
  (g.phase = .ended || !s.wgDet wg || g.det.merged) && !writebackHeld s g.core (fun _ => true) && (s.wgDet wg || !flushWaits s wg)

/-- The engine context of a workgroup goes back to the pool, and its engine is free (R37, R301). -/
def freeEngine (s : State) (wg : Nat) : State :=
  let g := s.getWg wg
  let s := match g.eng with
    | some e => s.modEng e (fun x => { x.unpark with owner := none, abase := x.count })
    | none => s
  if (s.getCore g.core).mx.owner = some wg then s.modCore g.core (fun c => { c with mx := Mx.init }) else s

/-- Wide barriers of a launch look again at who takes part. -/
def recheckLaunch (s : State) (lslot : Nat) : State :=
  (s.getLaunch lslot).gbars.foldl (fun (s : State) (e : Nat × GBar) =>
    if e.2.arrived = [] then s else gbarTry s lslot (e.1 / 2 ^ 34 / 16) (e.1 % 2 ^ 34) (e.1 / 2 ^ 34 % 16)) s

/-- The room of a workgroup is free again. -/
def removeWg (s : State) (wg : Nat) : State :=
  let n := (s.getWg wg).nwarps
  { s with
    wgs := s.wgs.del wg, warps := (List.range n).foldl (fun m w => Sparse.del m (warpKey wg w)) s.warps
    holdsLR := s.holdsLR.filter (fun h => h.wg ≠ wg), invals := s.invals.filter (fun v => v.wg ≠ wg)
    cores := s.cores.map (fun c => (c.1, { c.2 with waiters := c.2.waiters.filter (fun x => x.wg ≠ wg) })) }

/-- The record of a workgroup that was ended, once its commands have completed (R360). -/
def writePending (s : State) (wg : Nat) : State :=
  match (s.getWg wg).err with
  | some r => writeRecord (s.modWg wg (fun g => { g with err := none })) r
  | none => s

/-- WORKGROUP_RETIRE (R37, R170). -/
def execWorkgroupRetire (wg : Nat) (s : State) : Host.Outcome State Fault Refusal :=
  .next (if !(s.wgs.find? wg).isSome || !retireReady s wg then s
    else
      let g := s.getWg wg
      let s := writebackAll (writePending s wg) g.core
      let s := dropReports (if s.wgDet wg then s else flushHeader s wg) wg
      let s := removeWg (freeImage (freeEngine s wg) wg) wg
      let s := s.modLaunch g.lslot (fun l =>
        { l with done := l.done.put g.index true, ndone := l.ndone + 1, failed := l.failed + b2n g.failed })
      let l := s.getLaunch g.lslot
      let s := writeStatus s g.lslot 0x10 (toLE 8 l.ndone ++ toLE 8 l.failed)
      recheckLaunch s g.lslot)

end Sys2Proof.Machine
end

