-- ==== Sys2Proof/Machine/Loads.lean ====
section
/-!
DEFINITION. Load requests: containers and their checks (R390 to R397, R400, R401, R408, R409), the supervisor and the save
pool (R398, R399), and the end of a background translation (R406, R407, R467, R468).
-/

namespace Sys2Proof.Machine

open Sys2Proof

/-! ### Containers -/

/-- A record of a container's record table (R391). -/
structure ERec where
  type : Nat
  rev : Nat
  kix : Nat
  off : Nat
  size : Nat
  deriving DecidableEq, Repr

/-- The header of a container (R390). -/
structure EHead where
  nrec : Nat
  reqf : Nat
  dclass : Nat
  rtoff : Nat
  len : Nat
  sigoff : Nat
  siglen : Nat
  keyid : Nat
  deriving DecidableEq, Repr

def parseHead (bs : List Byte) : EHead :=
  { nrec := leAt bs 6 2, reqf := leAt bs 8 8, dclass := leAt bs 0x10 2, rtoff := leAt bs 0x14 4, len := leAt bs 0x18 4,
    sigoff := leAt bs 0x1C 4, siglen := leAt bs 0x20 4, keyid := leAt bs 0x24 4 }

/-- The record at entry `i` of the record table. -/
def recAt (bs : List Byte) (rtoff i : Nat) : ERec :=
  let o := rtoff + 16 * i
  { type := leAt bs o 2, rev := leAt bs (o + 2) 1, kix := leAt bs (o + 3) 1, off := leAt bs (o + 4) 4, size := leAt bs (o + 8) 4 }

def eRecords (bs : List Byte) (h : EHead) : List ERec := (List.range h.nrec).map (recAt bs h.rtoff)

/-- The bytes of a record. -/
def ERec.data (r : ERec) (bs : List Byte) : List Byte := (bs.drop r.off).take r.size

/-- A record meets R391 and R392 by itself. -/
def recordForm (bs : List Byte) (r : ERec) : Bool :=
  let b := r.data bs
  r.off % 64 = 0 && (r.rev = 0 || r.type = 1 || r.type = 2) && (r.kix = 0 || r.type < 7) &&
  (match r.type with
   | 1 => r.size % 64 = 0 && r.size ≤ 2 ^ 28
   | 2 => r.size % 8 = 0 && leAt b 0 8 = 0
   | 3 => r.size % 16 = 0 && r.size ≤ 2 ^ 28
   | 4 => r.size % 16 = 0
   | 5 => r.size = 32 && zeroAt b 3 1 && zeroAt b 0xC 20
   | 6 => r.size = 40
   | 7 => r.size % 4 = 0 && (List.range (r.size / 4)).all (fun i => zeroAt b (4 * i + 2) 2)
   | 8 => true
   | _ => false)

/-- Byte ranges that must not overlap, pairwise: an empty one overlaps nothing. -/
def apart (x y : Nat × Nat) : Bool := x.2 = 0 || y.2 = 0 || x.1 + x.2 ≤ y.1 || y.1 + y.2 ≤ x.1
def allApart : List (Nat × Nat) → Bool
  | [] => true
  | x :: xs => xs.all (apart x) && allApart xs

/-- The number of kernels a record table names. -/
def kernelCount (rs : List ERec) : Nat := (rs.filter (fun r => r.type < 7)).foldl (fun n r => max n (r.kix + 1)) 0

/-- The record of a type and revision that a kernel holds. -/
def recOf (rs : List ERec) (type rev kix : Nat) : Option ERec := rs.find? (fun r => r.type = type && r.rev = rev && r.kix = kix)

/-- A kernel has what R392 asks for. -/
def kernelForm (rs : List ERec) (k : Nat) : Bool :=
  (recOf rs 5 0 k).isSome &&
  (rs.any (fun r => r.type = 1 && r.kix = k) || ((recOf rs 3 0 k).isSome && (recOf rs 4 0 k).isSome))

/-- The container's form: check 0x01 (R390 to R392). -/
def containerForm (bs : List Byte) : Bool :=
  let h := parseHead bs
  let rs := eRecords bs h
  64 ≤ bs.length && leAt bs 0 4 = 0x30584845 && leAt bs 4 2 = 1 && 1 ≤ h.nrec && h.nrec ≤ 4096 && zeroAt bs 0x12 2 &&
  h.rtoff % 16 = 0 && h.len = bs.length && h.sigoff % 64 = 0 && h.sigoff + h.siglen = h.len && zeroAt bs 0x28 24 &&
  h.rtoff + 16 * h.nrec ≤ h.len &&
  rs.all (fun r => r.off + r.size ≤ h.len && recordForm bs r) &&
  (List.range h.nrec).all (fun i => zeroAt bs (h.rtoff + 16 * i + 12) 4) &&
  allApart ((0, 64) :: (h.rtoff, 16 * h.nrec) :: (h.sigoff, h.siglen) :: rs.map (fun r => (r.off, r.size))) &&
  (rs.map (fun r => (r.type, r.rev, r.kix))).Nodup &&
  (List.range (kernelCount rs)).all (kernelForm rs)

/-- The form of a signature that the device accepts (R390): one level of LMS with 10, 15 or 20 levels of tree over LM-OTS with
Winternitz parameter 4 or 8, laid out as RFC 8554 lays it out; an HSS signature is not of this form.
[PRESUMED; log entry 124: the layout and the type codes are the RFC's] -/
def lmsForm (sig : List Byte) : Bool :=
  let be (o : Nat) : Nat := leAt (((sig.drop o).take 4).reverse) 0 4
  [(3, 67), (4, 34)].any (fun ots => [(6, 10), (7, 15), (8, 20)].any (fun lms =>
    let o := 8 + 32 + 32 * ots.2
    be 4 = ots.1 && be o = lms.1 && sig.length = o + 4 + 32 * lms.2 && be 0 < 2 ^ lms.2))

/-- Check 0x02: the signature and key, under fused policy (R390, R524).  A signature that is there is verified, whether
required or not.  [DEDUCED; log entry 97] -/
def signatureOk (bs : List Byte) : Bool :=
  let h := parseHead bs
  let sigReq := bitB (Config.policyByte 8).toNat 0
  let key := (List.range 32).map (fun i => Config.policyByte (0x20 + 32 * h.keyid + i))
  if h.siglen = 0 then !sigReq
  else h.keyid < 4 && lmsForm (bs.drop h.sigoff) && Config.lmsVerify key (bs.take h.sigoff) (bs.drop h.sigoff)

/-- Features offered (R400). -/
def features : Nat := 0x3FF

/-- Check 0x04: a resource declaration is within the limits of the device class (R401). -/
def classOk (dclass : Nat) (b : List Byte) : Bool :=
  let stk := 16 * leAt b 0 1
  let scr := leAt b 4 4
  leAt b 1 1 ≤ 16 && leAt b 2 1 ≤ 16 && leAt b 8 2 ≤ 1024 && leAt b 0xA 2 ≤ 256 &&
  (if dclass = 0 then stk ≤ 128 && scr ≤ 196608 else dclass = 1 && stk ≤ 256 && scr ≤ 491520)

/-- The errata a container declares (R392, R408). -/
def errata (bs : List Byte) (rs : List ERec) : List Nat :=
  match recOf rs 7 0 0 with
  | some r => (List.range (r.size / 4)).map (fun i => leAt (r.data bs) (4 * i) 2)
  | none => []

/-- A record's bytes, if the kernel holds one. -/
def secBytes (bs : List Byte) (rs : List ERec) (type rev kix : Nat) : List Byte :=
  match recOf rs type rev kix with
  | some r => r.data bs
  | none => []

/-- A kernel's format words (R104, R392). -/
def kernelFormats (bs : List Byte) (rs : List ERec) (k : Nat) : List Word × DWord :=
  match recOf rs 6 0 k with
  | some r =>
    let b := r.data bs
    ((List.range 8).map (fun i => BitVec.ofNat 32 (leAt b (4 * i) 4)), BitVec.ofNat 64 (leAt b 32 8))
  | none => ([0x0141FEF1, 0x01403D4B, 0x0141FCF1, 0x02001C69, 0x01403C4B, 0x000003E1, 0x000001E1, 0x000000E1], 0)

/-- The kernel is loaded in native form (R395). -/
def isNative (rs : List ERec) (k : Nat) : Bool := (recOf rs 1 1 k).isSome

/-- Check 0x07 for a kernel. -/
def nativeCheck (bs : List Byte) (rs : List ERec) (k : Nat) : Bool :=
  (!isNative rs k || nativeOk (secBytes bs rs 1 1 k) ((secBytes bs rs 2 1 k).length / 8)) &&
  (kernelFormats bs rs k).1.all (fun w => (Slot.of w.toNat 0).valid)

/-- Check 0x08 for a kernel: of a QPF section that is loaded. -/
def qpfCheck (bs : List Byte) (rs : List ERec) (k : Nat) : Bool :=
  isNative rs k || (recOf rs 3 0 k).isNone ||
  (let q := secBytes bs rs 3 0 k
   let t := secBytes bs rs 4 0 k
   qpfTableOk q.length t && qpfSectionOk (qpfFuncs t) q)

/-! ### Placement in the code area (R396) -/

/-- The two pieces of a kernel: offset-relative sizes in the code area of its section, with the room for a translation, and
of its table. -/
def kernelSizes (bs : List Byte) (rs : List ERec) (k : Nat) : Nat × Nat :=
  if isNative rs k then (roundUp (secBytes bs rs 1 1 k).length 64, roundUp (secBytes bs rs 2 1 k).length 64)
  else (roundUp (5 * (secBytes bs rs 3 0 k).length) 64, roundUp (secBytes bs rs 4 0 k).length 64)

/-- Bytes that the kernels below `k` take in the code area. -/
def kernelOffset (bs : List Byte) (rs : List ERec) (k : Nat) : Nat :=
  (List.range k).foldl (fun n i => n + (kernelSizes bs rs i).1 + (kernelSizes bs rs i).2) 0

/-- NEED (R396). -/
def needBytes (bs : List Byte) (rs : List ERec) : Nat :=
  kernelOffset bs rs (kernelCount rs) + roundUp (secBytes bs rs 8 0 0).length 64

/-- A kernel as it is loaded at `dest`. -/
def loadKernel (bs : List Byte) (rs : List ERec) (dest k : Nat) : Kernel :=
  let o := dest + kernelOffset bs rs k
  let z := kernelSizes bs rs k
  let d := secBytes bs rs 5 0 k
  let fm := kernelFormats bs rs k
  let nat := isNative rs k
  let sec := if nat then secBytes bs rs 1 1 k else secBytes bs rs 3 0 k
  { sect := o, len := sec.length, form := if nat then 0 else 1, nsect := 0, nlen := 0, live := if nat then o + z.1 else 0
    nlive := if nat then (secBytes bs rs 2 1 k).length / 8 else 0
    funcs := if nat then [] else qpfFuncs (secBytes bs rs 4 0 k), backs := if nat then [] else qpfBacks sec, swap := []
    crc := if nat then 0 else crc32 sec, fmt := fm.1, amr := fm.2
    stk := leAt d 0 1, sets := leAt d 1 1, descs := leAt d 2 1, scr := leAt d 4 4 }

/-- The pieces to copy: address and bytes. -/
def loadPieces (bs : List Byte) (rs : List ERec) (dest : Nat) : List (Nat × List Byte) :=
  (List.range (kernelCount rs)).flatMap (fun k =>
    let o := dest + kernelOffset bs rs k
    let z := kernelSizes bs rs k
    if isNative rs k then [(o, secBytes bs rs 1 1 k), (o + z.1, secBytes bs rs 2 1 k)]
    else [(o, secBytes bs rs 3 0 k), (o + z.1, secBytes bs rs 4 0 k)]) ++
  [(dest + kernelOffset bs rs (kernelCount rs), secBytes bs rs 8 0 0)]

/-! ### Requests and results (R393, R396) -/

/-- A request of the load block (R393); its addresses are sign-extended as R262 does. -/
structure LoadReq where
  opc : Nat
  kix : Nat
  caddr : Nat
  clen : Nat
  dest : Nat
  dlen : Nat
  res : Nat
  loadId : Nat
  deriving DecidableEq, Repr

def parseReq (b : List Byte) : LoadReq :=
  { opc := leAt b 0 4, kix := leAt b 4 4, caddr := sextVa (leAt b 8 8), clen := leAt b 0x10 8, dest := sextVa (leAt b 0x18 8),
    dlen := leAt b 0x20 8, res := sextVa (leAt b 0x28 8), loadId := leAt b 0x30 8 }

/-- The request that stands first in a context (R393: one at a time, in order). -/
def headReq (s : State) (ctx : Nat) : Option LoadReq := ((s.getCtx ctx).requests.head?).map parseReq

/-- The request is taken. -/
def popReq (s : State) (ctx : Nat) : State := s.modCtx ctx (fun c => { c with requests := c.requests.tail })

/-- Every page of a range is mapped with a leaf that meets the test. -/
def pagesMeet (s : State) (asid va n : Nat) (p : TlbEntry → Bool) : Bool :=
  (pagesOf va n).all (fun a => match (walk s 0 asid a).1 with
    | .ok e => p e
    | .error _ => false)

/-- The header of a result (R396) without STATE. -/
def resultHead (reason loadId data nkern need : Nat) : List Byte :=
  toLE 4 reason ++ toLE 8 loadId ++ toLE 8 features ++ toLE 8 data ++ toLE 4 nkern ++ toLE 4 need ++ zeros 24

/-- Write a result, STATE last (R396); an address that cannot be written gets nothing. -/
def writeResult (s : State) (asid res st : Nat) (head entries : List Byte) : State :=
  let put (s : State) (a : Nat) (b : List Byte) : State := (kettleWrite s asid a b).getD s
  put (put (put s (res + 64) entries) (res + 4) head) res (toLE 4 st)

/-- The entry of a kernel in a result (R396). -/
def resultEntry (k : Kernel) : List Byte := toLE 8 k.sect ++ toLE 8 k.form ++ toLE 8 k.nsect ++ zeros 8

/-- The reason a load is refused with, 0 for none (R394): the first failing check. -/
def loadReason (s : State) (ctx : Nat) (r : LoadReq) (bs : List Byte) : Nat :=
  let c := s.getCtx ctx
  let h := parseHead bs
  let rs := eRecords bs h
  let ks := List.range (kernelCount rs)
  let need : Bool := errata bs rs ≠ []
  let rw (e : TlbEntry) : Bool := e.rd && e.wr
  if !containerForm bs || bs.length ≠ r.clen then 1
  else if !signatureOk bs then 2
  else if maskDiff 64 h.reqf features ≠ 0 then 3
  else if 1 < h.dclass || !ks.all (fun k => classOk h.dclass (secBytes bs rs 5 0 k)) then 4
  else if !(errata bs rs).all (fun e => e = 1 || e = 2) then 5
  else if c.loads ≠ [] && need != c.compat then 6
  else if !ks.all (nativeCheck bs rs) then 7
  else if !ks.all (qpfCheck bs rs) then 8
  else if r.dlen < needBytes bs rs || r.dest % 65536 ≠ 0 || r.res % 64 ≠ 0 ||
      !pagesMeet s c.asid r.dest r.dlen (fun e => e.x && e.rd) || !pagesMeet s c.asid r.caddr r.clen rw ||
      !pagesMeet s c.asid r.res (64 + 32 * ks.length) rw || !kettleMapped s c.asid r.dest r.dlen ||
      !kettleMapped s c.asid r.res (64 + 32 * ks.length) then 9
  else if !ks.all (fun k => isNative rs k || (recOf rs 3 0 k).isSome) then 10
  else 0

/-- The instruction caches forget a virtual range (R288, R396). -/
def dropCodeRange (s : State) (asid va n : Nat) : State :=
  let frames := (pagesOf va n).filterMap (kettlePa s asid)
  dropCode s (fun a => frames.any (fun f => f / 65536 = a / 65536))

/-- The pieces of an accepted image stored from dest, and what a core keeps of code there dropped (R395). -/
def storePieces (s : State) (asid : Nat) (r : LoadReq) (bs : List Byte) (rs : List ERec) : State :=
  dropCodeRange ((loadPieces bs rs r.dest).foldl (fun s e => (kettleWrite s asid e.1 e.2).getD s) s) asid r.dest r.dlen

/-- A load request whose image bs is accepted (R395, R396): the pieces stored at the destination, the load given its number
and entered in the context's list, and the result written. -/
def acceptLoad (s : State) (ctx : Nat) (r : LoadReq) (bs : List Byte) : State :=
  let asid := (s.getCtx ctx).asid
  let rs := eRecords bs (parseHead bs)
  let nk := kernelCount rs
  let id := s.nextLoad
  let ks := (List.range nk).map (loadKernel bs rs r.dest)
  let s := storePieces s asid r bs rs
  let data := if (secBytes bs rs 8 0 0) = [] then 0 else r.dest + kernelOffset bs rs nk
  let s := { s with nextLoad := id + 1 }
  let s := s.modCtx ctx (fun c => { c with
    compat := if c.loads = [] then errata bs rs ≠ [] else c.compat
    loads := c.loads ++ [{ id := id, kernels := ks, res := r.res, dest := r.dest, dlen := r.dlen }] })
  writeResult s asid r.res 1 (resultHead 0 id data nk (needBytes bs rs)) (ks.flatMap resultEntry)

/-- A load request whose image has a reason to be turned away (R395). -/
def refuseLoad (s : State) (ctx : Nat) (r : LoadReq) (bs : List Byte) (reason : Nat) : State :=
  let rs := eRecords bs (parseHead bs)
  writeResult s (s.getCtx ctx).asid r.res 2
    (if reason = 1 then resultHead 1 0 0 0 0 else resultHead reason 0 0 (kernelCount rs) (needBytes bs rs)) []

/-- Serve a load request (R394 to R396). -/
def serveLoad (s : State) (ctx : Nat) (r : LoadReq) : State :=
  let asid := (s.getCtx ctx).asid
  if r.opc ≠ 1 || 2 ^ 32 ≤ r.clen then writeResult s asid r.res 2 (resultHead 1 0 0 0 0) []
  else
    match kettleRead s asid r.caddr r.clen with
    | none => writeResult s asid r.res 2 (resultHead 9 0 0 0 0) []
    | some bs =>
      if loadReason s ctx r bs = 0 then acceptLoad s ctx r bs else refuseLoad s ctx r bs (loadReason s ctx r bs)

/-- A request is served only when it stands first; OPC values other than 1 to 4 are refused as loads are (R393). -/
def isLoad (r : LoadReq) : Bool := r.opc = 1 || r.opc = 0 || 4 < r.opc

/-- LOAD (R394). -/
def execLoad (ctx : Nat) (s : State) : Host.Outcome State Fault Refusal :=
  .next (match headReq s ctx with
    | some r => if isLoad r then serveLoad (popReq s ctx) ctx r else s
    | none => s)

/-! ### Unloading, the supervisor, the save pool -/

/-- The context has work: a workgroup exists or is saved, or a launch stands in the launch table (R398, R399). -/
def ctxBusy (s : State) (ctx : Nat) : Bool :=
  s.wgs.any (fun e => s.wgCtx e.1 = ctx) || s.launches.any (fun e => e.2.lr.ctx = ctx)

/-- A launch that names one of the sections is queued or in the launch table (R397). -/
def sectionsUsed (s : State) (ctx : Nat) (L : LoadRec) : Bool :=
  let names (a : Nat) : Bool := L.kernels.any (fun k => k.sect = a)
  (s.getCtx ctx).queues.any (fun (e : Nat × List QRec) => e.2.any (fun q => names (parseRec q.bytes).sect)) ||
  s.launches.any (fun e => e.2.lr.ctx = ctx && names e.2.lr.sect)

def loadOf (s : State) (ctx id : Nat) : Option LoadRec := (s.getCtx ctx).loads.find? (fun L => L.id = id)

/-- Serve an unload (R397, R398, R409); a LOADID that names no load is refused too. [DESIGN CHOICE; log entry 96] -/
def serveUnload (s : State) (ctx : Nat) (r : LoadReq) : State :=
  let c := s.getCtx ctx
  let holdsSuper : Bool := c.tvec.isSome && c.superLoad = r.loadId
  match loadOf s ctx r.loadId with
  | some L =>
    if sectionsUsed s ctx L || (holdsSuper && ctxBusy s ctx) then
      writeResult s c.asid r.res 4 (resultHead 0x0B r.loadId 0 0 0) []
    else
      let s := s.modCtx ctx (fun c =>
        let ls := c.loads.filter (fun x => x.id ≠ r.loadId)
        { c with loads := ls, compat := c.compat && ls ≠ []
                 tvec := if holdsSuper then none else c.tvec, tvecLen := if holdsSuper then 0 else c.tvecLen
                 superLoad := if holdsSuper then 0 else c.superLoad })
      writeResult s c.asid r.res 3 (resultHead 0 r.loadId 0 0 0) []
  | none => writeResult s c.asid r.res 4 (resultHead 0x0B r.loadId 0 0 0) []

/-- UNLOAD (R397). -/
def execUnload (ctx : Nat) (s : State) : Host.Outcome State Fault Refusal :=
  .next (match headReq s ctx with
    | some r => if r.opc = 2 then serveUnload (popReq s ctx) ctx r else s
    | none => s)

/-- Serve a request to install the supervisor (R398). -/
def serveSupervisor (s : State) (ctx : Nat) (r : LoadReq) : State :=
  let c := s.getCtx ctx
  match (loadOf s ctx r.loadId).bind (fun L => L.kernels[r.kix]?) with
  | some k =>
    if k.form ≠ 0 then writeResult s c.asid r.res 2 (resultHead 0x0C r.loadId 0 0 0) []
    else if ctxBusy s ctx then writeResult s c.asid r.res 2 (resultHead 0x0E r.loadId 0 0 0) []
    else
      writeResult (s.modCtx ctx (fun c => { c with tvec := some k.sect, tvecLen := k.len, superLoad := r.loadId }))
        c.asid r.res 5 (resultHead 0 r.loadId 0 0 0) []
  | none => writeResult s c.asid r.res 2 (resultHead 0x0C r.loadId 0 0 0) []

/-- INSTALL_SUPERVISOR (R398). -/
def execInstallSupervisor (ctx : Nat) (s : State) : Host.Outcome State Fault Refusal :=
  .next (match headReq s ctx with
    | some r => if r.opc = 3 then serveSupervisor (popReq s ctx) ctx r else s
    | none => s)

/-- Serve a request to set the save pool (R399). -/
def servePool (s : State) (ctx : Nat) (r : LoadReq) : State :=
  let c := s.getCtx ctx
  let fits := r.caddr % 2 ^ 21 = 0 && r.clen % 2 ^ 21 = 0 && 2 ^ 26 ≤ r.clen &&
    pagesMeet s c.asid r.caddr r.clen (fun e => e.priv && e.rd && e.wr && e.mt = 0)
  if !fits then writeResult s c.asid r.res 2 (resultHead 0x0D 0 0 0 0) []
  else if ctxBusy s ctx then writeResult s c.asid r.res 2 (resultHead 0x0E 0 0 0 0) []
  else
    writeResult (s.modCtx ctx (fun c => { c with poolBase := r.caddr, poolLen := r.clen }))
      c.asid r.res 5 (resultHead 0 0 0 0 0) []

/-- SET_SAVE_POOL (R399). -/
def execSetSavePool (ctx : Nat) (s : State) : Host.Outcome State Fault Refusal :=
  .next (match headReq s ctx with
    | some r => if r.opc = 4 then servePool (popReq s ctx) ctx r else s
    | none => s)

/-! ### The end of a translation (R406, R407, R467, R468) -/

/-- Set what is known of a kernel: in its load, and in the launches that run it. -/
def setKernel (s : State) (ctx load kix : Nat) (k : Kernel) : State :=
  let s := s.modCtx ctx (fun c => { c with loads := c.loads.map (fun L =>
    if L.id = load then { L with kernels := L.kernels.set kix k } else L) })
  { s with launches := s.launches.map (fun (e : Nat × Launch) =>
      (e.1, if e.2.loadId = load && e.2.lr.ctx = ctx && (e.2.kernel.map (·.sect)) = some k.sect then { e.2 with kernel := some k } else e.2)) }

/-- The workgroups that still run the kernel's QPF words are to be stopped once (R407). -/
def wantSwaps (s : State) (ctx load sect : Nat) : State :=
  { s with wgs := s.wgs.map (fun (e : Nat × Wg) =>
      let l := s.getLaunch e.2.lslot
      (e.1, if e.2.qpf && l.loadId = load && l.lr.ctx = ctx && (l.kernel.map (·.sect)) = some sect then { e.2 with swapWanted := true }
            else e.2)) }

/-- FORM 3 is written, with a record of class 0x05 (R467, R468). -/
def translationFailed (s : State) (ctx load kix : Nat) (L : LoadRec) (k : Kernel) (reason detail : Nat) : State :=
  let s := (kettleWrite s (s.getCtx ctx).asid (L.res + 64 + 32 * kix + 8) (toLE 1 3)).getD s
  let s := setKernel s ctx load kix { k with form := 3 }
  writeRecord s { cls := 5, reason := reason, sev := 1, unit := 0, ctx := some ctx, addr := k.sect, detail := detail }

/-- The translation of a kernel has come to an end. -/
def translationEnds (s : State) (ctx load kix : Nat) (L : LoadRec) (k : Kernel) (res : QpfResult) : State :=
  let asid := (s.getCtx ctx).asid
  match res with
  | .failed off => if off % 16 = 0 && off < k.len then translationFailed s ctx load kix L k 0x0A off else s
  | .done code swap =>
    if !translationOk k.len code swap then s
    else if (kettleRead s asid k.sect k.len).map crc32 ≠ some k.crc then translationFailed s ctx load kix L k 0x0B 1
    else
      let nsect := k.sect + roundUp k.len 64
      let bs := code ++ swap.flatMap (toLE 4)
      match kettleWrite s asid nsect bs with
      | none => translationFailed s ctx load kix L k 0x0A 0
      | some s =>
        let s := dropCodeRange s asid nsect bs.length
        let entry := L.res + 64 + 32 * kix
        let s := (kettleWrite s asid (entry + 16) (toLE 8 nsect)).getD s
        let s := (kettleWrite s asid (entry + 8) (toLE 1 2)).getD s
        let s := setKernel s ctx load kix { k with form := 2, nsect := nsect, nlen := code.length, swap := swap }
        wantSwaps s ctx load k.sect

/-- QPF_TRANSLATION_COMPLETE (R406): of a kernel whose translation runs; an abandoned one has no effect (R397). -/
def execQpfTranslationComplete (ctx load kix : Nat) (res : QpfResult) (s : State) : Host.Outcome State Fault Refusal :=
  .next (match loadOf s ctx load with
    | some L =>
      match L.kernels[kix]? with
      | some k => if k.form = 1 then translationEnds s ctx load kix L k res else s
      | none => s
    | none => s)

end Sys2Proof.Machine
end

