-- ==== Sys2Proof/Machine/Merge.lean ====
section
/-!
DEFINITION. The merges of deterministic mode (R175 to R177, R485, R486, R540).
-/

namespace Sys2Proof.Machine

open Sys2Proof

/-- The virtual address of a byte that the buffer holds. -/
def DetState.vaOf (d : DetState) (pa : Nat) : Nat := d.vas.get 0 (pa / 32) * 32 + pa % 32

/-- The conflicts that a merge finds (R176): virtual address of the byte, and the other workgroup. -/
def mergeConflicts (l : Launch) (g : Wg) : List (Nat × Nat) :=
  (g.det.writes.filterMap (fun (e : Nat × Byte) => (conflictWith l e.1 g.index true).map (fun j => (g.det.vaOf e.1, j)))) ++
  g.det.reds.flatMap (fun r => (List.range r.size).filterMap (fun i =>
    (conflictWith l (r.pa + i) g.index false).map (fun j => (r.va + i, j))))

/-- The conflict with the lowest address (R485). -/
def lowestConflict (cs : List (Nat × Nat)) : Option (Nat × Nat) :=
  cs.foldl (fun (a : Option (Nat × Nat)) c =>
    match a with
    | none => some c
    | some x => if c.1 < x.1 then some c else a) none

/-- The sectors that a merge changes. -/
def mergeSectors (g : Wg) : List Nat :=
  ((g.det.writes.map (fun (e : Nat × Byte) => e.1 / 32)) ++
   g.det.reds.flatMap (fun (r : DetRed) => (List.range r.size).map (fun i => (r.pa + i) / 32))).dedup

/-- Reductions in the order of R175: those of threads by ascending `%tid`, then those of the engine. -/
def orderedReds (rs : List DetRed) : List DetRed :=
  (rs.filter (fun r => !r.engine)).mergeSort (fun a b => a.tid ≤ b.tid) ++ rs.filter (fun r => r.engine)

/-- Apply a plain write of a merge. -/
def mergeByte (s : State) (lslot index pa : Nat) (b : Byte) : State :=
  l2Write (s.modLaunch lslot (fun l => noteWriter l pa index true)) pa [b]

/-- Apply a reduction of a merge. -/
def mergeRed (s : State) (lslot index : Nat) (r : DetRed) : State :=
  let old := memNat s r.pa r.size
  let v := if r.float then atomF32 r.aop old r.val else (atomInt r.aop (8 * r.size) old r.val 0).getD old
  let s := (List.range r.size).foldl (fun s i => s.modLaunch lslot (fun l => noteWriter l (r.pa + i) index false)) s
  l2Write s r.pa (toLE r.size v)

/-- Merge a workgroup's buffer: its effect, or the record with which its launch fails. -/
def mergeRun (s : State) (wg : Nat) : Except ErrRec State :=
  let g := s.getWg wg
  let l := s.getLaunch g.lslot
  match lowestConflict (mergeConflicts l g) with
  | some (va, j) => .error (conflictRecord s wg va j)
  | none =>
    let secs := mergeSectors g
    match savePres s g.lslot secs, preLost s wg ((secs.filter (fun x => (l.pre.find? x).isNone)).length) with
    | none, _ => .error (preimageRecord s wg)
    | some _, some r => .error (lostRecord s wg r)
    | some s', none =>
      let s' := g.det.writes.foldl (fun (s : State) (e : Nat × Byte) => mergeByte s g.lslot g.index e.1 e.2) s'
      .ok ((orderedReds g.det.reds).foldl (fun s r => mergeRed s g.lslot g.index r) s')

/-- Every lower-numbered workgroup of the launch has merged. -/
def lowerMerged (s : State) (g : Wg) : Bool := (List.range g.index).all (hasMerged s g.lslot)

/-- A workgroup has arrived at the point: at the barrier, or with its last thread gone; its commands are complete (R178). -/
def atPoint (s : State) (wg : Nat) : Bool :=
  let g := s.getWg wg
  (g.det.arrived || (g.alive && liveThreads s wg = 0)) && !wgBusy s wg

/-- The entries of the region table that a workgroup has changed in the interval take effect at its merge, in ascending number; requests
at a gate that changes are let through first. [DESIGN CHOICE; log entry 138] -/
def mergeRegions (s : State) (wg : Nat) : State :=
  let g := s.getWg wg
  let ctx := s.wgCtx wg
  (g.det.regions.foldl (fun (s : State) (e : Nat × Region) =>
      (drainGate s ctx e.1).modCtx ctx (fun x => { x with regions := x.regions.set Region.init e.1 e.2 })) s).modWg wg
    (fun g => { g with det := { g.det with regions := [] } })

/-- A workgroup merges now (R175). -/
def mergeReady (s : State) (wg : Nat) : Bool :=
  let g := s.getWg wg
  (s.wgs.find? wg).isSome && s.wgDet wg && g.phase ≠ .ended && !g.det.merged && !g.det.held && atPoint s wg && lowerMerged s g &&
  !(liveThreads s wg = 0 && flushWaits s wg)

/-- The header of its record, before the last merge of a workgroup (R329, R345, R346): it goes through the buffer. -/
def lastHeader (s : State) (wg : Nat) : EngOut := if liveThreads s wg = 0 then flushOut s wg else { s := s, fin := .done }

/-- DETERMINISTIC_MERGE (R175): a workgroup that writes directly has merged already (R177). -/
def execDeterministicMerge (wg : Nat) (s : State) : Host.Outcome State Fault Refusal :=
  .next (if !mergeReady s wg then s
    else
      let o := lastHeader s wg
      if o.fin = .wait || o.fin = .code 1 then o.s
      else
        let g := o.s.getWg wg
        match (if g.det.direct then .ok o.s else mergeRun o.s wg) with
        | .error r => failLaunch o.s g.lslot r
        | .ok s => recheckLaunch ((mergeRegions s wg).modWg wg (fun g => { g with det := { g.det with merged := true, arrived := true } }))
            g.lslot)

/-- A held workgroup is released now (R177). -/
def bufferReady (s : State) (wg : Nat) : Bool :=
  let g := s.getWg wg
  (s.wgs.find? wg).isSome && g.det.held && lowerMerged s g &&
  s.wgs.all (fun e => e.2.lslot ≠ g.lslot || e.2.index ≤ g.index || e.2.det.held || hasMerged s g.lslot e.2.index || atPoint s e.1)

/-- BUFFER_FULL_RELEASE (R177): it merges, and from then on its writes are applied directly. -/
def execBufferFullRelease (wg : Nat) (s : State) : Host.Outcome State Fault Refusal :=
  .next (if !bufferReady s wg then s
    else
      match mergeRun s wg with
      | .error r => failLaunch s (s.getWg wg).lslot r
      | .ok s => s.modWg wg (fun g => { g with det := { g.det with held := false, direct := true, reds := [], vas := [], used := 0 } }))

end Sys2Proof.Machine
end

