-- ==== Sys2Proof/Machine/Mailbox.lean ====
section
/-!
DEFINITION. The mailbox engine (R171, R380 to R386): accepting, ordering and answering the frames of a session, and what
each request does; the management registers and the host port's addresses (R378, R379).
-/

namespace Sys2Proof

/-! ### The fields of a frame (R380) -/

/-- TYPE (R381, R519, R520), SESS, SEQ, CTX, ADDR. -/
def Frame.ftype (fr : Frame) : Nat := leAt fr.data 3 1
def Frame.sess (fr : Frame) : Nat := leAt fr.data 4 4
def Frame.seq (fr : Frame) : Nat := leAt fr.data 8 4
def Frame.ctx (fr : Frame) : Nat := leAt fr.data 0x13 1 % 64
def Frame.addr (fr : Frame) : Nat := leAt fr.data 0x14 10
/-- LEN, and the payload. -/
def Frame.len (fr : Frame) : Nat := leAt fr.data 0x10 2
def Frame.payload (fr : Frame) : List Byte := (fr.data.drop 32).take fr.len
/-- The CRC-32C over header and payload is right. -/
def Frame.crcOk (fr : Frame) : Bool := leAt fr.data (32 + fr.len) 4 = crc32c (fr.data.take (32 + fr.len))
/-- MAGIC and VER are those of R380, and the length agrees with the datagram.  A frame of another MAGIC or VER is none of the mailbox's,
and is dropped. [DEDUCED; log entry 92] -/
def Frame.formOk (fr : Frame) : Bool := leAt fr.data 0 3 = 0x14845 && fr.data.length = 36 + fr.len
/-- Every field that is zero from the host is zero: ACK, STAT, CTX[7:6], the last two bytes, and ADDR where the type has none. -/
def Frame.zeroOk (fr : Frame) : Bool :=
  leAt fr.data 0xC 4 = 0 && leAt fr.data 0x12 1 = 0 && leAt fr.data 0x13 1 < 64 && leAt fr.data 0x1E 2 = 0 &&
  (fr.addr = 0 || [1, 2, 3, 5].contains fr.ftype)
/-- The bytes of the MAC frame (R378): Ethernet, IPv6 and UDP headers, tags, and the frame check sequence. -/
def Frame.size (fr : Frame) : Nat := 66 + 4 * fr.tags + fr.data.length
/-- The types that a host may send (R381, R519, R520). -/
def Frame.known (fr : Frame) : Bool := [1, 2, 3, 4, 5, 0x24, 0x25, 0x26].contains fr.ftype

end Sys2Proof

namespace Sys2Proof.Machine

open Sys2Proof

/-! ### Frames that the device sends -/

/-- The datagram of a frame that the device sends (R380). -/
def OutFrame.bytes (f : OutFrame) : List Byte :=
  let h := toLE 2 0x4845 ++ toLE 1 1 ++ toLE 1 f.ftype ++ toLE 4 f.sess ++ toLE 4 f.seq ++ toLE 4 f.ack ++
    toLE 2 f.payload.length ++ toLE 1 f.stat ++ toLE 1 f.ctx ++ zeros 12 ++ f.payload
  h ++ toLE 4 (crc32c h)

/-- Queue a frame for the host. -/
def sendFrame (s : State) (f : OutFrame) : State := { s with hostOut := s.hostOut ++ [f] }

/-- Change an open session. -/
def modSession (s : State) (id : Nat) (f : Session → Session) : State :=
  { s with sessions := s.sessions.map (fun x => if x.id = id then f x else x) }
/-- The open session with an identifier. -/
def State.session (s : State) (id : Nat) : Option Session := s.sessions.find? (fun x => x.id = id)

/-- An ACK that carries E (R382). -/
def sendAck (s : State) (x : Session) : State :=
  sendFrame s { src := x.here, peer := x.peer, ftype := 0x10, ctx := x.ctx, sess := x.id, seq := 0, ack := x.e, stat := 0, payload := [] }

/-! ### Accepting a frame (R380, R382, R510, R519) -/

/-- The device takes frames: it runs, and is not in hold (R510) or under self-test (R516). -/
def State.open_ (s : State) : Bool := s.power = .running

/-- PUID (R524). -/
def puid : Nat := ofLE ((List.range 8).map Config.policyByte)

/-- The link-local address (R379): the octets of PUID, the 0x02 bit of the first cleared. -/
def linkLocalAddress : Nat := 0xFE80 * 2 ^ 112 + (if bitB puid 57 then puid - 2 ^ 57 else puid)
/-- The further unicast address: the value that an IPCTL write last put in effect. -/
def furtherAddress (s : State) : Nat := s.nv.ipaddr.foldl (fun x b => x * 256 + b) 0

/-- An address is one that the port answers on. -/
def answersOn (s : State) (dst : Nat) : Bool :=
  (s.linkLocal && dst = linkLocalAddress) || (s.ipctl = 2 && dst = furtherAddress s)

/-- A frame reaches the mailbox engine (R378 to R380): its MAC frame is of a size and tags that the port supports, its packet goes to an
address of the port, without extension headers, to the mailbox's port, and its bytes are a frame. -/
def reaches (s : State) (fr : Frame) : Bool :=
  s.open_ && fr.size ≤ 9216 && fr.tags ≤ 1 && !fr.ext && answersOn s fr.dst && fr.port = 19520 && fr.formOk && fr.crcOk

/-- The open session a frame belongs to, which answers from the address it was sent to; none for a frame that is dropped. -/
def acceptFrame (s : State) (fr : Frame) : Option Session :=
  if reaches s fr then
    match s.session fr.sess with
    | some x => if x.peer = fr.peer then some { x with here := fr.dst } else none
    | none => none
  else none

/-- Sequence numbers are compared modulo 2^32 within a window of 2^31. -/
def seqBehind (e q : Nat) : Nat := (e + 2 ^ 32 - q % 2 ^ 32) % 2 ^ 32

/-- What a request comes to: STAT, the payload of its response, and the state. -/
abbrev Answer := Nat × List Byte × State

/-- One more request of a session has been applied: E, the acknowledgements, and the owner's activity (R382, R521). -/
def countApplied (s : State) (id : Nat) : State :=
  let s := modSession s id (fun x =>
    { x with e := (x.e + 1) % 2 ^ 32, unacked := x.unacked + 1, unackedSince := if x.unacked = 0 then s.now else x.unackedSince })
  match s.session id with
  | none => s
  | some x =>
    let s := if s.owner = some x.slot then { s with ownerSeen := s.now } else s
    if 16 ≤ x.unacked then sendAck (modSession s id (fun x => { x with unacked := 0 })) x else s

/-- The response to an applied request: of type `rtype`, kept for duplicates, or a NAK where there is none and STAT is
nonzero (R383). -/
def respond (s : State) (x : Session) (fr : Frame) (rtype stat : Nat) (payload : List Byte) : State :=
  if rtype = 0 && stat = 0 then s
  else
    let e := ((s.session x.id).map (·.e)).getD ((x.e + 1) % 2 ^ 32)
    let f : OutFrame := { src := x.here, peer := x.peer, ftype := if rtype = 0 then 0x13 else rtype, ctx := x.ctx, sess := x.id
                          seq := fr.seq, ack := e, stat := stat, payload := payload }
    let s := sendFrame s f
    if rtype = 0 then s else modSession s x.id (fun y => { y with held := ((fr.seq, f) :: y.held).take 64 })

/-- A duplicate (R382): the held response of a READ or MGMT among the last 64 requests is sent again, with E as it is now;
an older read has gone stale. -/
def duplicate (s : State) (x : Session) (fr : Frame) (isRead : Bool) : State :=
  if 64 < seqBehind x.e fr.seq then
    if isRead then sendFrame s { src := x.here, peer := x.peer, ftype := 0x13, ctx := x.ctx, sess := x.id, seq := fr.seq, ack := x.e
                                 stat := 7, payload := [] }
    else s
  else
    match x.held.find? (fun h => h.1 = fr.seq) with
    | some h => sendFrame s { h.2 with src := x.here, ack := x.e }
    | none => s

/-- The shape of a request: its TYPE, response type, whether it counts as a read, whether only the owner may send it (R385), and
whether its payload is well formed (R381). -/
structure Shape where
  ftype : Nat
  rtype : Nat
  isRead : Bool
  owned : Bool
  good : Bool

/-- The payload of a response that reports a failure. -/
def failPayload (s : State) (rtype : Nat) : List Byte := if rtype = 0x12 then toLE 4 (Config.openWord s.free) else []

/-- Handle a frame (R382, R383, R385). The checks are made in the order malformed, context, owner; HELD
makes no difference (R517). [DEDUCED; log entries 92, 142] -/
def onFrame (fr : Frame) (q : Shape) (act : Session → State → Answer) (s : State) : State :=
  match acceptFrame s fr with
  | none => s
  | some x =>
    let s := modSession s x.id (fun y => { y with here := x.here })
    if fr.ftype ≠ q.ftype then s
    else if fr.seq = x.e then
      let bad (n : Nat) : Answer := (n, failPayload s q.rtype, { s with free := s.free + 1 })
      let r : Answer :=
        if !fr.zeroOk || !q.good then bad 4
        else if fr.ctx ≠ x.ctx then bad 5
        else if q.owned && s.owner ≠ some x.slot then bad 3
        else act x s
      respond (countApplied r.2.2 x.id) x fr q.rtype r.1 r.2.1
    else if seqBehind x.e fr.seq < 2 ^ 31 then duplicate s x fr q.isRead
    else if x.lastNack = 0 || x.lastNack + 2100 ≤ s.now then
      sendAck (modSession s x.id (fun y => { y with lastNack := s.now })) x
    else s

/-! ### Host accesses to memory (R171, R381, R476) -/

/-- Translate and check one part with the rights of a thread in mode P.  The hub has no walker of its own in the spec: die 0's, with its
walk cache and without a TLB, translates for it. [DESIGN CHOICE; log entry 131] -/
def hostPart (s : State) (asid : Nat) (r : Right) (p : Part) : Option TPart :=
  match (walk s 0 asid p.va).1 with
  | .error _ => none
  | .ok e =>
    match checkLeaf s e p.va r false false with
    | .ok pa => some ⟨p, pa, e.mt⟩
    | .error _ => none

/-- Every part of a range, or none. -/
def hostParts (s : State) (asid va n : Nat) (r : Right) : Option (List TPart) := (lineParts va n).mapM (hostPart s asid r)

/-- Host traffic to a place is held: by the hub link of its die, or on the way to another package (R14, R511). -/
def hubHeld (s : State) (t : TPart) : Bool :=
  if t.mt = 2 then remoteHeld s else !inHub (paLocal t.pa) && s.linkDown (hubLink (paDie t.pa))

/-- A request for a range has to wait: for a link on its way, or, when it writes, for an LR hold (R277). -/
def hostHeld (s : State) (fr : Frame) (n : Nat) (r : Right) : Bool :=
  match acceptFrame s fr with
  | none => false
  | some x =>
    match hostParts s (s.getCtx x.ctx).asid fr.addr n r with
    | some ts => ts.any (fun t => hubHeld s t || (r.wr && s.heldAny t.pa t.part.n))
    | none => false

/-- WRITE of a range (R381): it is refused as a whole, or performed at the owning L2s. -/
def hostWrite (fr : Frame) (x : Session) (s : State) : Answer :=
  let c := s.getCtx x.ctx
  match hostParts s c.asid fr.addr fr.payload.length rightW with
  | none => (1, [], s)
  | some ts =>
    if meetsObject c fr.addr fr.payload.length then (1, [], s)
    else (0, [], ts.foldl (fun s t => l2Write s t.pa ((fr.payload.drop (t.part.va - fr.addr)).take t.part.n)) s)

/-- WRITE (R381): it waits at the unit while a granule of its range is held (R277). -/
def execWrite (fr : Frame) (s : State) : Host.Outcome State Fault Refusal :=
  .next (if hostHeld s fr fr.payload.length rightW then s
    else onFrame fr { ftype := 1, rtype := 0, isRead := false, owned := true, good := 1 ≤ fr.payload.length && fr.payload.length ≤ 8192 }
      (hostWrite fr) s)

/-- The length that a READ asks for. -/
def readLength (fr : Frame) : Nat := leAt fr.payload 0 4

/-- READ of a range (R381): poisoned 64-byte blocks read as zeros, with STAT 0x06 (R383). -/
def hostRead (fr : Frame) (x : Session) (s : State) : Answer :=
  match hostParts s (s.getCtx x.ctx).asid fr.addr (readLength fr) rightR with
  | none => (1, [], s)
  | some ts =>
    let byte (a : Nat) : Byte := if blockPoison s a then 0 else memByte s a
    let bad := ts.any (fun t => (List.range t.part.n).any (fun i => blockPoison s (t.pa + i)))
    (if bad then 6 else 0, ts.flatMap (fun t => (List.range t.part.n).map (fun i => byte (t.pa + i))), s)

/-- READ (R381). -/
def execRead (fr : Frame) (s : State) : Host.Outcome State Fault Refusal :=
  .next (if hostHeld s fr (readLength fr) rightR then s
    else onFrame fr { ftype := 2, rtype := 0x11, isRead := true, owned := false,
                      good := fr.payload.length = 4 && 1 ≤ readLength fr && readLength fr ≤ 8192 } (hostRead fr) s)

/-- A host release (R171): 1 is added to SEQ of the object; on a context's load object, the load block becomes a request
(R393). -/
def hostRelease (fr : Frame) (x : Session) (s : State) : Answer :=
  let c := s.getCtx x.ctx
  if fr.addr % 64 ≠ 0 then (1, [], s)
  else
    match hostParts s c.asid fr.addr 8 rightW with
    | some [t] =>
      if blockPoison s t.pa then (6, [], s)
      else
        let s := l2Write s t.pa (toLE 8 (memNat s t.pa 8 + 1))
        if fr.addr = c.loadObj then
          match kettleRead s c.asid c.loadBlock 64 with
          | some bs => (0, [], s.modCtx x.ctx (fun c => { c with requests := c.requests ++ [bs] }))
          | none => (0, [], s)
        else (0, [], s)
    | _ => (1, [], s)

/-- RELEASE (R171). -/
def execRelease (fr : Frame) (s : State) : Host.Outcome State Fault Refusal :=
  .next (if hostHeld s fr 8 rightW then s
    else onFrame fr { ftype := 3, rtype := 0, isRead := false, owned := true, good := fr.payload = [] } (hostRelease fr) s)

/-- LAUNCH from the host (R364, R365): the record joins the host queue of 256. -/
def hostLaunch (fr : Frame) (x : Session) (s : State) : Answer :=
  match enqueueLaunch s x.ctx 0 256 fr.payload true true 0 with
  | some (_, s) => (0, [], s)
  | none => (2, [], s)

/-- LAUNCH_FRAME (R381). -/
def execLaunchFrame (fr : Frame) (s : State) : Host.Outcome State Fault Refusal :=
  .next (onFrame fr { ftype := 4, rtype := 0, isRead := false, owned := true, good := fr.payload.length = 256 } (hostLaunch fr) s)

/-- MALFORMED_FRAME (R380, R383): dropped, or, with an unknown TYPE or a nonzero reserved field, its SEQ is consumed and answered with
STAT 0x04. -/
def execMalformedFrame (fr : Frame) (s : State) : Host.Outcome State Fault Refusal :=
  .next (if fr.known && fr.zeroOk then s
    else onFrame fr { ftype := fr.ftype, rtype := 0, isRead := false, owned := false, good := false } (fun _ s => (4, [], s)) s)

/-- MAILBOX_ACK_TIMER (R382): 2 µs after an applied frame that is not acknowledged. -/
def ackDue (s : State) (x : Session) : Bool := x.unacked ≠ 0 && x.unackedSince + 4200 ≤ s.now
def execMailboxAckTimer (sess : Nat) (s : State) : Host.Outcome State Fault Refusal :=
  .next (match s.session sess with
    | some x => if ackDue s x then sendAck (modSession s sess (fun y => { y with unacked := 0 })) x else s
    | none => s)

/-! ### Management registers (R386) -/

/-- FCLK in MHz at a supply level (R507). -/
def clockOf (level : Nat) : Nat := if level = 0 then 2100 else if level = 1 then 1800 else 1400

/-- A UALink port is trained (R511, R512). -/
def portTrained (s : State) (p : Nat) : Bool :=
  match s.links.find? (16 + p) with
  | some l => !l.retraining && l.lanes ≠ 0
  | none => true

/-- The offset of a GROUP word: group and word. -/
def groupWord (off : Nat) : Option (Nat × Nat) :=
  if 0x10000 ≤ off && off < 0x10000 + 8192 * 256 && off % 4 = 0 then
    let w := (off - 0x10000) % 8192 / 4
    if w ≤ 1024 then some ((off - 0x10000) / 8192, w) else none
  else none

/-- IPADDR word i: octet 4i in [31:24]. -/
def ipWord (ip : List Nat) (i : Nat) : Nat :=
  (List.range 4).foldl (fun x j => x * 256 + ip.getD (4 * i + j) 0) 0

/-- The value of a management register; none for an offset that is not listed (R386). -/
def mgmtReg (s : State) (off : Nat) : Option Nat :=
  if off = 0 then some s.ncore
  else if off = 4 then some (clockOf s.level)
  else if off = 8 then some 0x1B0
  else if off = 0xC then some s.pkgidNew
  else if off = 0x10 then some s.podid
  else if off = 0x14 then some (maskOf ((List.range 16).filter (portTrained s)))
  else if off = 0x18 then some (b2n (s.hostLanes = 4))
  else if 0x20 ≤ off && off < 0x30 && off % 4 = 0 then some (ipWord s.ipaddr ((off - 0x20) / 4))
  else if off = 0x30 then some s.ipctl
  else (groupWord off).map (fun g => (s.groups.get Group.init g.1).words.get 0 g.2)

/-- A MGMT read. -/
def mgmtReadAct (fr : Frame) (s : State) : Answer :=
  match mgmtReg s fr.addr with
  | some v => (0, toLE 4 v, s)
  | none => (4, failPayload s 0x12, { s with free := s.free + 1 })

/-- The shape of a MGMT read: the word 0; of a write: a word and the value (R381). [DEDUCED; log entry 93] -/
def mgmtReadShape (fr : Frame) : Shape :=
  { ftype := 5, rtype := 0x12, isRead := true, owned := false, good := fr.payload.length = 4 && leAt fr.payload 0 4 = 0 }
def mgmtWriteShape (fr : Frame) : Shape := { ftype := 5, rtype := 0x12, isRead := false, owned := true, good := fr.payload.length = 8 }
/-- The value that a MGMT write carries. -/
def mgmtValue (fr : Frame) : Nat := leAt fr.payload 4 4

/-- MGMT_READ (R386). -/
def execMgmtRead (fr : Frame) (s : State) : Host.Outcome State Fault Refusal :=
  .next (onFrame fr (mgmtReadShape fr) (fun _ s => mgmtReadAct fr s) s)

/-- The answer to a MGMT write: the spec does not say what the four bytes hold. -/
def mgmtDone (s : State) : Answer := (0, toLE 4 (Config.openWord s.free), { s with free := s.free + 1 })

/-- A context exists. -/
def anyContext (s : State) : Bool := s.ctxs.any (fun e => e.2.exists_)

/-- IPADDR is put in effect (R379): kept, and under duplicate address detection for at most 2 s; an all-zero address means
none. -/
def startAddress (s : State) : State :=
  let s := { s with nv := { s.nv with ipaddr := s.ipaddr, ipSet := true } }
  if s.ipaddr.all (· = 0) then { s with ipctl := 0, dadEnd := 0 } else { s with ipctl := 1, dadEnd := s.now + 4200000000 }

/-- A GROUP word is written (R321): K of the group returns to 0, and every collective on it that is incomplete here ends with CODE
0x07. -/
def writeGroup (g w v : Nat) (s : State) : State :=
  let x := s.groups.get Group.init g
  let s := { s with groups := s.groups.put g { words := x.words.set 0 w (if w = 0 then v % 2048 else v % 1024), k := 0 } }
  (openColls s g).foldl (fun s c => endColl s c.1 c.2 7) s

/-- What a write of value v to the management register at an offset does (R379, R386); none for an offset that is not listed.  A
read-only register ignores the write (R7), and PODID does while a context exists. -/
def mgmtEffect (s : State) (off v : Nat) : Option State :=
  if off = 0xC then some { s with pkgidNew := v % 1024 }
  else if off = 0x10 then some (if anyContext s then s else { s with podid := v % 65536, nv := { s.nv with podid := v % 65536 } })
  else if 0x20 ≤ off && off < 0x30 && off % 4 = 0 then
    some { s with ipaddr := (List.range 16).map (fun i =>
      if i / 4 = (off - 0x20) / 4 then bits v (24 - 8 * (i % 4)) 8 else s.ipaddr.getD i 0) }
  else if off = 0x30 then some (if bitB v 0 then startAddress s else s)
  else
    match groupWord off with
    | some (g, w) => some (writeGroup g w v s)
    | none => (mgmtReg s off).map (fun _ => s)

/-- A MGMT write: ADDR names the register (R386). -/
def mgmtWriteAct (fr : Frame) (s : State) : Answer :=
  match mgmtEffect s fr.addr (mgmtValue fr) with
  | some s => mgmtDone s
  | none => (4, failPayload s 0x12, { s with free := s.free + 1 })

/-- MGMT_WRITE (R386). -/
def execMgmtWrite (fr : Frame) (s : State) : Host.Outcome State Fault Refusal :=
  .next (onFrame fr (mgmtWriteShape fr) (fun _ s => mgmtWriteAct fr s) s)
/-- MGMT_WRITE_PKGID (R386). -/
def execMgmtWritePkgid (fr : Frame) (s : State) : Host.Outcome State Fault Refusal :=
  .next (onFrame fr (mgmtWriteShape fr) (fun _ s => mgmtWriteAct fr s) s)
/-- MGMT_WRITE_PODID (R386). -/
def execMgmtWritePodid (fr : Frame) (s : State) : Host.Outcome State Fault Refusal :=
  .next (onFrame fr (mgmtWriteShape fr) (fun _ s => mgmtWriteAct fr s) s)
/-- MGMT_WRITE_IPCTL (R379). -/
def execMgmtWriteIpctl (fr : Frame) (s : State) : Host.Outcome State Fault Refusal :=
  .next (onFrame fr (mgmtWriteShape fr) (fun _ s => mgmtWriteAct fr s) s)
/-- MGMT_WRITE_GROUP (R321). -/
def execMgmtWriteGroup (fr : Frame) (s : State) : Host.Outcome State Fault Refusal :=
  .next (onFrame fr (mgmtWriteShape fr) (fun _ s => mgmtWriteAct fr s) s)

/-! ### The host port (R378, R379) -/

/-- IPADDR_DAD_COMPLETE (R379). -/
def execIpaddrDadComplete (dup : Bool) (s : State) : Host.Outcome State Fault Refusal :=
  .next (if s.ipctl ≠ 1 then s
    else if dup then writeRecord { s with ipctl := 3, dadEnd := 0 } (hubEvent .duplicateAddress 0 6)
    else { s with ipctl := 2, dadEnd := 0 })

/-- HOST_LINK_UP (R378, R379): the port trains, and its link-local address is present once it has passed duplicate address detection. -/
def execHostLinkUp (up : LinkUp) (s : State) : Host.Outcome State Fault Refusal :=
  .next { s with hostLanes := if 8 ≤ up.lanes then 8 else 4, linkLocal := !up.dup }

/-- An answer to a packet that is not a mailbox frame: the type is the protocol, and the payload the address that answers.
[DESIGN CHOICE; log entry 94: the form of the answer is the standards', not the spec's] -/
def sendPacket (s : State) (peer : Nat) (pk : Packet) (kind : Nat) : State :=
  if s.open_ && answersOn s pk.dst && !pk.ext && pk.size ≤ 9216 then
    sendFrame s { src := pk.dst, peer := peer, ftype := kind, ctx := 0, sess := 0, seq := 0, ack := 0, stat := 0
                  payload := toLE 16 pk.dst }
  else s

/-- NEIGHBOUR_DISCOVERY (R379). -/
def execNeighbourDiscovery (peer : Nat) (pk : Packet) (s : State) : Host.Outcome State Fault Refusal :=
  .next (sendPacket s peer pk 0x100)
/-- ICMPV6_ECHO (R379). -/
def execIcmpv6Echo (peer : Nat) (pk : Packet) (s : State) : Host.Outcome State Fault Refusal :=
  .next (sendPacket s peer pk 0x101)

end Sys2Proof.Machine
end

