-- ==== Sys2Proof/Machine/Sessions.lean ====
section
/-!
DEFINITION. Opening and closing sessions, creating and ending contexts, and ownership (R92, R301, R364, R393, R425, R435, R519
to R521, R523, R525, R526).
-/

namespace Sys2Proof.Machine

open Sys2Proof

/-! ### Creating a context -/

/-- The n-th frame of memory that Kettle firmware takes: 64 KiB of this package's HBM. -/
def kettleFrame (s : State) (n : Nat) : Nat := s.pkgid * 2 ^ 42 + Config.kettlePage n % 6291456 * 65536

/-- A leaf of PT1 for a 64 KiB page of mode P (R147): readable, and writable where asked. -/
def pageEntry (pa : Nat) (wr : Bool) : Nat := pa + 7 + b2n wr * 8

/-- A frame cleared. -/
def clearFrame (s : State) (pa : Nat) : State := l2Write s pa (zeros 65536)

/-- The next n frames of Kettle firmware are taken. -/
def State.takeFrames (s : State) (n : Nat) : State := { s with kettle := s.kettle + n }

/-- Clear the nine frames of fr, and map the last three in the virtual 2 MiB page v through the first six as tables. -/
def mapPages (s : State) (v : Nat) (fr : Nat → Nat) : State :=
  let s := (List.range 9).foldl (fun s i => clearFrame s (fr i)) s
  ((List.range 6).zip ptLevels).foldl (fun s e =>
    let slot := fr e.1 + 8 * bits v e.2.1 e.2.2.1
    if e.2.2.2 = 1 then
      (List.range 3).foldl (fun s j => l2Write s (slot + 8 * j) (toLE 8 (pageEntry (fr (6 + j)) (j = 0)))) s
    else l2Write s slot (toLE 8 (fr (e.1 + 1) + 1))) s

/-- Take six tables and three pages, and map the pages at a virtual 2 MiB page: the load block and object (R393), and the
error ring (R435). -/
def mapBlocks (s : State) (v : Nat) : Nat × State :=
  let fr (i : Nat) : Nat := kettleFrame s (s.kettle + i)
  (fr 0, (mapPages s v fr).takeFrames 9)

/-- A context takes the first n free engine instances of a kind (R301); where none is free, fewer. -/
def takeEngs (s : State) (ctx n kind : Nat) : State :=
  (List.range n).foldl (fun s _ => ((takeEng s ctx kind).map (·.2)).getD s) s

/-- Create a context (R92, R301, R364, R393, R435): its tables and blocks, its engine contexts, its empty queues. -/
def createContext (s : State) (ctx : Nat) : State :=
  let v := Config.kettleVirtual s.kettle % 2 ^ 59 * 2 ^ 21
  let asid := Config.asidBits s.kettle % 1024 * 64 + ctx
  let m := mapBlocks s v
  let s := m.2.setCtx ctx { Ctx.init with
    exists_ := true, asid := asid, pt6 := m.1, loadBlock := v, loadObj := v + 64, errRing := v + 65536, podid := s.podid }
  takeEngs (takeEngs (takeEngs s ctx 8 0) ctx 4 1) ctx 2 2

/-! ### Ending a context (R425) -/

/-- Every command of an engine context counts as cancelled and complete. -/
def drainEng (g : Eng) : Eng :=
  { g with owner := none, count := g.next - 1, abase := g.next - 1, early := [], queue := [], proms := [], snap := []
           parkedRun := none, parkedStaged := none }

/-- End a context: its launches end with STATE 3, and its workgroups, commands, requests and translations go. -/
def endContext (s : State) (ctx : Nat) : State :=
  let ls := (s.launches.filter (fun e => e.2.lr.ctx = ctx)).map (·.1)
  let s := ls.foldl (fun s l => writeStatus (writeStatus s l 0x28 (toLE 8 s.now)) l 0 (toLE 4 3)) s
  let ks := (s.wgs.filter (fun e => ls.contains e.2.lslot)).map (·.1)
  let asid := (s.getCtx ctx).asid
  let v : Inval := { wg := 0, warp := 0, idx := 0, asid := asid, lo := 0, hi := 2 ^ 80, frames := [] }
  let s := ks.foldl (fun s k =>
    let core := (s.getWg k).core
    if (s.getCore core).mx.owner = some k then s.modCore core (fun c => { c with mx := Mx.init }) else s) s
  let s := ks.foldl (fun s k => writebackAll (writePending s k) (s.getWg k).core) s
  let s := ks.foldl removeWg s
  let s := forgetCode (removeTranslations s v) (fun _ l => l.1 / 2 ^ 75 = asid)
  let s := { s with
    slots := s.slots.map (fun (d : Nat × List Bind) => (d.1, d.2.filter (fun b => !(ls.contains b.lslot && b.kind ≤ 2))))
    atomQ := s.atomQ.filter (fun q => q.ctx ≠ ctx && !ks.contains q.wg)
    walks := s.walks.filter (fun w => w.asid ≠ asid)
    invals := s.invals.filter (fun i => i.asid ≠ asid || !ks.contains i.wg)
    engs := s.engs.map (fun (e : Nat × Eng) => (e.1, if e.2.owner = some ctx then drainEng e.2 else e.2))
    lids := s.lids.map (fun (e : Nat × Nat × Nat) => (e.1, e.2.1, if e.2.1 = ctx && e.2.2 < 2 then 3 else e.2.2))
    launches := ls.foldl (fun m l => Sparse.del m l) s.launches
    ctxs := s.ctxs.del ctx }
  { s with cur := match s.cur with | some c => if ks.contains c.wg then none else some c | none => none }

/-! ### HELLO and PROVE (R519, R523) -/

/-- HELLO's fields: slot, context, create, nonce, key. -/
def helloSlot (fr : Frame) : Nat := leAt fr.payload 0 1
def helloCtx (fr : Frame) : Nat := leAt fr.payload 1 1
def helloCreate (fr : Frame) : Bool := bitB (leAt fr.payload 2 1) 0
def helloNonce (fr : Frame) : List Byte := (fr.payload.drop 32).take 32
def helloKey (fr : Frame) : List Byte := fr.payload.drop 64
/-- Its reserved fields are zero and its codes in range. -/
def helloOk (fr : Frame) : Bool :=
  fr.zeroOk && 64 ≤ fr.payload.length && helloSlot fr ≤ 7 && helloCtx fr ≤ 63 && leAt fr.payload 2 1 ≤ 1 && zeroAt fr.payload 3 29

/-- A range of POLICY (R524). -/
def policy (off n : Nat) : List Byte := (List.range n).map (fun i => Config.policyByte (off + i))
/-- The hash of a host-key slot, the rank of a slot. -/
def slotHash (slot : Nat) : List Byte := policy (0xA0 + 32 * slot) 32
def slotRank (slot : Nat) : Nat := (Config.policyByte (0x1A0 + slot)).toNat % 8

/-- A frame of session 0 that answers a request (R519). -/
def answer0 (s : State) (fr : Frame) (ftype stat : Nat) (payload : List Byte) : State :=
  sendFrame s { src := fr.dst, peer := fr.peer, ftype := ftype, ctx := fr.ctx, sess := 0, seq := fr.seq, ack := 0, stat := stat
                payload := payload }

/-- The message that an attestation signature covers (R523). -/
def attested (s : State) (hostNonce devNonce : List Byte) : List Byte :=
  Config.sha256 (hostNonce ++ devNonce ++ s.meas ++ policy 0 8 ++ toLE 8 s.epoch ++ toLE 4 s.ncore)

/-- The attestation key advances its one-time index; after 2^20 signatures it is gone (R523). -/
def nextIndex (s : State) : State :=
  let i := s.nv.attIndex + 1
  { s with nv := { s.nv with attIndex := i, attKey := s.nv.attKey && i < 2 ^ 20 } }

/-- A frame of a type, of session 0, is taken. -/
def taken0 (s : State) (fr : Frame) (ftype : Nat) : Bool := reaches s fr && fr.sess = 0 && fr.ftype = ftype

/-- HELLO (R519): CHALLENGE, with the attestation signature, or a refusal. -/
def execHello (fr : Frame) (s : State) : Host.Outcome State Fault Refusal :=
  .next (if !taken0 s fr 0x20 then s
    else if !helloOk fr then answer0 s fr 0x21 4 []
    else if !s.nv.attKey then answer0 s fr 0x21 8 []
    else if allZero (slotHash (helloSlot fr)) || Config.sha256 (helloKey fr) ≠ slotHash (helloSlot fr) then answer0 s fr 0x21 9 []
    else
      let n := Config.deviceNonce s.nonces
      let i := s.nv.attIndex
      let s := nextIndex s
      let h : Handshake := { peer := fr.peer, slot := helloSlot fr, ctx := helloCtx fr, create := helloCreate fr,
                             hostNonce := helloNonce fr, devNonce := n, key := helloKey fr, since := s.now }
      let s := { s with nonces := s.nonces + 1, handshakes := h :: s.handshakes.filter (fun x => x.peer ≠ fr.peer) }
      answer0 s fr 0x21 0 (n ++ Config.lmsSign i (attested s h.hostNonce n)))

/-- The message that PROVE signs. -/
def proveMsg (h : Handshake) : List Byte :=
  Config.sha256 (h.devNonce ++ h.hostNonce ++ [BitVec.ofNat 8 h.slot, BitVec.ofNat 8 h.ctx])

/-- The payload of OPENED. -/
def openedPayload (s : State) (id ctx : Nat) (owner : Bool) : List Byte :=
  let c := s.getCtx ctx
  toLE 4 id ++ toLE 2 c.asid ++ toLE 1 (b2n owner) ++ zeros 1 ++ toLE 10 c.loadBlock ++ toLE 10 c.loadObj ++ toLE 10 c.errRing

/-- Open a session for a handshake whose proof holds (R519, R521). -/
def openSession (s : State) (fr : Frame) (h : Handshake) : State :=
  if 16 ≤ s.sessions.length then answer0 s fr 0x23 0xA []
  else if !(s.getCtx h.ctx).exists_ && !(h.create && (s.owner.isNone || s.owner = some h.slot)) then answer0 s fr 0x23 0xB []
  else
    let s := if (s.getCtx h.ctx).exists_ then s else createContext s h.ctx
    let x : Session := { id := s.nextSess, slot := h.slot, ctx := h.ctx, peer := fr.peer, here := fr.dst, e := 1, unacked := 0
                         unackedSince := 0, lastNack := 0, held := [] }
    let s := { s with sessions := s.sessions ++ [x], nextSess := s.nextSess + 1 }
    let s := if s.electionOpen then s else { s with electionOpen := true, electionEnd := s.now + 2100000000 }
    answer0 s fr 0x23 0 (openedPayload s x.id h.ctx (s.owner = some h.slot))

/-! ### Alarms (R525, R526) -/

/-- The memory of this package reads as zero. -/
def wipeMemory (s : State) : State :=
  { s with mem := s.mem.filter (fun c => !(paPkg c.1 = s.pkgid && inHBM (paLocal c.1))),
           memPoison := s.memPoison.filter (fun c => !(paPkg (c.1 * 64) = s.pkgid && inHBM (paLocal (c.1 * 64))))
           cores := s.cores.map (fun (c : Nat × Core) => (c.1, { c.2 with l1 := [], l1tag := [], icache := [] })) }

/-- Write a record to the package log, and to the non-volatile store whatever its severity. -/
def keepRecord (s : State) (r : ErrRec) : State :=
  let bs := r.bytes s.now s.plogCount
  let s := writePlog s r
  if 3 ≤ r.sev then s else { s with nv := { s.nv with plog := (s.nv.plog ++ [bs]).drop ((s.nv.plog.length + 1) - 256) } }

/-- Ownership changes, with its record, which names the old and the new slot (R521). -/
def setOwner (s : State) (o : Option Nat) : State :=
  if s.owner = o then s
  else
    let name (o : Option Nat) : Nat := o.getD 8
    let r : ErrRec := { hubEvent .ownership 0 7 with detail := Config.openDetail (MachineEvent.ownership.ctorIdx) (name s.owner) (name o) }
    writeRecord { s with owner := o, ownerSeen := s.now } r

/-- Every context ends and every session closes. -/
def endAll (s : State) : State :=
  let s := ((s.ctxs.filter (fun e => e.2.exists_)).map (·.1)).foldl endContext s
  setOwner { s with sessions := [], claims := [] } none

/-- An alarm acts by its policy (R526): its record stands in the non-volatile store before any erasure. -/
def alarm (s : State) (pol : Nat) : State :=
  let s := keepRecord s (hubEvent .alarm (if pol = 0 then 0 else 2) 7)
  let s := if 1 ≤ pol then endAll s else s
  let s := if 2 ≤ pol then { s with handshakes := [], nv := { s.nv with attKey := false } } else s
  if 3 ≤ pol then wipeMemory s else s

/-- The alarm policies of FLAGS (R524). -/
def alarmPolicy (lo : Nat) : Nat := bits (ofLE (policy 8 8)) lo 2

/-- TAMPER_ALARM (R525): the enclosure opens while the device is powered. -/
def execTamperAlarm (s : State) : Host.Outcome State Fault Refusal :=
  .next (if s.power = .off then s else alarm s (alarmPolicy 2))
/-- GLITCH_ALARM (R525). -/
def execGlitchAlarm (s : State) : Host.Outcome State Fault Refusal :=
  .next (if s.power = .off then s else alarm s (alarmPolicy 4))

/-- A PROVE has failed (R525): the 16th within 60 s raises the authentication alarm. -/
def proveFailed (s : State) : State :=
  let fails := s.now :: s.authFails.filter (fun t => s.now < t + 126000000000)
  if 16 ≤ fails.length then alarm { s with authFails := [] } (alarmPolicy 6) else { s with authFails := fails }

/-- A handshake has waited 1 s for its PROVE (R519). -/
def handshakeOver (s : State) (h : Handshake) : Bool := h.since + 2100000000 ≤ s.now

/-- PROVE (R519). A PROVE without a handshake is refused like one that fails. -/
def execProve (fr : Frame) (s : State) : Host.Outcome State Fault Refusal :=
  .next (if !taken0 s fr 0x22 then s
    else
      match s.handshakes.find? (fun h => h.peer = fr.peer && !handshakeOver s h) with
      | none => proveFailed (answer0 s fr 0x23 9 [])
      | some h =>
        let s := { s with handshakes := s.handshakes.erase h }
        if fr.zeroOk && Config.lmsVerify h.key (proveMsg h) fr.payload then openSession s fr h
        else proveFailed (answer0 s fr 0x23 9 []))

/-- PROVE_TIMEOUT (R519): the handshake ends. -/
def execProveTimeout (idx : Nat) (s : State) : Host.Outcome State Fault Refusal :=
  .next (match s.handshakes[idx]? with
    | some h => if handshakeOver s h then { s with handshakes := s.handshakes.erase h } else s
    | none => s)

/-! ### Ownership (R520, R521) -/

/-- An answer with STAT 0x00 to a request that waits for it. [Its type is not in the spec; DESIGN CHOICE, log entry 95] -/
def claimAnswer (x : Session) (fr : Frame) : OutFrame :=
  { src := x.here, peer := x.peer, ftype := 0x10, ctx := x.ctx, sess := x.id, seq := fr.seq, ack := (x.e + 1) % 2 ^ 32, stat := 0
    payload := [] }

/-- CLAIM applied (R521): noted while the window is open; after it, ownership at once where there is no owner. -/
def claimAct (fr : Frame) (x : Session) (s : State) : Answer :=
  if s.owner.isSome then (3, [], s)
  else if s.electionDone then (0, [], sendFrame (setOwner s (some x.slot)) (claimAnswer x fr))
  else (0, [], { s with claims := s.claims ++ [(x.slot, claimAnswer x fr)] })

/-- CLAIM (R520). -/
def execClaim (fr : Frame) (s : State) : Host.Outcome State Fault Refusal :=
  .next (onFrame fr { ftype := 0x24, rtype := 0, isRead := false, owned := false, good := fr.payload = [] } (claimAct fr) s)

/-- HANDOVER (R520). -/
def handoverAct (fr : Frame) (_ : Session) (s : State) : Answer :=
  let t := leAt fr.payload 0 1
  if s.sessions.any (fun y => y.slot = t) then (0, [], setOwner s (some t)) else (3, [], s)
def execHandover (fr : Frame) (s : State) : Host.Outcome State Fault Refusal :=
  .next (onFrame fr { ftype := 0x25, rtype := 0, isRead := false, owned := true, good := fr.payload.length = 1 } (handoverAct fr) s)

/-- Close a session (R520, R521): the owner's last session ends its ownership. -/
def closeSession (s : State) (x : Session) : State :=
  let s := { s with sessions := s.sessions.filter (fun y => y.id ≠ x.id), claims := s.claims.filter (fun c => c.2.sess ≠ x.id) }
  if s.owner = some x.slot && !s.sessions.any (fun y => y.slot = x.slot) then setOwner s none else s

/-- CLOSE (R520): with end context, from the owner, the context ends too (R425).  The session is gone before its ACK timer runs, so that
the ACK of R382 goes out with it. [DESIGN CHOICE; log entry 137] -/
def closeAct (fr : Frame) (x : Session) (s : State) : Answer :=
  let s := if bitB (leAt fr.payload 0 1) 0 && s.owner = some x.slot then endContext s x.ctx else s
  (0, [], sendAck (closeSession s x) { x with e := (x.e + 1) % 2 ^ 32 })
def execClose (fr : Frame) (s : State) : Host.Outcome State Fault Refusal :=
  .next (onFrame fr { ftype := 0x26, rtype := 0, isRead := false, owned := false
                      good := fr.payload.length = 1 && leAt fr.payload 0 1 ≤ 1 } (closeAct fr) s)

/-- The window has run its second. -/
def electionOver (s : State) : Bool := s.electionOpen && !s.electionDone && s.electionEnd ≤ s.now

/-- The claimant with the highest rank, the lowest slot among equals. -/
def electionWinner (slots : List Nat) : Option Nat :=
  ((List.range 8).filter slots.contains).foldl (fun (a : Option Nat) x =>
    match a with
    | none => some x
    | some y => if slotRank y < slotRank x then some x else a) none

/-- The answer to a claim as it goes out: with the next SEQ that the device expects by then (R380). -/
def claimNow (s : State) (f : OutFrame) : OutFrame := { f with ack := ((s.session f.sess).map (·.e)).getD f.ack }

/-- ELECTION_WINDOW_CLOSE (R521). -/
def execElectionWindowClose (s : State) : Host.Outcome State Fault Refusal :=
  .next (if !electionOver s then s
    else
      let s' := s.claims.foldl (fun s c => sendFrame s (claimNow s c.2)) { s with electionDone := true, claims := [] }
      match electionWinner (s.claims.map (·.1)) with
      | some w => setOwner s' (some w)
      | none => s')

/-- Ownership lapses (R521). -/
def ownerLapsed (s : State) : Bool := s.owner.isSome && s.ownerSeen + 21000000000 ≤ s.now
def execOwnershipLapse (s : State) : Host.Outcome State Fault Refusal :=
  .next (if ownerLapsed s then setOwner s none else s)

end Sys2Proof.Machine
end

