-- ==== Sys2Proof/Machine/Resilience.lean ====
section
/-!
DEFINITION. Counting errors and lasting faults (R513 to R515), scans that Kettle firmware runs (R357, R535), retirement and
the core map (R18, R359, R518), links (R511, R512), soft errors (R478), and requests of other packages (R388).
-/

namespace Sys2Proof.Machine

open Sys2Proof

/-- The package runs: Kettle firmware, the engines and the mailbox go on (R508). -/
def State.runs (s : State) : Bool := s.power = .running

/-! ### Counting (R513, R514) -/

/-- The unit that a record about a structure kind names (R434). -/
def unitOfKind (k : Nat) : Nat := if k ≤ 2 then 5 else if 5 ≤ k && k ≤ 7 then 6 else 7

/-- The key of an instance of a structure kind. -/
def errKey (kind inst : Nat) : Nat := 2 ^ 32 * kind + inst

/-- The lanes of a link, as it stands: 4 when nothing has reduced it (in-package: 4, 2, 1 for whole, half, quarter). -/
def linkOf (s : State) (n : Nat) : Link := s.links.get { retraining := false, lanes := 4 } n

/-- The next lower width of a link. -/
def lowerWidth (lanes : Nat) : Nat := lanes / 2

/-- The package is held (R512, R516). -/
def holdPackage (s : State) (kind inst : Nat) : State :=
  writeRecord { s with held := true } { hubEvent .linkLost 5 7 with kind := kind, inst := inst }

/-- Set the lanes of a link, up to the number it has (R512): with none left, a UALink port is disabled and an in-package
link holds the package. -/
def setLanes (s : State) (n lanes : Nat) : State :=
  let x := linkOf s n
  let k := min x.lanes lanes
  let s := { s with links := s.links.put n { retraining := false, lanes := k } }
  if n < 16 && k = 0 then holdPackage s 5 n else s

/-- The action of a lasting fault (R513, R515).  An in-package link at one quarter has no lower width. -/
def lastingAction (s : State) (kind inst : Nat) : State :=
  if kind = 1 || kind = 2 then
    if inService s inst && (s.getCore inst).scan.state ≠ 1 then
      s.modCore inst (fun c => { c with scan := { c.scan with why := 4 } })
    else s
  else if kind = 5 then
    { s with links := s.links.put inst { (linkOf s inst) with lanes := max 1 (lowerWidth (linkOf s inst).lanes) } }
  else if kind = 6 then
    { s with links := s.links.put (16 + inst) { (linkOf s (16 + inst)) with lanes := lowerWidth (linkOf s (16 + inst)).lanes } }
  else if kind = 7 then { s with hostLanes := min 4 s.hostLanes }
  else s

/-- The window of a count has closed. -/
def windowOver (s : State) (e : ErrCount) : Bool := e.opened + e.win * 2100000000 ≤ s.now

/-- One event of a structure instance (R514). -/
def countEvent (s : State) (kind inst : Nat) : State :=
  let c := s.cntOf kind
  let fresh : ErrCount := { count := 0, opened := s.now, thr := c.1, win := c.2 }
  let e := match s.errs.find? (errKey kind inst) with
    | some e => if windowOver s e then fresh else e
    | none => fresh
  if e.thr ≤ e.count + 1 then
    let s := writeRecord { s with errs := s.errs.del (errKey kind inst) }
      { hubEvent .lastingFault 1 (unitOfKind kind) with kind := kind, inst := inst, detail := e.count + 1
                                                        core := if kind ≤ 2 then some inst else none }
    lastingAction s kind inst
  else { s with errs := s.errs.put (errKey kind inst) { e with count := e.count + 1 } }

/-- ERROR_EVENT_COUNT (R514). -/
def execErrorEventCount (kind inst : Nat) (s : State) : Host.Outcome State Fault Refusal :=
  .next (if 1 ≤ kind && kind ≤ 8 then countEvent s kind inst else s)

/-- ERROR_WINDOW_CLOSE (R514). -/
def execErrorWindowClose (kind inst : Nat) (s : State) : Host.Outcome State Fault Refusal :=
  .next (match s.errs.find? (errKey kind inst) with
    | some e => if windowOver s e then { s with errs := s.errs.del (errKey kind inst) } else s
    | none => s)

/-- CNT_WRITE (R514): a zero field changes nothing; windows already open keep what they opened with. -/
def execCntWrite (k value : Nat) (s : State) : Host.Outcome State Fault Refusal :=
  .next (
    let thr := bits value 0 16
    let win := bits value 16 24
    if 1 ≤ k && k ≤ 8 && thr ≠ 0 && win ≠ 0 then { s with cnt := s.cnt.put k (thr, win) } else s)

/-! ### Soft errors (R478) -/

/-- The instance of the HBM pseudo-channel of an address: die, stack and channel (R131, R144, R513). -/
def channelOf (pa : Nat) : Nat := 128 * paDie pa + (bits pa 8 7 ^^^ bits pa 15 7)

/-- SOFT_ERROR (R478): corrected, or it poisons its granule. -/
def softErr (s : State) : SoftErr → State
  | .corrected kind inst =>
    countEvent (writeRecord s { hubEvent .softCorrected 0 (unitOfKind kind) with
      kind := kind, inst := inst, core := if kind ≤ 2 then some inst else none }) kind inst
  | .memory pa =>
    if inHBM (paLocal pa) && paPkg pa = s.pkgid then countEvent (poisonBlock s pa) 4 (channelOf pa) else s
  | .register wg w lane pos =>
    if (s.wgs.find? wg).isSome && (s.getWg wg).alive then
      countEvent (s.modWarp wg w (fun x => x.markPoison (poisonV pos lane) true)) 1 (s.getWg wg).core
    else s
  | .scratch wg off =>
    if (s.wgs.find? wg).isSome && (s.getWg wg).alive then
      countEvent (s.modWg wg (fun g => { g with scratchPoison := g.scratchPoison.set false (off / 4) true })) 1 (s.getWg wg).core
    else s
  | .accum core entry =>
    s.modCore core (fun c => { c with mx := { c.mx with accPoison := c.mx.accPoison.set false entry true } })
  | .step core i j x =>
    s.modCore core (fun c => if c.mx.run.isSome then { c with mx := { c.mx with upsets := c.mx.upsets ++ [(i, j, x)] } } else c)
def execSoftError (e : SoftErr) (s : State) : Host.Outcome State Fault Refusal := .next (softErr s e)

/-! ### Scans (R357, R358, R515, R518, R535) -/

/-- Kettle firmware may start a scan of its own on a core: nothing stands there, no scan runs on its quad, and the supply is
at level 0 (R357, R527). -/
def scanFree (s : State) (p : Nat) : Bool :=
  residents s p = [] && !(bindsAhead s p).any (fun b => b.kind ≤ 1) && s.level = 0 &&
  !(List.range 4).any (fun i => scanning s (p / 4 * 4 + i)) && !writebackHeld s p (fun _ => true)

/-- A running scan has come to its end, and the record that may return its core finds room (R368). -/
def scanOver (s : State) (p : Nat) : Bool := scanning s p && (s.getCore p).scan.ended ≤ s.now && slotFree s p

/-- The scan of a core ends: its signature is compared (R357, R535). -/
def endScan (s : State) (p : Nat) : State :=
  let sc := (s.getCore p).scan
  match Config.scanFault p sc.count with
  | none =>
    let s := s.modCore p (fun c => coreAfterScan c { sc with state := 2, chain := none, why := if sc.why = 1 then 0 else sc.why })
    if sc.why = 1 then
      writeRecord (writeBind (s.modCore p (fun c => { c with withdrawn := true }))
          { kind := 4, core := p, ctx := 0, qgp := 0, qgn := 0, lslot := 0, wg := 0 })
        { hubEvent .scanPassed 1 5 with kind := 1, inst := p, core := some p }
    else s
  | some n =>
    let s := s.modCore p (fun c => coreAfterScan c { sc with state := 3, chain := some n })
    if sc.why = 1 then s.modCore p (fun c => { c with retiring := true }) else s

/-- A unit that stands on a core and is to leave it (R18, R515): its images find room, and so does its yield record. -/
def movable (s : State) (on : Nat → Bool) : Option (List Nat) :=
  (s.wgs.filter (fun e => e.2.alive && on e.2.core)).findSome? (fun e =>
    let u := unitOf s e.1 Wg.alive
    if !leaving s u && slotFree s e.2.core && u.all (fun k => poolAdmits s (s.wgCtx k) u) then some [e.1] else none)

/-- What Kettle firmware does next about a core with a lasting fault (R515); nothing while a deterministic launch runs
(R527).  [DEDUCED; log entry 99] -/
inductive Lasting where
  | nothing
  | withdraw
  | move (ks : List Nat)
  | scan
  deriving DecidableEq, Repr

def lastingNext (s : State) (p : Nat) : Lasting :=
  let c := s.getCore p
  if detRunning s || !inService s p then .nothing
  else if c.scan.why = 4 && c.scan.state ≠ 1 then
    if (bindsFor s p).any (fun b => b.kind = 3) then .nothing
    else if !c.withdrawn then (if slotFree s p then .withdraw else .nothing)
    else
      match movable s (fun q => q = p) with
      | some u => .move u
      | none => if scanFree s p then .scan else .nothing
  else if c.scan.why = 1 && c.scan.state = 4 && scanFree s p && !s.launches.any (fun e => 0 < e.2.lr.prio && unplaced s e.1) then .scan
  else .nothing

/-- SCAN_COMPLETE (R535): the end of a scan, or the next step about a core with a lasting fault (R515). -/
def execScanComplete (core : Nat) (s : State) : Host.Outcome State Fault Refusal :=
  .next (if scanOver s core then endScan s core
    else
      match lastingNext s core with
      | .nothing => s
      | .withdraw => writeBind s { kind := 3, core := core, ctx := 0, qgp := 0, qgn := 0, lslot := 0, wg := 0 }
      | .move u => writeYields s u
      | .scan => scanStart s core true 0 1)

/-- SCAN_ABORT (R357): the core is reset and returns to service. -/
def execScanAbort (core : Nat) (s : State) : Host.Outcome State Fault Refusal := .next (scanAbortNow s core)

/-- Every scan that runs is aborted (R527). -/
def abortScans (s : State) : State := (s.cores.keys).foldl scanAbortNow s

/-! ### Retirement and the core map (R18, R359, R518) -/

/-- Nothing stands on the cores from `d` on, and no record would bring anything there. -/
def drained (s : State) (d : Nat) : Bool :=
  !s.wgs.any (fun e => !e.2.isSaved && d ≤ e.2.core) &&
  !(s.slots.flatMap (fun e => e.2) ++ s.launches.flatMap (fun e => e.2.unwritten)).any (fun b => b.kind ≤ 1 && d ≤ b.core)

/-- The map changes (R518): mask and EPOCH, in the non-volatile store too. -/
def setMap (s : State) (m : BitVec 320) (epoch : Nat) : State :=
  { s with mask := m, epoch := epoch, nv := { s.nv with mask := m, epoch := epoch } }

/-- The CORERETs that wait for a core receive the new N (R359). -/
def answerCoreret (s : State) (ws : List Waiter) : State :=
  let n : Word := BitVec.ofNat 32 s.ncore
  ws.foldl (fun s x =>
    let put := x.late.foldl (fun (a : State × Nat) e =>
      let q := fillPuts a.1 x.wg x.warp (s.getWg x.wg).core x.idx e.1 e.2 n.toNat
      (q.1, a.2 + q.2)) (s, 0)
    deliverWait put.1 x.wg x.warp x.idx put.2 (fun rs => rs.map (fun r => match r with
      | .v l p _ => .v l p (some n)
      | .k k _ => .k k (some n)
      | .p l p _ => .p l p (n ≠ 0)
      | .h l h _ => .h l h (some (n.setWidth 64))))) s

/-- Retire a core: it leaves the map, EPOCH rises by one, and a record is written (R18, R515, R518, R536). -/
def retireCore (s : State) (p : Nat) : State :=
  let c := s.getCore p
  let s := setMap s (s.mask &&& ~~~(BitVec.ofNat 320 (2 ^ p))) (s.epoch + 1)
  let s := s.modCore p (fun c => { c with retiring := false, waiters := [], withdrawn := true, scan := { c.scan with why := 0 } })
  let s := writeRecord s { hubEvent .coreRetired 4 5 with kind := 1, inst := p, core := some p, detail := c.scan.chain.getD 0 }
  answerCoreret s c.waiters

/-- What a renumbering comes to next: workgroups to pre-empt, or the change itself. -/
def drainNext (s : State) (d : Nat) : Option (List Nat) × Bool := (movable s (fun q => d ≤ q), drained s d)

/-- CORE_RENUMBER (R18): the cores from the retired one on are drained, and then the map is renumbered. -/
def renumberReady (s : State) (p : Nat) : Bool :=
  (s.getCore p).retiring && inService s p && !detRunning s && ((drainNext s p).1.isSome || (drainNext s p).2)
def execCoreRenumber (core : Nat) (s : State) : Host.Outcome State Fault Refusal :=
  .next (if !renumberReady s core then s
    else match drainNext s core with
      | (some u, _) => writeYields s u
      | (none, _) => retireCore s core)

/-- The cores that a mask names. -/
def coresOfMask (m : BitVec 320) : List Nat := setBitsOf 320 m.toNat

/-- MAPBUF (R518). -/
def mapImage (s : State) : List Byte := (List.range 8192).map (fun i => Sparse.get s.mapbuf 0 i)

/-- MAP_COMMIT (R518): the image is checked; while one commit is busy another is ignored, and while HELD is 1 it is refused
(R527).  A nonzero reserved byte counts as a refused signature. [DEDUCED; log entry 100] -/
def execMapCommit (s : State) : Host.Outcome State Fault Refusal :=
  .next (
    let b := mapImage s
    let m : BitVec 320 := BitVec.ofNat 320 (leAt b 0 40)
    let ep := leAt b 0x28 8
    if s.mapStat = 1 || s.held then s
    else if !Config.lmsVerify (policy 0x1E0 32) (b.take 64) (b.drop 64) || !zeroAt b 0x38 8 then { s with mapStat := 3 }
    else if leAt b 0x30 8 ≠ puid then { s with mapStat := 5 }
    else if ep ≤ s.epoch then { s with mapStat := 4 }
    else
      let add := coresOfMask (m &&& ~~~s.mask)
      add.foldl (fun s p => s.modCore p (fun c => { c with scan := { c.scan with why := 3 } }))
        { s with mapStat := 1, mapNew := m, mapEpoch := ep, mapScan := add })

/-- A core that a commit adds and that can be scanned now: not yet, or its scan was aborted. -/
def mapScanNext (s : State) : Option Nat :=
  s.mapScan.find? (fun p =>
    let sc := (s.getCore p).scan
    (sc.why = 3 || (sc.why = 2 && sc.state = 4)) && scanFree s p)

/-- MAP_APPLY has something to do (R518): a scan to start, cores to drain, or the mask to apply. -/
def mapReady (s : State) : Bool :=
  s.mapStat = 1 && !detRunning s &&
  ((mapScanNext s).isSome ||
   (s.mapScan.all (mapScanOver s) &&
    (match drainFrom s with
     | some d => (drainNext s d).1.isSome || (drainNext s d).2
     | none => true)))

/-- The mask of a commit is applied. -/
def applyMap (s : State) : State :=
  let final := mapFinal s
  let st := if final = s.mapNew then 2 else 6
  let s' := setMap s final s.mapEpoch
  s.mapScan.foldl (fun s p => s.modCore p (fun c => { c with scan := { c.scan with why := 0 } }))
    { s' with mapStat := st, mapScan := [] }

/-- MAP_APPLY (R518). -/
def execMapApply (s : State) : Host.Outcome State Fault Refusal :=
  .next (if !mapReady s then s
    else match mapScanNext s with
      | some p => scanStart s p false 0 2
      | none =>
        match (drainFrom s).bind (fun d => (drainNext s d).1) with
        | some u => writeYields s u
        | none => applyMap s)

/-! ### Links (R511, R512) -/

/-- The structure kind and instance of a link: 0 to 9 in-package, 16 on the UALink ports. -/
def linkKind (n : Nat) : Nat × Nat := if n < 16 then (5, n) else (6, n - 16)
def isLink (n : Nat) : Bool := n < 10 || (16 ≤ n && n < 32)

/-- LINK_RETRAIN (R511): its traffic is held, and the event is recorded and counted. -/
def execLinkRetrain (link : Nat) (s : State) : Host.Outcome State Fault Refusal :=
  .next (if !isLink link || (linkOf s link).lanes = 0 then s
    else
      let k := linkKind link
      let s := { s with links := s.links.put link { (linkOf s link) with retraining := true } }
      countEvent (writeRecord s { hubEvent .linkRetrain 0 6 with kind := k.1, inst := k.2 }) k.1 k.2)

/-- LINK_RETRAIN_COMPLETE (R512): the lanes that train are 4, 2, 1 or none; during hold it waits (R527). -/
def execLinkRetrainComplete (link lanes : Nat) (s : State) : Host.Outcome State Fault Refusal :=
  .next (if !isLink link || !(linkOf s link).retraining || !s.runs then s
    else setLanes s link (if 4 ≤ lanes then 4 else if 2 ≤ lanes then 2 else lanes))

/-- The retries of a warp's transaction are exhausted (R475, R476).  A request that waits at a link is
dropped; else the data that a load returns is poisoned, with a record; else the request that the warp's first entry issues
next is dropped. [DEDUCED; log entry 101] -/
def crcExhausted (s : State) (wg w : Nat) : State :=
  let x := s.getWarp wg w
  let s := s.modWarp wg w (fun x => { x with crcFails := 0 })
  let isRemote (e : Entry) : Bool := match e.wait with | .remote .. => true | _ => false
  let fail (pc : Va) : State := s.modWarp wg w (fun x => x.modEntry pc (fun e => { e with wait := .undelivered 0x0A }))
  match x.table.find? isRemote with
  | some e => fail e.pc
  | none =>
    match x.pend.find? (fun b => b.isVar && (b.op = 0x20 || b.op = 0x21) && b.writes ≠ []) with
    | some b =>
      let s := s.modWarp wg w (fun x => { x with pend := x.pend.map (fun y => if y.idx = b.idx then
        { y with writes := y.writes.map (fun r => match r with
            | .v l p _ => .v l p none
            | .k k _ => .k k none
            | .h l n _ => .h l n none
            | r => r) } else y) })
      writeRecord s (wgEvent s wg .poisonedReturn 1 2)
    | none =>
      match x.table with
      | e :: _ => if e.wait = .none then fail e.pc else s
      | [] => s

/-- The retries of a piece of an engine's command are exhausted (R388, R476): its command ends with CODE 0x08, by R438. -/
def engineExhausted (s : State) (e : Nat) : State :=
  let s := s.modEng e (fun g => { g with crcFails := 0 })
  let g := s.getEng e
  match g.kind, g.queue.head?, engHolder s e with
  | 3, _, some (wg, x) =>
    (match (s.mxOf wg).run with
     | some r =>
       if r.cmd.wg ≠ wg || !x.resident || parkedDue ≤ r.stepDue then s
       else
         (match tileOf r.cmd.instr, r.cmd.instr with
          | some (fn, _), _ => if fn = 11 || r.cmd.log then endRun s x.core r 8 else s
          | none, .reverse _ => endRun (endReverse s r.cmd 0 (.code 8)).s x.core r 8
          | none, _ => endRun s x.core r 8)
     | none => s)
  | 3, _, none => s
  | 2, some cmd, _ => endColl s e cmd 8
  | _, some cmd, _ =>
    popHead (transfer { s with free := s.free + 1 } cmd (subsetOf s.free)).s e cmd (if cmd.cancel then 1 else 8)
  | _, none, _ => s

/-- The retries of a write-back are exhausted (R476): the blocks that its dirty bytes were to go to are poisoned, with a record. -/
def writebackExhausted (s : State) (core line : Nat) : State :=
  let ds := (s.getCore core).l1.filter (fun e => inLine line e.1 && e.2.dirty ≠ 0)
  let s := s.modCore core (fun c => { c with crcFails := 0, l1 := c.l1.filter (fun e => !(inLine line e.1 && e.2.dirty ≠ 0)) })
  if ds = [] then s
  else writeRecord (ds.foldl (fun s e => poisonBlock s e.1) s)
    { hubEvent .poisonedWriteback 1 5 with core := some core, paddr := line * 128 }

/-- END_TO_END_CRC_MISMATCH (R475, R476, R388): the transaction is sent again up to three times, and then it fails; a host frame comes
again by R382, and a transaction within one die carries no CRC. -/
def execEndToEndCrcMismatch (what : CrcTarget) (n : Nat) (s : State) : Host.Outcome State Fault Refusal :=
  .next (match what with
    | .warp wg =>
      if !(s.wgs.find? wg).isSome || !(s.getWg wg).alive then s
      else if (s.getWarp wg n).crcFails < 3 then s.modWarp wg n (fun x => { x with crcFails := x.crcFails + 1 })
      else crcExhausted s wg n
    | .engine =>
      if (s.getEng n).owner.isNone then s
      else if (s.getEng n).crcFails < 3 then s.modEng n (fun g => { g with crcFails := g.crcFails + 1 })
      else engineExhausted s n
    | .writeback core =>
      if coreDie core = paDie (n * 128) then s
      else if (s.getCore core).crcFails < 3 then s.modCore core (fun c => { c with crcFails := c.crcFails + 1 })
      else writebackExhausted s core n
    | .mailbox => s)

/-! ### Requests of other packages (R387, R388, R510) -/

/-- An answer to a request over UALink.  Its form is the link specification's. [DESIGN CHOICE; log entry 102] -/
def answerRemote (s : State) (src stat : Nat) (data : List Byte) : State :=
  sendFrame s { src := s.pkgid, peer := src, ftype := 0x200, ctx := 0, sess := 0, seq := 0, ack := 0, stat := stat, payload := data }

/-- The address range of a request of another package. -/
def remoteRange : RemoteReq → Nat × Nat
  | .read _ pa n => (pa, n)
  | .write _ pa data => (pa, data.length)
  | .atom _ pa size _ _ _ _ => (pa, size)
def remoteSrc : RemoteReq → Nat
  | .read src _ _ | .write src _ _ | .atom src _ _ _ _ _ _ => src

/-- A request waits: for the hub link of the die it goes to (R14, R511), or, when it changes memory, for a granule that is held
(R277). -/
def remoteWaits (s : State) (q : RemoteReq) : Bool :=
  s.linkDown (hubLink (paDie (remoteRange q).1)) ||
  match q with
  | .read _ _ _ => false
  | .write _ pa data => s.heldAny pa data.length
  | .atom _ pa size _ _ _ _ => s.heldAny pa size

/-- The request asks for memory of this package, of a kind and size that the links carry (R387): reads and writes of 4 to 128 bytes, and
4- and 8-byte atomics. -/
def remoteOk (s : State) (q : RemoteReq) : Bool :=
  let r := remoteRange q
  paPkg r.1 = s.pkgid && inHBM (paLocal r.1) && r.1 / 128 = (r.1 + r.2 - 1) / 128 &&
  match q with
  | .read .. | .write .. => 4 ≤ r.2 && r.2 ≤ 128
  | .atom .. => (r.2 = 4 || r.2 = 8) && r.1 % r.2 = 0

/-- A request is performed at the L2 (R164, R388): STAT 0x06 for poison (R479), 0x01 for an address that is not here. -/
def performRemote (s : State) (q : RemoteReq) : State :=
  let r := remoteRange q
  if !remoteOk s q then answerRemote s (remoteSrc q) 1 []
  else
    match q with
    | .read src pa n =>
      if (List.range n).any (fun i => blockPoison s (pa + i)) then answerRemote s src 6 [] else answerRemote s src 0 (memBytes s pa n)
    | .write src pa data => answerRemote (l2Write s pa data) src 0 []
    | .atom src pa size aop float b c =>
      if blockPoison s pa then answerRemote s src 6 []
      else
        let old := memNat s pa size
        let new := if float then some (atomF32 aop old b) else atomInt aop (8 * size) old b c
        let s := match new with
          | some v => l2Write s pa (toLE size v)
          | none => clearResv s (pa / 32 * 32) (fun wg => !s.wgDet wg)
        answerRemote s src 0 (toLE size old)

/-- UALINK_REMOTE_REQUEST (R388): during hold it is answered busy (R510). -/
def execUalinkRemoteRequest (req : RemoteReq) (s : State) : Host.Outcome State Fault Refusal :=
  .next (match s.power with
    | .running => if remoteWaits s req then s else performRemote s req
    | .hold _ => answerRemote s (remoteSrc req) 0xFF []
    | _ => s)

/-! ### Hub registers, and write-back -/

/-- HUB_REGISTER_WRITE (R506): a register without behaviour of its own, which is MAPBUF. -/
def execHubRegisterWrite (off : Nat) (data : List Byte) (s : State) : Host.Outcome State Fault Refusal :=
  .next (if 0x20000 ≤ off && off + data.length ≤ 0x22000 then
      { s with mapbuf := ((List.range data.length).zip data).foldl (fun m e => Sparse.set m 0 (off + e.1 - 0x20000) e.2) s.mapbuf }
    else s)

/-- WRITE_PERFORMED_AT_L2 (R152): the dirty bytes of an L1 line reach the owning L2; held granules keep theirs (R277). -/
def execWritePerformedAtL2 (core line : Nat) (s : State) : Host.Outcome State Fault Refusal :=
  .next (writeback s core (inLine line))

end Sys2Proof.Machine
end

