-- ==== Sys2Proof/Machine/Power.lean ====
section
/-!
DEFINITION. The supply and the hold state (R507 to R510), power loss, reset and self-test (R508, R516, R517, R522, R527).
-/

namespace Sys2Proof.Machine

open Sys2Proof

/-! ### Supply levels (R507) -/

/-- The supply level changes: scans are aborted (R527), and an entry to level 1 or 2 is recorded. -/
def setLevel (s : State) (level : Nat) : State :=
  let since := if level = 0 then 0 else if s.level = 0 then s.now else s.reducedSince
  let s := abortScans { s with level := level, reducedSince := since }
  if level = 0 then s else writeRecord s (hubEvent .supplyLevel 0 7)

/-- SUPPLY_DROOP (R507): the input has fallen below the threshold of a level. -/
def execSupplyDroop (level : Nat) (s : State) : Host.Outcome State Fault Refusal :=
  .next (if s.runs && s.level < level && level ≤ 2 then setLevel s level else s)

/-- SUPPLY_LEVEL_RECOVERY (R507): the level rises by one after 1 ms above its threshold. -/
def execSupplyLevelRecovery (s : State) : Host.Outcome State Fault Refusal :=
  .next (if s.runs && 0 < s.level then setLevel s (s.level - 1) else s)

/-! ### Hold (R508, R509) -/

/-- 20 ms at a reduced level, in counts. -/
def holdDelay : Nat := 42000000
/-- The package has stood at a reduced level for 20 ms. -/
def holdDue (s : State) : Bool := s.runs && 0 < s.level && s.reducedSince + holdDelay ≤ s.now

/-- Every operation that has issued is written back (R508 step 1). -/
def flushWarps (s : State) : State :=
  { s with warps := s.warps.map (fun (e : Nat × Warp) => (e.1, e.2.flush)) }

/-- The native step in progress of a core is completed (R508 step 2). -/
def finishStep (s : State) (core : Nat) : State :=
  match ((s.getCore core).mx).run with
  | some r =>
    if parkedDue ≤ r.stepDue then s
    else
      let r := { r with stepDue := s.now }
      runStep (s.modCore core (fun c => { c with mx := { c.mx with run := some r } })) core r
  | none => s

/-- HOLD_ENTRY (R508): V below 45.9 V for 50 µs, from outside, or 20 ms at a reduced level. -/
def execHoldEntry (s : State) : Host.Outcome State Fault Refusal :=
  .next (if !s.runs then s
    else
      let s := (s.cores.keys).foldl finishStep (flushWarps (abortScans s))
      let s := writeRecord { s with holds := s.holds + 1 } (hubEvent .holdEntry 5 7)
      let s := countEvent s 8 0
      { s with power := .hold s.now, served := [], cur := none })

/-- A cycle moved by H; 0 stands for none. -/
def later (h t : Nat) : Nat := if t = 0 || parkedDue ≤ t then t else t + h

/-- A command's promise, moved by H. -/
def Cmd.later (c : Cmd) (h : Nat) : Cmd := { c with promised := Sys2Proof.Machine.later h c.promised }
/-- A running command's, with the cycle of its next step. -/
def RunCmd.later (r : RunCmd) (h : Nat) : RunCmd :=
  { r with cmd := r.cmd.later h, stepDue := Sys2Proof.Machine.later h r.stepDue }
/-- An engine context, moved by H. -/
def Eng.later (g : Eng) (h : Nat) : Eng :=
  { g with proms := g.proms.map (fun e => (e.1, Sys2Proof.Machine.later h e.2)), queue := g.queue.map (fun c => c.later h)
           busyUntil := g.busyUntil + h, parkedRun := g.parkedRun.map (fun r => r.later h)
           parkedStaged := g.parkedStaged.map (fun c => c.later h) }
/-- A PC-table entry: the 2 ms limit of a remote access. -/
def Entry.later (e : Entry) (h : Nat) : Entry :=
  { e with wait := match e.wait with | .remote a d => .remote (a + h) (d + h) | w => w }
/-- A lane parked in HSLEEP wakes later; one in SLEEP does not. -/
def Lane.later (x : Lane) (h : Nat) : Lane :=
  { x with hold := x.hold.map (fun p => match p.kind with
      | .hsleep _ => { p with wake := p.wake + h }
      | _ => p) }
def Warp.later (x : Warp) (h : Nat) : Warp :=
  { x with table := x.table.map (fun e => e.later h), aside := x.aside.map (fun e => e.later h)
           lanes := x.lanes.map (fun e => (e.1, e.2.later h)) }
/-- A pending yield's budget (R60, R462). -/
def Wg.later (g : Wg) (h : Nat) : Wg :=
  { g with phase := match g.phase with | .stopping t l => .stopping (t + h) l | p => p }
def Mx.later (m : Mx) (h : Nat) : Mx := { m with run := m.run.map (fun r => r.later h), staged := m.staged.map (fun c => c.later h) }
/-- The gates' idle times of a context (R484). -/
def Ctx.later (c : Ctx) (h : Nat) : Ctx :=
  { c with regions := c.regions.map (fun (e : Nat × Region) => (e.1, { e.2 with lastAdmit := e.2.lastAdmit + h })) }

/-- Every promise, HSLEEP wake, budget and timeout is extended by H (R509). -/
def extendTimes (s : State) (h : Nat) : State :=
  { s with
    warps := s.warps.map (fun (e : Nat × Warp) => (e.1, e.2.later h))
    wgs := s.wgs.map (fun (e : Nat × Wg) => (e.1, e.2.later h))
    cores := s.cores.map (fun (e : Nat × Core) => (e.1, { e.2 with mx := e.2.mx.later h }))
    engs := s.engs.map (fun (e : Nat × Eng) => (e.1, e.2.later h))
    ctxs := s.ctxs.map (fun (e : Nat × Ctx) => (e.1, e.2.later h))
    sessions := s.sessions.map (fun x => { x with unackedSince := x.unackedSince + h, lastNack := later h x.lastNack })
    handshakes := s.handshakes.map (fun x => { x with since := x.since + h })
    errs := s.errs.map (fun (e : Nat × ErrCount) => (e.1, { e.2 with opened := e.2.opened + h }))
    electionEnd := s.electionEnd + h, ownerSeen := s.ownerSeen + h, authFails := s.authFails.map (· + h)
    dadEnd := later h s.dadEnd }

/-- HOLD_EXIT (R509): H is at least the counts that have passed. -/
def execHoldExit (cycles : Nat) (s : State) : Host.Outcome State Fault Refusal :=
  .next (match s.power with
    | .hold since =>
      let h := max cycles (s.now - since)
      let s := { extendTimes s h with power := .running, cyc := BitVec.ofNat 64 (since + h), level := 0, reducedSince := 0 }
      writeRecord s { hubEvent .holdExit 5 7 with detail := min h 0xFFFFFFFF }
    | _ => s)

/-! ### Power loss, reset and self-test -/

/-- SHOCK_SENSOR_LATCH (R516). -/
def execShockSensorLatch (s : State) : Host.Outcome State Fault Refusal := .next { s with nv := { s.nv with shock := true } }

/-- STREQ_WRITE (R506, R516): writing 1 in bit 0 requests the full self-test. -/
def execStreqWrite (value : Nat) (s : State) : Host.Outcome State Fault Refusal :=
  .next (if bitB value 0 then { s with streq := true, nv := { s.nv with streq := true } } else s)

/-- What reset and power loss leave: the non-volatile store, PKGID as written, HELD, the events still to come, and what
counts facts of the silicon. [DESIGN CHOICE for what the spec does not say is lost; log entry 2] -/
def blank (s : State) (power : Power) : State :=
  { State.reset with
    power := power, agenda := s.agenda, free := s.free, nv := s.nv, pkgidNew := s.pkgidNew, pkgid := s.pkgid, held := s.held
    stpass := s.stpass, shockAtPower := s.shockAtPower, kettle := s.kettle, nonces := s.nonces
    cores := (s.cores.filter (fun (e : Nat × Core) => e.2.scan.count ≠ 0)).map (fun (e : Nat × Core) =>
      (e.1, { Core.init with scan := { Scan.init with count := e.2.scan.count } })) }

/-- POWER_FAIL (R508): after its record, every context and all work is lost. -/
def execPowerFail (s : State) : Host.Outcome State Fault Refusal :=
  .next (if s.power = .off then s else blank (keepRecord s (hubEvent .powerFail 3 7)) .off)

/-- MEAS: the chain extended by a hash (R522). -/
def extendMeas (m h : List Byte) : List Byte := Config.sha256 (m ++ h)

/-- The map in force as MAPCUR shows it (R506). -/
def mapBytes (s : State) : List Byte := toLE 40 s.mask.toNat ++ toLE 8 s.epoch

/-- The records kept in the non-volatile store stand in PLOG again (R506). -/
def restorePlog (s : State) : State :=
  let bs := s.nv.plog
  { s with plogCount := bs.length
           plog := putBytes (putBytes [] 0 (toLE 8 bs.length)) 0x40 bs.flatten }

/-- DEVICE_RESET (R522): the boot ROM verifies the firmware; the firmware extends MEAS and chooses the self-test (R516).  At
a power-on SHOCK is copied from the sensor. -/
def execDeviceReset (s : State) : Host.Outcome State Fault Refusal :=
  let powerOn : Bool := s.power = .reset || s.power = .off
  let n := s.free
  let t := { blank s .reset with free := n + 1, shockAtPower := if powerOn then s.nv.shock else s.shockAtPower
                                 mask := s.nv.mask, epoch := s.nv.epoch, podid := s.nv.podid, ipaddr := s.nv.ipaddr
                                 streq := s.nv.streq }
  .next (if !Config.firmwareAccepted n then { t with power := .recovery }
    else
      let m := extendMeas (extendMeas (extendMeas t.meas (Config.firmwareHash n)) (Config.sha256 (policy 0 1024)))
        (Config.sha256 (mapBytes t))
      restorePlog { t with meas := m, power := .booting (t.shockAtPower || t.nv.streq) })

/-- STPASS and HELD as the test leaves them (R516). -/
def testVerdict (s : State) (pass otherFail : Bool) : State :=
  { s with stpass := pass, held := if otherFail then true else if pass then false else s.held }

/-- What a full test clears: the request and the latched shock (R516, R517). -/
def clearRequest (s : State) : State :=
  { s with streq := false, nv := { s.nv with streq := false, shock := false } }

/-- The record of a full test. -/
def testRecord (pass otherFail : Bool) : ErrRec :=
  { hubEvent .selfTest (if otherFail then 5 else if pass then 0 else 4) 7 with
    detail := Config.openDetail (MachineEvent.selfTest.ctorIdx) (b2n pass) (b2n otherFail) }

/-- The device begins to run, under the PKGID last written. -/
def enterRunning (s : State) : State := { s with power := .running, pkgid := s.pkgidNew }

/-- SELF_TEST_COMPLETE (R516): failing cores are retired, another failure sets HELD, and the package runs: its UALink ports
are up, so that PKGID is in effect (R386), and IPADDR is put in effect again (R379). -/
def execSelfTestComplete (failedCores : List Nat) (otherFail : Bool) (s : State) : Host.Outcome State Fault Refusal :=
  .next (match s.power with
    | .booting full =>
      let bad := failedCores.dedup.filter (inService s)
      let pass : Bool := bad = [] && !otherFail
      let s := testVerdict (bad.foldl retireCore s) pass otherFail
      let s := enterRunning (if full then writeRecord (clearRequest s) (testRecord pass otherFail) else s)
      if s.nv.ipSet then startAddress s else s
    | _ => s)

end Sys2Proof.Machine
end

