-- ==== Sys2Proof/Machine/Dispatch.lean ====
section
/-!
DEFINITION. The dispatch of the opcode table: one arm per constructor, one meaning per arm.
-/

namespace Sys2Proof.Machine

open Sys2Proof

def exec (i : Instr) (s : State) : Host.Outcome State Fault Refusal :=
  match i with
  | .nop f => Sys2Proof.Machine.execNop f s
  | .bra f => Sys2Proof.Machine.execBra f s
  | .brx f => Sys2Proof.Machine.execBrx f s
  | .call f => Sys2Proof.Machine.execCall f s
  | .callx f => Sys2Proof.Machine.execCallx f s
  | .ret f => Sys2Proof.Machine.execRet f s
  | .exit f => Sys2Proof.Machine.execExit f s
  | .yield f => Sys2Proof.Machine.execYield f s
  | .sleep f => Sys2Proof.Machine.execSleep f s
  | .partset f => Sys2Proof.Machine.execPartset f s
  | .partget f => Sys2Proof.Machine.execPartget f s
  | .rjopen f => Sys2Proof.Machine.execRjopen f s
  | .rjopenMask f => Sys2Proof.Machine.execRjopenMask f s
  | .rjjoin f => Sys2Proof.Machine.execRjjoin f s
  | .rjquit f => Sys2Proof.Machine.execRjquit f s
  | .rjwait f => Sys2Proof.Machine.execRjwait f s
  | .rjtest f => Sys2Proof.Machine.execRjtest f s
  | .rjmask f => Sys2Proof.Machine.execRjmask f s
  | .rjclose f => Sys2Proof.Machine.execRjclose f s
  | .orphanedSetTrap wg warp => Sys2Proof.Machine.execOrphanedSetTrap wg warp s
  | .iadd f => Sys2Proof.Machine.execIadd f s
  | .isum3 f => Sys2Proof.Machine.execIsum3 f s
  | .isub f => Sys2Proof.Machine.execIsub f s
  | .ineg f => Sys2Proof.Machine.execIneg f s
  | .iabs f => Sys2Proof.Machine.execIabs f s
  | .imin f => Sys2Proof.Machine.execImin f s
  | .imax f => Sys2Proof.Machine.execImax f s
  | .isat f => Sys2Proof.Machine.execIsat f s
  | .icmp f => Sys2Proof.Machine.execIcmp f s
  | .sel f => Sys2Proof.Machine.execSel f s
  | .lea f => Sys2Proof.Machine.execLea f s
  | .imul f => Sys2Proof.Machine.execImul f s
  | .imulh f => Sys2Proof.Machine.execImulh f s
  | .imad f => Sys2Proof.Machine.execImad f s
  | .imadw f => Sys2Proof.Machine.execImadw f s
  | .idiv f => Sys2Proof.Machine.execIdiv f s
  | .irem f => Sys2Proof.Machine.execIrem f s
  | .and f => Sys2Proof.Machine.execAnd f s
  | .or f => Sys2Proof.Machine.execOr f s
  | .xor f => Sys2Proof.Machine.execXor f s
  | .not f => Sys2Proof.Machine.execNot f s
  | .blut f => Sys2Proof.Machine.execBlut f s
  | .plut f => Sys2Proof.Machine.execPlut f s
  | .pmovGet f => Sys2Proof.Machine.execPmovGet f s
  | .pmovSet f => Sys2Proof.Machine.execPmovSet f s
  | .mov f => Sys2Proof.Machine.execMov f s
  | .movi f => Sys2Proof.Machine.execMovi f s
  | .movk f => Sys2Proof.Machine.execMovk f s
  | .shl f => Sys2Proof.Machine.execShl f s
  | .shr f => Sys2Proof.Machine.execShr f s
  | .sar f => Sys2Proof.Machine.execSar f s
  | .fshl f => Sys2Proof.Machine.execFshl f s
  | .fshr f => Sys2Proof.Machine.execFshr f s
  | .bfe f => Sys2Proof.Machine.execBfe f s
  | .bfi f => Sys2Proof.Machine.execBfi f s
  | .brev f => Sys2Proof.Machine.execBrev f s
  | .popc f => Sys2Proof.Machine.execPopc f s
  | .clz f => Sys2Proof.Machine.execClz f s
  | .ctz f => Sys2Proof.Machine.execCtz f s
  | .sext f => Sys2Proof.Machine.execSext f s
  | .zext f => Sys2Proof.Machine.execZext f s
  | .fadd f => Sys2Proof.Machine.execFadd f s
  | .fsub f => Sys2Proof.Machine.execFsub f s
  | .fmul f => Sys2Proof.Machine.execFmul f s
  | .ffma f => Sys2Proof.Machine.execFfma f s
  | .fmin f => Sys2Proof.Machine.execFmin f s
  | .fmax f => Sys2Proof.Machine.execFmax f s
  | .fcmp f => Sys2Proof.Machine.execFcmp f s
  | .fclass f => Sys2Proof.Machine.execFclass f s
  | .frnd f => Sys2Proof.Machine.execFrnd f s
  | .fscale f => Sys2Proof.Machine.execFscale f s
  | .fdot f => Sys2Proof.Machine.execFdot f s
  | .fcvt f => Sys2Proof.Machine.execFcvt f s
  | .fcvts f => Sys2Proof.Machine.execFcvts f s
  | .f2i f => Sys2Proof.Machine.execF2i f s
  | .i2f f => Sys2Proof.Machine.execI2f f s
  | .fpack f => Sys2Proof.Machine.execFpack f s
  | .funpack f => Sys2Proof.Machine.execFunpack f s
  | .rand f => Sys2Proof.Machine.execRand f s
  | .frcp f => Sys2Proof.Machine.execFrcp f s
  | .frsq f => Sys2Proof.Machine.execFrsq f s
  | .fsqrt f => Sys2Proof.Machine.execFsqrt f s
  | .fdiv f => Sys2Proof.Machine.execFdiv f s
  | .fexp2 f => Sys2Proof.Machine.execFexp2 f s
  | .flog2 f => Sys2Proof.Machine.execFlog2 f s
  | .fsin f => Sys2Proof.Machine.execFsin f s
  | .fcos f => Sys2Proof.Machine.execFcos f s
  | .ftanh f => Sys2Proof.Machine.execFtanh f s
  | .vote f => Sys2Proof.Machine.execVote f s
  | .shfl f => Sys2Proof.Machine.execShfl f s
  | .redux f => Sys2Proof.Machine.execRedux f s
  | .scan f => Sys2Proof.Machine.execScan f s
  | .matchL f => Sys2Proof.Machine.execMatchL f s
  | .sdef f => Sys2Proof.Machine.execSdef f s
  | .sseek f => Sys2Proof.Machine.execSseek f s
  | .spos f => Sys2Proof.Machine.execSpos f s
  | .sflag f => Sys2Proof.Machine.execSflag f s
  | .chain f => Sys2Proof.Machine.execChain f s
  | .ld f => Sys2Proof.Machine.execLd f s
  | .st f => Sys2Proof.Machine.execSt f s
  | .ldk f => Sys2Proof.Machine.execLdk f s
  | .ldpk f => Sys2Proof.Machine.execLdpk f s
  | .stpk f => Sys2Proof.Machine.execStpk f s
  | .pref f => Sys2Proof.Machine.execPref f s
  | .stpair f => Sys2Proof.Machine.execStpair f s
  | .lds f => Sys2Proof.Machine.execLds f s
  | .sts f => Sys2Proof.Machine.execSts f s
  | .ldq f => Sys2Proof.Machine.execLdq f s
  | .stq f => Sys2Proof.Machine.execStq f s
  | .ldmc f => Sys2Proof.Machine.execLdmc f s
  | .atom f => Sys2Proof.Machine.execAtom f s
  | .atomf f => Sys2Proof.Machine.execAtomf f s
  | .lr f => Sys2Proof.Machine.execLr f s
  | .sc f => Sys2Proof.Machine.execSc f s
  | .red f => Sys2Proof.Machine.execRed f s
  | .redf f => Sys2Proof.Machine.execRedf f s
  | .lrHoldExpiry granule => Sys2Proof.Machine.execLrHoldExpiry granule s
  | .fence f => Sys2Proof.Machine.execFence f s
  | .bind f => Sys2Proof.Machine.execBind f s
  | .unbind f => Sys2Proof.Machine.execUnbind f s
  | .acq f => Sys2Proof.Machine.execAcq f s
  | .acqGe f => Sys2Proof.Machine.execAcqGe f s
  | .acqGeWake wg warp => Sys2Proof.Machine.execAcqGeWake wg warp s
  | .rel f => Sys2Proof.Machine.execRel f s
  | .bar f => Sys2Proof.Machine.execBar f s
  | .bara f => Sys2Proof.Machine.execBara f s
  | .barw f => Sys2Proof.Machine.execBarw f s
  | .rrmodeOff f => Sys2Proof.Machine.execRrmodeOff f s
  | .rrmodeRec f => Sys2Proof.Machine.execRrmodeRec f s
  | .rrmodePlay f => Sys2Proof.Machine.execRrmodePlay f s
  | .ordgate f => Sys2Proof.Machine.execOrdgate f s
  | .carve f => Sys2Proof.Machine.execCarve f s
  | .cwb f => Sys2Proof.Machine.execCwb f s
  | .cinv f => Sys2Proof.Machine.execCinv f s
  | .cinvI f => Sys2Proof.Machine.execCinvI f s
  | .mxacq f => Sys2Proof.Machine.execMxacq f s
  | .mxrel f => Sys2Proof.Machine.execMxrel f s
  | .engineRelease core => Sys2Proof.Machine.execEngineRelease core s
  | .tdesc f => Sys2Proof.Machine.execTdesc f s
  | .tmaskSet f => Sys2Proof.Machine.execTmaskSet f s
  | .tmaskFirst f => Sys2Proof.Machine.execTmaskFirst f s
  | .gdecl f => Sys2Proof.Machine.execGdecl f s
  | .tamax f => Sys2Proof.Machine.execTamax f s
  | .tscupd f => Sys2Proof.Machine.execTscupd f s
  | .tmma f => Sys2Proof.Machine.execTmma f s
  | .tmmab f => Sys2Proof.Machine.execTmmab f s
  | .tact f => Sys2Proof.Machine.execTact f s
  | .tew f => Sys2Proof.Machine.execTew f s
  | .tred f => Sys2Proof.Machine.execTred f s
  | .ttrans f => Sys2Proof.Machine.execTtrans f s
  | .tscl f => Sys2Proof.Machine.execTscl f s
  | .tcvt f => Sys2Proof.Machine.execTcvt f s
  | .tzero f => Sys2Proof.Machine.execTzero f s
  | .taccld f => Sys2Proof.Machine.execTaccld f s
  | .taccst f => Sys2Proof.Machine.execTaccst f s
  | .tdrain f => Sys2Proof.Machine.execTdrain f s
  | .tcopy f => Sys2Proof.Machine.execTcopy f s
  | .tcopyTile f => Sys2Proof.Machine.execTcopyTile f s
  | .tgather f => Sys2Proof.Machine.execTgather f s
  | .tscatter f => Sys2Proof.Machine.execTscatter f s
  | .tcoll f => Sys2Proof.Machine.execTcoll f s
  | .hwait f => Sys2Proof.Machine.execHwait f s
  | .htest f => Sys2Proof.Machine.execHtest f s
  | .hcancel f => Sys2Proof.Machine.execHcancel f s
  | .hsleep f => Sys2Proof.Machine.execHsleep f s
  | .hstat f => Sys2Proof.Machine.execHstat f s
  | .recbegin f => Sys2Proof.Machine.execRecbegin f s
  | .recend f => Sys2Proof.Machine.execRecend f s
  | .recmark f => Sys2Proof.Machine.execRecmark f s
  | .reverse f => Sys2Proof.Machine.execReverse f s
  | .logq f => Sys2Proof.Machine.execLogq f s
  | .trap f => Sys2Proof.Machine.execTrap f s
  | .eret f => Sys2Proof.Machine.execEret f s
  | .mfs f => Sys2Proof.Machine.execMfs f s
  | .mtsWcr f => Sys2Proof.Machine.execMtsWcr f s
  | .mtsXflagsClear f => Sys2Proof.Machine.execMtsXflagsClear f s
  | .mtsFmt f => Sys2Proof.Machine.execMtsFmt f s
  | .mtsAmr f => Sys2Proof.Machine.execMtsAmr f s
  | .mtsSc f => Sys2Proof.Machine.execMtsSc f s
  | .mtsMx f => Sys2Proof.Machine.execMtsMx f s
  | .cycrd f => Sys2Proof.Machine.execCycrd f s
  | .launch f => Sys2Proof.Machine.execLaunch f s
  | .tlbi f => Sys2Proof.Machine.execTlbi f s
  | .tlbiAcknowledge wg warp => Sys2Proof.Machine.execTlbiAcknowledge wg warp s
  | .scango f => Sys2Proof.Machine.execScango f s
  | .scanpoll f => Sys2Proof.Machine.execScanpoll f s
  | .scanstop f => Sys2Proof.Machine.execScanstop f s
  | .coreret f => Sys2Proof.Machine.execCoreret f s
  | .halt f => Sys2Proof.Machine.execHalt f s
  | .icacheFill core asid va => Sys2Proof.Machine.execIcacheFill core asid va s
  | .variableLatencyCompletion wg warp idx => Sys2Proof.Machine.execVariableLatencyCompletion wg warp idx s
  | .fairnessOverdue wg warp pc => Sys2Proof.Machine.execFairnessOverdue wg warp pc s
  | .sleepWake wg warp wake => Sys2Proof.Machine.execSleepWake wg warp wake s
  | .hsleepWake wg warp wake => Sys2Proof.Machine.execHsleepWake wg warp wake s
  | .infuserCommandStart core => Sys2Proof.Machine.execInfuserCommandStart core s
  | .nativeStepComplete core => Sys2Proof.Machine.execNativeStepComplete core s
  | .engineCommandCompletion ctx => Sys2Proof.Machine.execEngineCommandCompletion ctx s
  | .collectiveComplete group remote => Sys2Proof.Machine.execCollectiveComplete group remote s
  | .reportedTrapDelivery wg warp => Sys2Proof.Machine.execReportedTrapDelivery wg warp s
  | .atomicUnitOperation idx => Sys2Proof.Machine.execAtomicUnitOperation idx s
  | .replayDivergence ctx entry => Sys2Proof.Machine.execReplayDivergence ctx entry s
  | .pageWalkComplete asid va => Sys2Proof.Machine.execPageWalkComplete asid va s
  | .remoteTimeout wg warp => Sys2Proof.Machine.execRemoteTimeout wg warp s
  | .ualinkRemoteRequest req => Sys2Proof.Machine.execUalinkRemoteRequest req s
  | .yieldRequest core => Sys2Proof.Machine.execYieldRequest core s
  | .workgroupSave wg => Sys2Proof.Machine.execWorkgroupSave wg s
  | .safePointOverdue wg => Sys2Proof.Machine.execSafePointOverdue wg s
  | .safePointSecondBudget wg => Sys2Proof.Machine.execSafePointSecondBudget wg s
  | .bindCreate core => Sys2Proof.Machine.execBindCreate core s
  | .bindResume core => Sys2Proof.Machine.execBindResume core s
  | .bindWithdrawCore core => Sys2Proof.Machine.execBindWithdrawCore core s
  | .bindReturnCore core => Sys2Proof.Machine.execBindReturnCore core s
  | .workgroupRetire wg => Sys2Proof.Machine.execWorkgroupRetire wg s
  | .launchRecordTake ctx queue => Sys2Proof.Machine.execLaunchRecordTake ctx queue s
  | .workgroupPlacement lslot => Sys2Proof.Machine.execWorkgroupPlacement lslot s
  | .launchFinish lslot => Sys2Proof.Machine.execLaunchFinish lslot s
  | .deterministicMerge wg => Sys2Proof.Machine.execDeterministicMerge wg s
  | .bufferFullRelease wg => Sys2Proof.Machine.execBufferFullRelease wg s
  | .coreRenumber core => Sys2Proof.Machine.execCoreRenumber core s
  | .scanComplete core => Sys2Proof.Machine.execScanComplete core s
  | .scanAbort core => Sys2Proof.Machine.execScanAbort core s
  | .write fr => Sys2Proof.Machine.execWrite fr s
  | .read fr => Sys2Proof.Machine.execRead fr s
  | .release fr => Sys2Proof.Machine.execRelease fr s
  | .launchFrame fr => Sys2Proof.Machine.execLaunchFrame fr s
  | .mgmtRead fr => Sys2Proof.Machine.execMgmtRead fr s
  | .mgmtWrite fr => Sys2Proof.Machine.execMgmtWrite fr s
  | .mgmtWritePkgid fr => Sys2Proof.Machine.execMgmtWritePkgid fr s
  | .mgmtWritePodid fr => Sys2Proof.Machine.execMgmtWritePodid fr s
  | .mgmtWriteIpctl fr => Sys2Proof.Machine.execMgmtWriteIpctl fr s
  | .mgmtWriteGroup fr => Sys2Proof.Machine.execMgmtWriteGroup fr s
  | .ipaddrDadComplete dup => Sys2Proof.Machine.execIpaddrDadComplete dup s
  | .mailboxAckTimer sess => Sys2Proof.Machine.execMailboxAckTimer sess s
  | .neighbourDiscovery peer pk => Sys2Proof.Machine.execNeighbourDiscovery peer pk s
  | .icmpv6Echo peer pk => Sys2Proof.Machine.execIcmpv6Echo peer pk s
  | .hostLinkUp up => Sys2Proof.Machine.execHostLinkUp up s
  | .hello fr => Sys2Proof.Machine.execHello fr s
  | .prove fr => Sys2Proof.Machine.execProve fr s
  | .proveTimeout idx => Sys2Proof.Machine.execProveTimeout idx s
  | .claim fr => Sys2Proof.Machine.execClaim fr s
  | .handover fr => Sys2Proof.Machine.execHandover fr s
  | .close fr => Sys2Proof.Machine.execClose fr s
  | .electionWindowClose => Sys2Proof.Machine.execElectionWindowClose s
  | .ownershipLapse => Sys2Proof.Machine.execOwnershipLapse s
  | .load ctx => Sys2Proof.Machine.execLoad ctx s
  | .unload ctx => Sys2Proof.Machine.execUnload ctx s
  | .installSupervisor ctx => Sys2Proof.Machine.execInstallSupervisor ctx s
  | .setSavePool ctx => Sys2Proof.Machine.execSetSavePool ctx s
  | .qpfTranslationComplete ctx load kix res => Sys2Proof.Machine.execQpfTranslationComplete ctx load kix res s
  | .supplyDroop level => Sys2Proof.Machine.execSupplyDroop level s
  | .supplyLevelRecovery => Sys2Proof.Machine.execSupplyLevelRecovery s
  | .holdEntry => Sys2Proof.Machine.execHoldEntry s
  | .holdExit cycles => Sys2Proof.Machine.execHoldExit cycles s
  | .powerFail => Sys2Proof.Machine.execPowerFail s
  | .linkRetrain link => Sys2Proof.Machine.execLinkRetrain link s
  | .linkRetrainComplete link lanes => Sys2Proof.Machine.execLinkRetrainComplete link lanes s
  | .softError e => Sys2Proof.Machine.execSoftError e s
  | .errorEventCount kind inst => Sys2Proof.Machine.execErrorEventCount kind inst s
  | .errorWindowClose kind inst => Sys2Proof.Machine.execErrorWindowClose kind inst s
  | .cntWrite k value => Sys2Proof.Machine.execCntWrite k value s
  | .streqWrite value => Sys2Proof.Machine.execStreqWrite value s
  | .mapCommit => Sys2Proof.Machine.execMapCommit s
  | .mapApply => Sys2Proof.Machine.execMapApply s
  | .hubRegisterWrite off data => Sys2Proof.Machine.execHubRegisterWrite off data s
  | .deviceReset => Sys2Proof.Machine.execDeviceReset s
  | .selfTestComplete failedCores otherFail => Sys2Proof.Machine.execSelfTestComplete failedCores otherFail s
  | .tamperAlarm => Sys2Proof.Machine.execTamperAlarm s
  | .glitchAlarm => Sys2Proof.Machine.execGlitchAlarm s
  | .malformedFrame fr => Sys2Proof.Machine.execMalformedFrame fr s
  | .writePerformedAtL2 core line => Sys2Proof.Machine.execWritePerformedAtL2 core line s
  | .endToEndCrcMismatch what n => Sys2Proof.Machine.execEndToEndCrcMismatch what n s
  | .shockSensorLatch => Sys2Proof.Machine.execShockSensorLatch s

end Sys2Proof.Machine
end

