-- ==== Sys2Proof/Machine/Due.lean ====
section
/-!
DEFINITION. The events that are due: what the device does by itself in a cycle, before anything issues.  Each comes from its
own ready-test; an event that is due always changes the state.
-/

namespace Sys2Proof.Machine

open Sys2Proof

/-- Events of one warp (R45, R61, R88, R228, R280, R324, R456, R475, R498). -/
def dueWarp (s : State) (e : Nat × Warp) : Option Instr :=
  let wg := e.1 / 32
  let w := e.1 % 32
  let x := e.2
  let now := s.now
  let g := s.getWg wg
  let wakes (p : HoldKind → Bool) : Option Nat := x.lanes.findSome? (fun (y : Nat × Lane) =>
    y.2.hold.bind (fun h => if p h.kind && h.wake ≤ now then some h.wake else none))
  let es := x.table ++ x.aside
  let timedOut (y : Entry) : Bool := match y.wait with | .remote a d => d ≤ now && d < a | _ => false
  let fair := x.fairness
  match x.pend.find? (fun b => b.isVar && b.awaits = 0 && b.due ≤ now) with
  | some b => if g.isSaved then none else some (.variableLatencyCompletion wg w b.idx)
  | none =>
    if !g.alive then none
    else
      match wakes (fun k => k = .sleep) with
      | some t => some (.sleepWake wg w t)
      | none =>
        match (if wbQueued s g.core then none else wakes (fun k => match k with | .hsleep _ => true | _ => false)) with
        | some t => some (.hsleepWake wg w t)
        | none =>
          match x.table.find? (fun y => fair ≤ y.fair && !y.overdue) with
          | some y => some (.fairnessOverdue wg w y.pc.toNat)
          | none =>
            if es.any timedOut then some (.remoteTimeout wg w)
            else if es.any (seqChanged s wg) then some (.acqGeWake wg w)
            else if x.reports = [] || g.det.held then none
            else if (reportHeir s wg w).isSome then some (.reportedTrapDelivery wg w)
            else if x.owes then none
            else (nextReport x (fun _ => true)).map (fun r =>
              if isOrphan r then .orphanedSetTrap wg w else .reportedTrapDelivery wg w)

/-- A line that an invalidation is to take out, and that no LR hold keeps (R149, R277). -/
def sweepable (s : State) (v : Inval) : Bool :=
  v.hi ≠ 0 && s.cores.any (fun (c : Nat × Core) => c.2.l1tag.any (fun t =>
    v.line c.2 (t.1 * 128) && !(c.2.l1.any (fun b => b.1 / 128 = t.1 && dirtyHeld s b))))

/-- Events of the memory system: LR holds, atomic units, replay gates, walks and invalidations (R141, R148, R149, R277,
R484). -/
def dueMemory (s : State) : Option Instr :=
  match s.holdsLR.find? (holdExpired s) with
  | some h => some (.lrHoldExpiry h.granule)
  | none =>
    match nextAtom s with
    | some i => some (.atomicUnitOperation i)
    | none =>
      match s.ctxs.findSome? (fun (c : Nat × Ctx) => (List.find? (fun (r : Nat × Region) => r.2.valid && r.2.rrm = 2 &&
          diverged s c.1 r.1) c.2.regions).map (fun r => (c.1, r.1))) with
      | some r => some (.replayDivergence r.1 r.2)
      | none =>
        match s.walks with
        | w :: _ => some (.pageWalkComplete w.asid w.va)
        | [] => (s.invals.find? (fun v => (ackReady s v.wg v.warp).isSome || sweepable s v)).map (fun v => .tlbiAcknowledge v.wg v.warp)

/-- Events of the engines (R300, R302, R305). -/
def dueEngine (s : State) : Option Instr :=
  match s.cores.findSome? (fun (c : Nat × Core) =>
      if stepReady s c.1 then some (Instr.nativeStepComplete c.1)
      else if infuserReady s c.1 then some (.infuserCommandStart c.1)
      else if releasable s c.1 then some (.engineRelease c.1)
      else none) with
  | some i => some i
  | none => (List.find? (fun (e : Nat × Eng) => headDue s e.2) s.engs).map (fun (e : Nat × Eng) => .engineCommandCompletion e.1)

/-- A collective that this package can end by itself (R321, R389). -/
def dueCollective (s : State) : Option Nat :=
  (s.engs.flatMap (fun (e : Nat × Eng) => e.2.queue.filterMap (fun c => match c.instr with
    | .tcoll f => some (collGroup f)
    | _ => none))).find? (soloColl s)

/-- The bind record that its die's dispatch unit carries out next (R368). -/
def dueBind (s : State) : Option Instr :=
  s.slots.findSome? (fun (d : Nat × List Bind) => d.2.findSome? (fun b =>
    if firstBind s b.core ≠ some b then none
    else if b.kind = 0 then (if createReady s b then some (.bindCreate b.core) else none)
    else if b.kind = 1 then (if resumeReady s b then some (.bindResume b.core) else none)
    else if b.kind = 2 then (if yieldAsks s b then some (.yieldRequest b.core) else none)
    else if b.kind = 3 then some (.bindWithdrawCore b.core)
    else some (.bindReturnCore b.core)))

/-- Events of the workgroups: merges, retirement, saves and overdue safe points (R37, R94, R175, R177, R462). -/
def dueWorkgroup (s : State) : Option Instr :=
  s.wgs.findSome? (fun (e : Nat × Wg) =>
    if mergeReady s e.1 then some (Instr.deterministicMerge e.1)
    else if bufferReady s e.1 then some (.bufferFullRelease e.1)
    else if retireReady s e.1 then some (.workgroupRetire e.1)
    else if e.2.stopping && saveReady s e.1 then some (.workgroupSave e.1)
    else if firstOverdue s e.1 then some (.safePointOverdue e.1)
    else if secondOverdue s e.1 then some (.safePointSecondBudget e.1)
    else none)

/-- The heads of a context's queues whose record has a priority, as (identifier, queue). -/
def headsAt (c : Ctx) (prio : Nat) : List (Nat × Nat) :=
  c.queues.filterMap (fun (q : Nat × List QRec) =>
    q.2.head?.bind (fun r => if leAt r.bytes 6 1 % 4 = prio then some (r.lid, q.1) else none))

/-- The queued record that enters the launch table next (R365, R373): the highest priority first, the contexts in turn, and of a context
the lowest identifier. -/
def nextRecord (s : State) : Option (Nat × Nat) :=
  if 1024 ≤ s.launches.length || s.ctxs.all (fun (c : Nat × Ctx) => c.2.queues.all (fun (q : Nat × List QRec) => q.2 = [])) then none
  else
    [3, 2, 1, 0].findSome? (fun prio => (ctxOrder s (4 + prio)).findSome? (fun c =>
      ((headsAt (s.getCtx c) prio).foldl (fun (a : Option (Nat × Nat)) h =>
        match a with
        | none => some h
        | some x => if h.1 < x.1 then some h else a) none).map (fun h => (c, h.2))))

/-- Events of launches: a record is taken, checked, placed or finished (R365 to R373, R407). -/
def dueLaunch (s : State) : Option Instr :=
  match nextRecord s with
  | some (c, q) => some (.launchRecordTake c q)
  | none =>
    if s.launches = [] then none
    else
      match s.launches.findSome? (fun (l : Nat × Launch) =>
          if launchDone s l.1 then some (Instr.launchFinish l.1)
          else if checkDue s l.1 || (swapVictim s l.1).isSome then some (.workgroupPlacement l.1)
          else none) with
      | some i => some i
      | none =>
        match nextPlan s (turns s) with
        | some (_, .abort p) => some (.scanAbort p)
        | some (l, _) => some (.workgroupPlacement l)
        | none => none

/-- Load requests (R393). -/
def dueLoad (s : State) : Option Instr :=
  s.ctxs.findSome? (fun (c : Nat × Ctx) => (headReq s c.1).map (fun r =>
    if r.opc = 2 then .unload c.1 else if r.opc = 3 then .installSupervisor c.1 else if r.opc = 4 then .setSavePool c.1
    else .load c.1))

/-- Scans, retirement and the core map (R18, R357, R515, R518). -/
def dueCore (s : State) : Option Instr :=
  match s.cores.findSome? (fun (c : Nat × Core) =>
      if scanOver s c.1 || (c.2.scan.why ≠ 0 && lastingNext s c.1 ≠ .nothing) then some (Instr.scanComplete c.1)
      else if c.2.retiring && renumberReady s c.1 then some (.coreRenumber c.1)
      else none) with
  | some i => some i
  | none => if mapReady s then some .mapApply else none

/-- Timers of the hub (R379, R382, R508, R514, R519, R521). -/
def dueTimer (s : State) : Option Instr :=
  match List.find? (fun (e : Nat × ErrCount) => windowOver s e.2) s.errs with
  | some e => some (.errorWindowClose (e.1 / 2 ^ 32) (e.1 % 2 ^ 32))
  | none =>
    match s.sessions.find? (ackDue s) with
    | some x => some (.mailboxAckTimer x.id)
    | none =>
      match (List.range s.handshakes.length).find? (fun i => match s.handshakes[i]? with | some h => handshakeOver s h | none => false) with
      | some i => some (.proveTimeout i)
      | none =>
        if electionOver s then some .electionWindowClose
        else if ownerLapsed s then some .ownershipLapse
        else if s.ipctl = 1 && s.dadEnd ≤ s.now then some (.ipaddrDadComplete (Config.duplicateAddress s.now))
        else if holdDue s then some .holdEntry
        else none

/-- The event that is due next, if any, while the package runs. -/
def due (s : State) : Option Instr :=
  (s.warps.findSome? (dueWarp s)).or <| (dueMemory s).or <| (dueEngine s).or <| (dueWorkgroup s).or <| (dueBind s).or <|
  (dueLaunch s).or <| (dueLoad s).or <| (dueCore s).or (dueTimer s)

end Sys2Proof.Machine
end

