-- ==== Sys2Proof/Machine/Schedule.lean ====
section
/-!
DEFINITION. Issue: what an entry would do in this cycle (R39, R42, R59, R191, R402, R445 steps 1 and 2, R449, R459, R474),
which warp and which entry a partition chooses (R42, R43, R45), the events from outside that can be applied now, and the
end of a cycle (R16, R195, R196, R258).
-/

namespace Sys2Proof.Machine

open Sys2Proof

/-! ### What an entry would do -/

/-- What an entry does next. -/
inductive Todo where
  /-- its bundle is fetched first -/
  | fill (va : Nat)
  /-- it stops under a pending yield -/
  | stop
  /-- it traps before anything issues, with these active lanes; `refetch` when its line is forgotten -/
  | trap (t : Trap) (amask : LaneSet) (refetch : Bool)
  /-- it issues this, and goes on at `npc`; `base` is the bundle or the QPF word -/
  | run (i : Instr) (npc base : Nat)
  deriving DecidableEq, Repr

/-- The entry does not wait for anything but tokens and registers. -/
def Entry.awake (e : Entry) (s : State) : Bool :=
  e.stall = 0 && e.owed = [] &&
  (match e.wait with
   | .none | .undelivered _ => true
   | .remote a _ => a ≤ s.now
   | .seq _ _ => false)

/-- Every wait token that WM names has cleared (R42, R88). -/
def tokensClear (x : Warp) (f : Fields) : Bool :=
  (List.range 6).all (fun i => !bitB f.wm.toNat i || x.token (i + 1) = 0)

/-- A register that the interlock holds on a token WM does not name (R198): with `wcr.chk` set, the instruction issues and
traps.  Its active lanes are those of the guard as it stands. [DEDUCED; log entry 121] -/
def checkedEarly (c : Iss) (i : Instr) : Bool :=
  c.warp.chk && c.act ≠ [] &&
  (uses c i).any (fun u => c.warp.pend.any (fun b => b.holdsBack u && b.token ≠ 0 && !named c.f b.token))

/-- Nothing under way keeps a native instruction from issuing (R88, R197). -/
def nativeFree (c : Iss) (i : Instr) : Bool :=
  tokensClear c.warp c.f && (!interlocked c i || checkedEarly c i) &&
  (c.f.st = 0 || c.f.st = 7 || c.warp.token c.f.st.toNat < 15)

/-- A QPF word waits for every operand, fixed or variable (R203). -/
def portableFree (c : Iss) (i : Instr) : Bool :=
  !(uses c i).any (fun u => c.warp.pend.any (fun b => b.touches u.keys || b.reads.any (fun x => u.writes.contains x)))

/-- The trap of reason 0x05 of class 0x05: the PC is the start of no instruction (R459). -/
def interiorTrap (e : Entry) (off : Nat) : Todo := .trap { cls := 5, reason := 5, info := off, fmask := e.mask } e.mask false

/-- A stopping point for lanes that are not between BARA and BARW (R59, R282). -/
def stopsHere (x : Warp) (e : Entry) (sp : Bool) : Bool := x.yp && !x.modeS && (sp || e.backward) && e.mayStop x

/-- A whole-word failure of R443: reason, field and what it holds. -/
def wordTrap (x : Warp) (f : Fields) (op fn : Nat) (m : LaneSet) (reason : Nat) (fld : Fld) (value : Nat) : Todo :=
  let a := laneSet (guarded x f m)
  .trap { cls := 1, reason := reason, info := op + fn * 2 ^ 8 + fld.code * 2 ^ 12 + value % 2 ^ 32 * 2 ^ 16, fmask := a } a false

/-- The QPF word at a section offset is a safe point: a backward transfer of the section reaches it (R203). -/
def isBackTarget (s : State) (wg off : Nat) : Bool := (s.wgKernel wg).any (fun k => k.backs.contains off)

/-- What the entry would issue: fields `f` of `i`, with its next instruction and its base. -/
def issueNow (s : State) (wg w : Nat) (x : Warp) (e : Entry) (i : Instr) (f : Fields) (npc base : Nat) : Iss :=
  let of := (opFn i).getD (0, 0)
  issueOf s { wg := wg, warp := w, pc := e.pc, npc := BitVec.ofNat 80 npc, base := BitVec.ofNat 80 base } x e f of.1 of.2

/-- An entry in native code whose line is there. -/
def todoNative (s : State) (wg w : Nat) (x : Warp) (e : Entry) (l : ICLine) : Option Todo :=
  let pc := e.pc.toNat
  match bundleForms l.bytes with
  | none => some (.trap { cls := 1, reason := 3, info := 8 * 2 ^ 12 + leAt l.bytes 0 4 * 2 ^ 16, fmask := e.mask } e.mask false)
  | some fs =>
    if !fs.contains (pc % 64) then some (interiorTrap e (pc - (sectionOf s wg x.modeS).1))
    else
      match expandForm (l.bytes.drop (pc % 64)) with
      | none => none
      | some (y, _) =>
        let f := fieldsOf y
        if stopsHere x e f.sp then some .stop
        else
          match selectInstr (wordOp y) (wordFn y) f with
          | none => if tokensClear x f then some (wordTrap x f (wordOp y) (wordFn y) e.mask 1 .whole 0) else none
          | some i =>
            let npc := nextInBundle l.bytes (pc / 64 * 64) (pc % 64)
            if nativeFree (issueNow s wg w x e i f npc (pc / 64 * 64)) i then some (.run i npc (pc / 64 * 64)) else none

/-- An entry in QPF code whose line is there (R203, R402, R447). -/
def todoPortable (s : State) (wg w : Nat) (x : Warp) (e : Entry) (l : ICLine) : Option Todo :=
  let pc := e.pc.toNat
  let off := pc - (sectionOf s wg x.modeS).1
  if off % 16 ≠ 0 then some (interiorTrap e off)
  else if stopsHere x e (isBackTarget s wg off) then some .stop
  else
    let q := qpfForm (l.bytes.drop (pc % 64))
    match q.instr with
    | none => some (wordTrap x q.f q.op q.fn e.mask 1 .whole 0)
    | some i =>
      match q.fails with
      | r :: _ => some (wordTrap x q.f q.op q.fn e.mask r.1 r.2.1 r.2.2)
      | [] => if portableFree (issueNow s wg w x e i q.f (pc + 16) pc) i then some (.run i (pc + 16) pc) else none

/-- What the entry does next, if it is ready (R42). -/
def todo (s : State) (wg w : Nat) (x : Warp) (e : Entry) : Option Todo :=
  let pc := e.pc.toNat
  let g := s.getWg wg
  if !e.awake s || (x.yp && !x.modeS && e.stopped && e.mayStop x) then none
  else
    match icLine s g.core (s.wgAsid wg) pc x.modeS with
    | none => some (.fill pc)
    | some l =>
      if l.fault ≠ 0 then some (.trap { cls := 6, reason := l.fault, info := pc, fmask := e.mask } e.mask true)
      else if l.poison then some (.trap { cls := 7, reason := 4, info := pc, fmask := e.mask } e.mask true)
      else if runsQpf s wg x.modeS then todoPortable s wg w x e l
      else todoNative s wg w x e l

/-! ### The choice (R42, R43, R45, R227) -/

/-- The entry of a warp that is to issue: an overdue ready one, else one that has not just yielded, else any; of these the
lowest PC.  A warp that has a trap to take issues nothing before it (R429, R498). -/
def chooseEntry (s : State) (wg w : Nat) (x : Warp) : Option (Entry × Todo) :=
  if (nextReport x (fun _ => true)).isSome then none
  else
    let ready := x.table.filterMap (fun e => (todo s wg w x e).map (fun t => (e, t)))
    (List.find? (fun r : Entry × Todo => r.1.overdue) ready).or <|
    (List.find? (fun r : Entry × Todo => !r.1.yielded) ready).or ready.head?

/-- A warp that could issue now, with its choice. -/
structure Ready where
  wg : Nat
  warp : Nat
  /-- partition of the package -/
  part : Nat
  /-- to be passed over if another is ready -/
  skip : Bool
  last : Nat
  slot : Nat
  entry : Entry
  todo : Todo
  deriving DecidableEq, Repr

/-- Partition of the package on which a warp runs. -/
def partOf (s : State) (wg : Nat) (x : Warp) : Nat := 4 * (s.getWg wg).core + x.part4

/-- The warps that are ready on partitions that have not issued in this cycle. -/
def readyWarps (s : State) : List Ready :=
  s.warps.filterMap (fun (y : Nat × Warp) =>
    let wg := y.1 / 32
    let g := s.getWg wg
    if !g.alive || g.det.held || s.served.contains (partOf s wg y.2) then none
    else (chooseEntry s wg (y.1 % 32) y.2).map (fun r =>
      { wg := wg, warp := y.1 % 32, part := partOf s wg y.2, skip := y.2.skip, last := y.2.lastIssue, slot := y.2.slot,
        entry := r.1, todo := r.2 }))

/-- Of two warps of one partition, `a` goes before `b`: one that is not to be passed over, then the longest without issuing
(R42); of warps that issued last in one cycle, the lower slot. [DESIGN CHOICE; log entry 122] -/
def Ready.before (a b : Ready) : Bool :=
  if a.skip ≠ b.skip then b.skip
  else if a.last ≠ b.last then a.last < b.last
  else a.slot < b.slot

/-- The warps that their partitions choose (R42). -/
def chosenWarps (s : State) : List Ready :=
  let rs := readyWarps s
  rs.filter (fun r => !rs.any (fun q => q.part = r.part && q.before r))

/-- The order in which the partitions issue within one cycle: by core, then by `%warp` (R77), then by partition.
[DESIGN CHOICE; log entry 122] -/
def Ready.sooner (a b : Ready) : Bool :=
  if a.part / 4 ≠ b.part / 4 then a.part / 4 < b.part / 4
  else if a.warp ≠ b.warp then a.warp < b.warp
  else a.part < b.part

/-- The warp that goes first. -/
def pick (s : State) : Option Ready :=
  (chosenWarps s).foldl (fun (a : Option Ready) r => match a with
    | none => some r
    | some x => if r.sooner x then some r else a) none

/-- The partition has passed its other warps over once, and the warp its other entries (R187, R227). -/
def passOver (s : State) (r : Ready) : State :=
  let s := { s with warps := s.warps.map (fun (y : Nat × Warp) =>
    if y.2.skip && partOf s (y.1 / 32) y.2 = r.part && y.1 ≠ warpKey r.wg r.warp then (y.1, { y.2 with skip := false }) else y) }
  s.modWarp r.wg r.warp (fun x => { x with table := x.table.map (fun e =>
    if e.pc = r.entry.pc then e else { e with yielded := false }) })

/-- The partition has issued if its warp has (R42). -/
def served (s : State) (r : Ready) : State :=
  let s := { s with cur := none }
  if (s.getWarp r.wg r.warp).lastIssue = s.now then { s with served := s.served ++ [r.part] } else s

/-- Take the trap of an entry that does not reach its instruction. -/
def trapEntry (s : State) (r : Ready) (t : Trap) (amask : LaneSet) (refetch : Bool) : State :=
  let x := s.getWarp r.wg r.warp
  let pc := r.entry.pc
  if x.owes then s.modWarp r.wg r.warp (fun x => x.modEntry pc (fun e => { e with stall := 1 }))
  else
    let s := takeTrap s r.wg r.warp pc amask pc.toNat t false
    if refetch then forgetLine s (s.getWg r.wg).core (s.wgAsid r.wg) pc.toNat x.modeS else s

/-- The state in which the chosen entry issues. -/
def cursorAt (s : State) (r : Ready) (npc base : Nat) : State :=
  { s with cur := some { wg := r.wg, warp := r.warp, pc := r.entry.pc, npc := BitVec.ofNat 80 npc, base := BitVec.ofNat 80 base } }

/-- What follows on a meaning's answer. -/
def afterIssue (r : Ready) : Host.Outcome State Fault Refusal → Host.Outcome State Fault Refusal
  | .next s => .next (served s r)
  | .fault f => .fault f
  | .refused f => .refused f

/-- The chosen entry does what it has to do. -/
def perform (s : State) (r : Ready) : Host.Outcome State Fault Refusal :=
  match r.todo with
  | .fill va => exec (.icacheFill (s.getWg r.wg).core (s.wgAsid r.wg) va) s
  | .stop => .next (s.modWarp r.wg r.warp (fun x => x.modEntry r.entry.pc (fun e => { e with stopped := true })))
  | .trap t a refetch => .next (served (trapEntry s r t a refetch) r)
  | .run i npc base => afterIssue r (exec i (cursorAt (passOver s r) r npc base))

/-! ### Events from outside -/

/-- An event from outside that cannot be applied yet (R14, R277, R510). -/
def agendaHeld (s : State) : Instr → Bool
  | .write fr => hostHeld s fr fr.payload.length rightW
  | .read fr => hostHeld s fr (readLength fr) rightR
  | .release fr => hostHeld s fr 8 rightW
  | .ualinkRemoteRequest q => (match s.power with | .running => remoteWaits s q | _ => false)
  | .linkRetrainComplete _ _ => !s.runs
  | _ => false

/-- An event that a waiting frame ahead of it on the list does not hold back: those of the links, and the actions of registers. -/
def overtakes : Instr → Bool
  | .linkRetrain _ | .linkRetrainComplete _ _ | .ualinkRemoteRequest _ | .cntWrite _ _ | .streqWrite _ | .mapCommit
  | .errorEventCount _ _ => true
  | _ => false

/-- The event from outside that comes next. -/
def nextOutside (s : State) : Option Instr :=
  match s.agenda with
  | [] => none
  | i :: more => if agendaHeld s i then more.find? (fun j => overtakes j && !agendaHeld s j) else some i

/-- Take the event from outside off the list, and apply it. -/
def applyOutside (s : State) (i : Instr) : Host.Outcome State Fault Refusal := exec i { s with agenda := s.agenda.erase i }

/-! ### The end of a cycle -/

/-- An entry's remaining stall count, and a parked lane's (R40, R195).  The limit of a request to another package does not run while
its way is `down` (R511). -/
def Entry.tick (down : Bool) (e : Entry) : Entry :=
  { e with stall := e.stall - 1, wait := match e.wait with | .remote a d => if down then .remote (a + 1) (d + 1) else e.wait | w => w }
def Lane.tick (y : Lane) : Lane := { y with hold := y.hold.map (fun h => { h with stall := h.stall - 1 }) }

/-- One warp at the end of a cycle: what is due by its latency completes at the start of the next. -/
def Warp.tick (x : Warp) (now : Nat) (down : Bool) : Warp :=
  { x with table := x.table.map (Entry.tick down), aside := x.aside.map (Entry.tick down),
           lanes := x.lanes.map (fun (y : Nat × Lane) => (y.1, y.2.tick)) }.completeFixed now

/-- The way of a core to other packages is down (R511). -/
def remoteDown (s : State) (core : Nat) : Bool := s.linkDown (hubLink (coreDie core)) || remoteHeld s

/-- What MTS wrote to the formats and modes of a workgroup in a cycle is seen from the next one on (R92). -/
def Wg.tick (g : Wg) : Wg :=
  { g with fmt := g.fmtNext.foldl (fun m x => m.put x.1 x.2) g.fmt, fmtNext := [], amr := g.amrNext.getD g.amr, amrNext := none }

/-- The next cycle begins (R16): stall counts fall, operations of fixed latency complete (R196), and every CHAIN takes its
next element (R258). -/
def tick (s : State) : State :=
  let s := { s with cyc := s.cyc + 1, served := [], cur := none, wgs := s.wgs.map (fun (y : Nat × Wg) => (y.1, y.2.tick)) }
  let s := { s with warps := s.warps.map (fun (y : Nat × Warp) => (y.1, y.2.tick s.now (remoteDown s (s.getWg (y.1 / 32)).core))) }
  (s.warps.filter (fun (y : Nat × Warp) => y.2.chain.isSome && (s.getWg (y.1 / 32)).alive)).foldl
    (fun s (y : Nat × Warp) => chainElement s (y.1 / 32) (y.1 % 32)) s

/-- The cycle counter alone advances (R508, R516). -/
def idle (s : State) : State := { s with cyc := s.cyc + 1 }

/-! ### One step of the package -/

/-- One step of a running package: an event from outside; else an event that is due; else an entry issues; else the next
cycle begins. -/
def stepRunning (s : State) : Host.Outcome State Fault Refusal :=
  match nextOutside s with
  | some i => applyOutside s i
  | none =>
    match due s with
    | some i => exec i s
    | none =>
      match dueCollective s with
      | some g => execCollectiveComplete g [] s
      | none =>
        match pick s with
        | some r => perform s r
        | none => .next (tick s)

/-- One step while the self-test runs or the package is held (R508, R516). -/
def stepWaiting (s : State) : Host.Outcome State Fault Refusal :=
  match nextOutside s with
  | some i => applyOutside s i
  | none => .next (idle s)

/-- One step while nothing runs: only a device reset, with which power comes, or the shock sensor (R508, R516, R522). -/
def stepDead (s : State) (why : Fault) : Host.Outcome State Fault Refusal :=
  match s.agenda with
  | .deviceReset :: _ => applyOutside s .deviceReset
  | .shockSensorLatch :: _ => applyOutside s .shockSensorLatch
  | _ => .fault why

/-! ### A program of one instruction -/

/-- Where the one bundle of `placeWord` stands. -/
def placedBase : Nat := 0x10000

/-- A bundle of one instruction. -/
def placedBundle (form : List Byte) : List Byte := fitBytes 64 (toLE 4 1 ++ form)

/-- The kernel, the launch record and the launch of `placeWord`: one workgroup of 32 threads, with the most of every
resource that R362 lets a launch declare. -/
def placedKernel : Kernel :=
  { sect := placedBase, len := 64, form := 0, nsect := 0, nlen := 0, live := 0, nlive := 0, funcs := [], backs := [], swap := [], crc := 0,
    fmt := List.replicate 8 0, amr := 0, stk := 16, sets := 16, descs := 16, scr := 0 }
def placedRecord : LRec :=
  { LRec.init with ver := 1, ctx := 1, wgsize := 32, qgs := 1, stack := 16, ngx := 1, ngy := 1, ngz := 1, sets := 16, descs := 16,
                   minc := 1 }
def placedLaunch : Launch :=
  { Launch.init with lid := 1, lr := placedRecord, state := 1, checked := true, nextWg := 1, started := true,
                     kernel := some placedKernel, loadId := 1, ncore := 320 }

/-- The package runs one warp of 32 threads of one launch, on core 0, whose next instruction is the stored form `form`:
everything that could be done before it is cleared.  It stands for the sessions, frames and loads by which a program comes to
run. [DESIGN CHOICE; log entry 103] -/
def placeWord (s : State) (form : List Byte) : State :=
  { s with
    power := .running, level := 0, agenda := [], holdsLR := [], atomQ := [], walks := [], invals := [], engs := [], slots := [],
    served := [], cur := none, errs := [], mapStat := 0, sessions := [], handshakes := [], electionOpen := false, owner := none,
    ipctl := 0
    ctxs := [(1, { Ctx.init with exists_ := true, asid := 1 })]
    launches := [(0, placedLaunch)]
    wgs := [(0, { Wg.init with nwarps := 1 })]
    warps := [(0, { Warp.init with
      table := [Entry.fresh (BitVec.ofNat 80 (placedBase + 4)) (BitVec.allOnes 32)]
      lanes := (List.range 32).map (fun l => (l, { Lane.init with launched := true }))
      lastIssue := s.now })]
    cores := [(0, { Core.init with
      icache := [(icKey 1 false placedBase, { bytes := placedBundle form, fault := 0, pa := 0, poison := false })] })] }

end Sys2Proof.Machine
end

