-- ==== Sys2Proof/Machine/Step.lean ====
section
/-!
DEFINITION. One step of the package, and the placing of one instruction where a step fetches it.
-/

namespace Sys2Proof.Machine

open Sys2Proof

/-- One step.  After reset the boot ROM runs (R522); without supply, or with a refused image, nothing does until a device
reset; in hold (R508) and during the self-test (R516) only events from outside are taken. -/
def step (s : State) : Host.Outcome State Fault Refusal :=
  match s.power with
  | .reset => exec .deviceReset s
  | .off => stepDead s .unpowered
  | .recovery => stepDead s .firmwareRefused
  | .booting _ => stepWaiting s
  | .hold _ => stepWaiting s
  | .running => stepRunning s

/-- `s` with the instruction of `nbits` bits `w` as the next one to issue. -/
def State.withFetchWord (s : State) (nbits w : Nat) : State := placeWord s (toLE 12 (w % 2 ^ nbits))

end Sys2Proof.Machine
end

