-- ==== Sys2Proof/Laws/Encoding.lean ====
section
/-!
SUPPORT. The canonical word's fields (R186) read back, and little-endian bytes (R190).
-/

namespace Sys2Proof

/-- A field of the word is what its bits are, one by one. -/
theorem field_of_bits (op fn : Nat) (f : Fields) (lo n : Nat) (x : BitVec n)
    (h : ∀ i, i < n → (wordOf op fn f).getLsbD (lo + i) = x.getLsbD i) : (wordOf op fn f).extractLsb' lo n = x := by
  apply BitVec.eq_of_getLsbD_eq
  intro i hi
  simp [hi, h i hi]

/-- Every field of the word reads back. -/
theorem fieldsOf_wordOf (op fn : Nat) (f : Fields) : fieldsOf (wordOf op fn f) = f := by
  cases f
  simp only [fieldsOf, Fields.mk.injEq]
  refine ⟨?_, ?_, ?_, ?_, ?_, ?_, ?_, ?_, ?_, ?_, ?_, ?_, ?_⟩
  all_goals first
    | (apply field_of_bits; intro i hi
       interval_cases i <;> (simp only [wordOf, BitVec.getLsbD_append, BitVec.getLsbD_ofBool]; simp))
    | (simp only [wordOf, BitVec.getLsbD_append, BitVec.getLsbD_ofBool]; simp)

/-- OP reads back. -/
theorem wordOp_wordOf (op fn : Nat) (f : Fields) (h : op < 256) : wordOp (wordOf op fn f) = op := by
  have hx : (wordOf op fn f).extractLsb' 0 8 = BitVec.ofNat 8 op := by
    apply field_of_bits; intro i hi
    interval_cases i <;> (simp only [wordOf, BitVec.getLsbD_append, BitVec.getLsbD_ofBool]; simp)
  have hn := congrArg BitVec.toNat hx
  simp [BitVec.extractLsb'_toNat] at hn
  simp [wordOp, bits]
  omega

/-- FN reads back. -/
theorem wordFn_wordOf (op fn : Nat) (f : Fields) (h : fn < 16) : wordFn (wordOf op fn f) = fn := by
  have hx : (wordOf op fn f).extractLsb' 8 4 = BitVec.ofNat 4 fn := by
    apply field_of_bits; intro i hi
    interval_cases i <;> (simp only [wordOf, BitVec.getLsbD_append, BitVec.getLsbD_ofBool]; simp)
  have hn := congrArg BitVec.toNat hx
  simp [BitVec.extractLsb'_toNat] at hn
  simp [wordFn, bits]
  omega

/-- The decoder reads what OP, FN and the fields select. -/
theorem decodeWord_wordOf (op fn : Nat) (f : Fields) (h : op < 256) (h' : fn < 16) (i : Instr)
    (hs : selectInstr op fn f = some i) : decodeWord (wordOf op fn f) = .ok i := by
  simp [decodeWord, wordOp_wordOf op fn f h, wordFn_wordOf op fn f h', fieldsOf_wordOf, hs]

/-- The bytes of a number, read back. -/
theorem ofLE_toLE (n x : Nat) : ofLE (toLE n x) = x % 256 ^ n := by
  induction n generalizing x with
  | zero => simp [toLE, ofLE, Nat.mod_one]
  | succ n ih =>
    have h : x % (256 * 256 ^ n) = x % 256 + 256 * (x / 256 % 256 ^ n) := Nat.mod_mul
    simp only [toLE, ofLE, ih, Nat.pow_succ, Nat.mul_comm (256 ^ n) 256, h]
    simp [Nat.mul_comm]

/-- As many bytes as asked for. -/
@[simp] theorem length_toLE (n x : Nat) : (toLE n x).length = n := by
  induction n generalizing x with
  | zero => rfl
  | succ n ih => simp [toLE, ih]

end Sys2Proof
end

