-- ==== Sys2Proof/Laws/PerInstr.lean ====
section
/-!
SUPPORT. Statements made for every instruction, one lemma per constructor: the canonical word that the encoder writes
decodes to the instruction (R186, R200); an event of the device has no word.
-/

namespace Sys2Proof.Laws.RoundTrip

open Sys2Proof

/-- The word of an instruction decodes to it. -/
def Statement (i : Instr) : Prop := ∀ w, encodeWord i = some w → decodeWord w = .ok i

theorem of_fields (i : Instr) (op fn : Nat) (f : Fields) (ho : opFn i = some (op, fn)) (hf : i.fields = some f)
    (h1 : op < 256) (h2 : fn < 16) (hs : i.rowOk = true → selectInstr op fn f = some i) : Statement i := by
  intro w h
  simp only [encodeWord, ho, hf] at h
  split at h
  · cases h
    exact decodeWord_wordOf op fn f h1 h2 i (hs ‹_›)
  · cases h

theorem of_event (i : Instr) (ho : opFn i = none) : Statement i := by
  intro w h
  simp [encodeWord, ho] at h

theorem nop (f : Fields) : Statement (.nop f) :=
  of_fields _ 0x00 0 f rfl rfl (by decide) (by decide) (fun _ => rfl)
theorem bra (f : Fields) : Statement (.bra f) :=
  of_fields _ 0x00 1 f rfl rfl (by decide) (by decide) (fun _ => rfl)
theorem brx (f : Fields) : Statement (.brx f) :=
  of_fields _ 0x00 2 f rfl rfl (by decide) (by decide) (fun _ => rfl)
theorem call (f : Fields) : Statement (.call f) :=
  of_fields _ 0x00 3 f rfl rfl (by decide) (by decide) (fun _ => rfl)
theorem callx (f : Fields) : Statement (.callx f) :=
  of_fields _ 0x00 4 f rfl rfl (by decide) (by decide) (fun _ => rfl)
theorem ret (f : Fields) : Statement (.ret f) :=
  of_fields _ 0x00 5 f rfl rfl (by decide) (by decide) (fun _ => rfl)
theorem exit (f : Fields) : Statement (.exit f) :=
  of_fields _ 0x00 6 f rfl rfl (by decide) (by decide) (fun _ => rfl)
theorem yield (f : Fields) : Statement (.yield f) :=
  of_fields _ 0x00 7 f rfl rfl (by decide) (by decide) (fun _ => rfl)
theorem sleep (f : Fields) : Statement (.sleep f) :=
  of_fields _ 0x00 8 f rfl rfl (by decide) (by decide) (fun _ => rfl)
theorem partset (f : Fields) : Statement (.partset f) :=
  of_fields _ 0x00 9 f rfl rfl (by decide) (by decide) (fun _ => rfl)
theorem partget (f : Fields) : Statement (.partget f) :=
  of_fields _ 0x00 10 f rfl rfl (by decide) (by decide) (fun _ => rfl)
theorem rjopen (f : Fields) : Statement (.rjopen f) :=
  of_fields _ 0x01 0 f rfl rfl (by decide) (by decide) (fun h => by
    simp [Instr.rowOk] at h
    simp [selectInstr, selectOp01, h])
theorem rjopenMask (f : Fields) : Statement (.rjopenMask f) :=
  of_fields _ 0x01 0 f rfl rfl (by decide) (by decide) (fun h => by
    simp [Instr.rowOk] at h
    simp [selectInstr, selectOp01, h])
theorem rjjoin (f : Fields) : Statement (.rjjoin f) :=
  of_fields _ 0x01 1 f rfl rfl (by decide) (by decide) (fun _ => rfl)
theorem rjquit (f : Fields) : Statement (.rjquit f) :=
  of_fields _ 0x01 2 f rfl rfl (by decide) (by decide) (fun _ => rfl)
theorem rjwait (f : Fields) : Statement (.rjwait f) :=
  of_fields _ 0x01 3 f rfl rfl (by decide) (by decide) (fun _ => rfl)
theorem rjtest (f : Fields) : Statement (.rjtest f) :=
  of_fields _ 0x01 4 f rfl rfl (by decide) (by decide) (fun _ => rfl)
theorem rjmask (f : Fields) : Statement (.rjmask f) :=
  of_fields _ 0x01 5 f rfl rfl (by decide) (by decide) (fun _ => rfl)
theorem rjclose (f : Fields) : Statement (.rjclose f) :=
  of_fields _ 0x01 6 f rfl rfl (by decide) (by decide) (fun _ => rfl)
theorem orphanedSetTrap (wg warp : Nat) : Statement (.orphanedSetTrap wg warp) := of_event _ rfl
theorem iadd (f : Fields) : Statement (.iadd f) :=
  of_fields _ 0x02 0 f rfl rfl (by decide) (by decide) (fun _ => rfl)
theorem isum3 (f : Fields) : Statement (.isum3 f) :=
  of_fields _ 0x02 1 f rfl rfl (by decide) (by decide) (fun _ => rfl)
theorem isub (f : Fields) : Statement (.isub f) :=
  of_fields _ 0x02 2 f rfl rfl (by decide) (by decide) (fun _ => rfl)
theorem ineg (f : Fields) : Statement (.ineg f) :=
  of_fields _ 0x02 3 f rfl rfl (by decide) (by decide) (fun _ => rfl)
theorem iabs (f : Fields) : Statement (.iabs f) :=
  of_fields _ 0x02 4 f rfl rfl (by decide) (by decide) (fun _ => rfl)
theorem imin (f : Fields) : Statement (.imin f) :=
  of_fields _ 0x02 5 f rfl rfl (by decide) (by decide) (fun _ => rfl)
theorem imax (f : Fields) : Statement (.imax f) :=
  of_fields _ 0x02 6 f rfl rfl (by decide) (by decide) (fun _ => rfl)
theorem isat (f : Fields) : Statement (.isat f) :=
  of_fields _ 0x02 7 f rfl rfl (by decide) (by decide) (fun _ => rfl)
theorem icmp (f : Fields) : Statement (.icmp f) :=
  of_fields _ 0x02 8 f rfl rfl (by decide) (by decide) (fun _ => rfl)
theorem sel (f : Fields) : Statement (.sel f) :=
  of_fields _ 0x02 9 f rfl rfl (by decide) (by decide) (fun _ => rfl)
theorem lea (f : Fields) : Statement (.lea f) :=
  of_fields _ 0x02 10 f rfl rfl (by decide) (by decide) (fun _ => rfl)
theorem imul (f : Fields) : Statement (.imul f) :=
  of_fields _ 0x03 0 f rfl rfl (by decide) (by decide) (fun _ => rfl)
theorem imulh (f : Fields) : Statement (.imulh f) :=
  of_fields _ 0x03 1 f rfl rfl (by decide) (by decide) (fun _ => rfl)
theorem imad (f : Fields) : Statement (.imad f) :=
  of_fields _ 0x03 2 f rfl rfl (by decide) (by decide) (fun _ => rfl)
theorem imadw (f : Fields) : Statement (.imadw f) :=
  of_fields _ 0x03 3 f rfl rfl (by decide) (by decide) (fun _ => rfl)
theorem idiv (f : Fields) : Statement (.idiv f) :=
  of_fields _ 0x03 4 f rfl rfl (by decide) (by decide) (fun _ => rfl)
theorem irem (f : Fields) : Statement (.irem f) :=
  of_fields _ 0x03 5 f rfl rfl (by decide) (by decide) (fun _ => rfl)
theorem and (f : Fields) : Statement (.and f) :=
  of_fields _ 0x04 0 f rfl rfl (by decide) (by decide) (fun _ => rfl)
theorem or (f : Fields) : Statement (.or f) :=
  of_fields _ 0x04 1 f rfl rfl (by decide) (by decide) (fun _ => rfl)
theorem xor (f : Fields) : Statement (.xor f) :=
  of_fields _ 0x04 2 f rfl rfl (by decide) (by decide) (fun _ => rfl)
theorem not (f : Fields) : Statement (.not f) :=
  of_fields _ 0x04 3 f rfl rfl (by decide) (by decide) (fun _ => rfl)
theorem blut (f : Fields) : Statement (.blut f) :=
  of_fields _ 0x04 4 f rfl rfl (by decide) (by decide) (fun _ => rfl)
theorem plut (f : Fields) : Statement (.plut f) :=
  of_fields _ 0x04 5 f rfl rfl (by decide) (by decide) (fun _ => rfl)
theorem pmovGet (f : Fields) : Statement (.pmovGet f) :=
  of_fields _ 0x04 6 f rfl rfl (by decide) (by decide) (fun h => by
    simp [Instr.rowOk] at h
    simp [selectInstr, selectOp04, h])
theorem pmovSet (f : Fields) : Statement (.pmovSet f) :=
  of_fields _ 0x04 6 f rfl rfl (by decide) (by decide) (fun h => by
    simp [Instr.rowOk] at h
    simp [selectInstr, selectOp04, h])
theorem mov (f : Fields) : Statement (.mov f) :=
  of_fields _ 0x04 7 f rfl rfl (by decide) (by decide) (fun _ => rfl)
theorem movi (f : Fields) : Statement (.movi f) :=
  of_fields _ 0x04 8 f rfl rfl (by decide) (by decide) (fun _ => rfl)
theorem movk (f : Fields) : Statement (.movk f) :=
  of_fields _ 0x04 9 f rfl rfl (by decide) (by decide) (fun _ => rfl)
theorem shl (f : Fields) : Statement (.shl f) :=
  of_fields _ 0x05 0 f rfl rfl (by decide) (by decide) (fun _ => rfl)
theorem shr (f : Fields) : Statement (.shr f) :=
  of_fields _ 0x05 1 f rfl rfl (by decide) (by decide) (fun _ => rfl)
theorem sar (f : Fields) : Statement (.sar f) :=
  of_fields _ 0x05 2 f rfl rfl (by decide) (by decide) (fun _ => rfl)
theorem fshl (f : Fields) : Statement (.fshl f) :=
  of_fields _ 0x05 3 f rfl rfl (by decide) (by decide) (fun _ => rfl)
theorem fshr (f : Fields) : Statement (.fshr f) :=
  of_fields _ 0x05 4 f rfl rfl (by decide) (by decide) (fun _ => rfl)
theorem bfe (f : Fields) : Statement (.bfe f) :=
  of_fields _ 0x05 5 f rfl rfl (by decide) (by decide) (fun _ => rfl)
theorem bfi (f : Fields) : Statement (.bfi f) :=
  of_fields _ 0x05 6 f rfl rfl (by decide) (by decide) (fun _ => rfl)
theorem brev (f : Fields) : Statement (.brev f) :=
  of_fields _ 0x05 7 f rfl rfl (by decide) (by decide) (fun _ => rfl)
theorem popc (f : Fields) : Statement (.popc f) :=
  of_fields _ 0x05 8 f rfl rfl (by decide) (by decide) (fun _ => rfl)
theorem clz (f : Fields) : Statement (.clz f) :=
  of_fields _ 0x05 9 f rfl rfl (by decide) (by decide) (fun _ => rfl)
theorem ctz (f : Fields) : Statement (.ctz f) :=
  of_fields _ 0x05 10 f rfl rfl (by decide) (by decide) (fun _ => rfl)
theorem sext (f : Fields) : Statement (.sext f) :=
  of_fields _ 0x05 11 f rfl rfl (by decide) (by decide) (fun _ => rfl)
theorem zext (f : Fields) : Statement (.zext f) :=
  of_fields _ 0x05 12 f rfl rfl (by decide) (by decide) (fun _ => rfl)
theorem fadd (f : Fields) : Statement (.fadd f) :=
  of_fields _ 0x10 0 f rfl rfl (by decide) (by decide) (fun _ => rfl)
theorem fsub (f : Fields) : Statement (.fsub f) :=
  of_fields _ 0x10 1 f rfl rfl (by decide) (by decide) (fun _ => rfl)
theorem fmul (f : Fields) : Statement (.fmul f) :=
  of_fields _ 0x10 2 f rfl rfl (by decide) (by decide) (fun _ => rfl)
theorem ffma (f : Fields) : Statement (.ffma f) :=
  of_fields _ 0x10 3 f rfl rfl (by decide) (by decide) (fun _ => rfl)
theorem fmin (f : Fields) : Statement (.fmin f) :=
  of_fields _ 0x10 4 f rfl rfl (by decide) (by decide) (fun _ => rfl)
theorem fmax (f : Fields) : Statement (.fmax f) :=
  of_fields _ 0x10 5 f rfl rfl (by decide) (by decide) (fun _ => rfl)
theorem fcmp (f : Fields) : Statement (.fcmp f) :=
  of_fields _ 0x10 6 f rfl rfl (by decide) (by decide) (fun _ => rfl)
theorem fclass (f : Fields) : Statement (.fclass f) :=
  of_fields _ 0x10 7 f rfl rfl (by decide) (by decide) (fun _ => rfl)
theorem frnd (f : Fields) : Statement (.frnd f) :=
  of_fields _ 0x10 8 f rfl rfl (by decide) (by decide) (fun _ => rfl)
theorem fscale (f : Fields) : Statement (.fscale f) :=
  of_fields _ 0x10 9 f rfl rfl (by decide) (by decide) (fun _ => rfl)
theorem fdot (f : Fields) : Statement (.fdot f) :=
  of_fields _ 0x10 10 f rfl rfl (by decide) (by decide) (fun _ => rfl)
theorem fcvt (f : Fields) : Statement (.fcvt f) :=
  of_fields _ 0x11 0 f rfl rfl (by decide) (by decide) (fun _ => rfl)
theorem fcvts (f : Fields) : Statement (.fcvts f) :=
  of_fields _ 0x11 1 f rfl rfl (by decide) (by decide) (fun _ => rfl)
theorem f2i (f : Fields) : Statement (.f2i f) :=
  of_fields _ 0x11 2 f rfl rfl (by decide) (by decide) (fun _ => rfl)
theorem i2f (f : Fields) : Statement (.i2f f) :=
  of_fields _ 0x11 3 f rfl rfl (by decide) (by decide) (fun _ => rfl)
theorem fpack (f : Fields) : Statement (.fpack f) :=
  of_fields _ 0x11 4 f rfl rfl (by decide) (by decide) (fun _ => rfl)
theorem funpack (f : Fields) : Statement (.funpack f) :=
  of_fields _ 0x11 5 f rfl rfl (by decide) (by decide) (fun _ => rfl)
theorem rand (f : Fields) : Statement (.rand f) :=
  of_fields _ 0x11 6 f rfl rfl (by decide) (by decide) (fun _ => rfl)
theorem frcp (f : Fields) : Statement (.frcp f) :=
  of_fields _ 0x12 0 f rfl rfl (by decide) (by decide) (fun _ => rfl)
theorem frsq (f : Fields) : Statement (.frsq f) :=
  of_fields _ 0x12 1 f rfl rfl (by decide) (by decide) (fun _ => rfl)
theorem fsqrt (f : Fields) : Statement (.fsqrt f) :=
  of_fields _ 0x12 2 f rfl rfl (by decide) (by decide) (fun _ => rfl)
theorem fdiv (f : Fields) : Statement (.fdiv f) :=
  of_fields _ 0x12 3 f rfl rfl (by decide) (by decide) (fun _ => rfl)
theorem fexp2 (f : Fields) : Statement (.fexp2 f) :=
  of_fields _ 0x12 4 f rfl rfl (by decide) (by decide) (fun _ => rfl)
theorem flog2 (f : Fields) : Statement (.flog2 f) :=
  of_fields _ 0x12 5 f rfl rfl (by decide) (by decide) (fun _ => rfl)
theorem fsin (f : Fields) : Statement (.fsin f) :=
  of_fields _ 0x12 6 f rfl rfl (by decide) (by decide) (fun _ => rfl)
theorem fcos (f : Fields) : Statement (.fcos f) :=
  of_fields _ 0x12 7 f rfl rfl (by decide) (by decide) (fun _ => rfl)
theorem ftanh (f : Fields) : Statement (.ftanh f) :=
  of_fields _ 0x12 8 f rfl rfl (by decide) (by decide) (fun _ => rfl)
theorem vote (f : Fields) : Statement (.vote f) :=
  of_fields _ 0x13 0 f rfl rfl (by decide) (by decide) (fun _ => rfl)
theorem shfl (f : Fields) : Statement (.shfl f) :=
  of_fields _ 0x13 1 f rfl rfl (by decide) (by decide) (fun _ => rfl)
theorem redux (f : Fields) : Statement (.redux f) :=
  of_fields _ 0x13 2 f rfl rfl (by decide) (by decide) (fun _ => rfl)
theorem scan (f : Fields) : Statement (.scan f) :=
  of_fields _ 0x13 3 f rfl rfl (by decide) (by decide) (fun _ => rfl)
theorem matchL (f : Fields) : Statement (.matchL f) :=
  of_fields _ 0x13 4 f rfl rfl (by decide) (by decide) (fun _ => rfl)
theorem sdef (f : Fields) : Statement (.sdef f) :=
  of_fields _ 0x14 0 f rfl rfl (by decide) (by decide) (fun _ => rfl)
theorem sseek (f : Fields) : Statement (.sseek f) :=
  of_fields _ 0x14 1 f rfl rfl (by decide) (by decide) (fun _ => rfl)
theorem spos (f : Fields) : Statement (.spos f) :=
  of_fields _ 0x14 2 f rfl rfl (by decide) (by decide) (fun _ => rfl)
theorem sflag (f : Fields) : Statement (.sflag f) :=
  of_fields _ 0x14 3 f rfl rfl (by decide) (by decide) (fun _ => rfl)
theorem chain (f : Fields) : Statement (.chain f) :=
  of_fields _ 0x14 4 f rfl rfl (by decide) (by decide) (fun _ => rfl)
theorem ld (f : Fields) : Statement (.ld f) :=
  of_fields _ 0x20 0 f rfl rfl (by decide) (by decide) (fun _ => rfl)
theorem st (f : Fields) : Statement (.st f) :=
  of_fields _ 0x20 1 f rfl rfl (by decide) (by decide) (fun _ => rfl)
theorem ldk (f : Fields) : Statement (.ldk f) :=
  of_fields _ 0x20 2 f rfl rfl (by decide) (by decide) (fun _ => rfl)
theorem ldpk (f : Fields) : Statement (.ldpk f) :=
  of_fields _ 0x20 3 f rfl rfl (by decide) (by decide) (fun _ => rfl)
theorem stpk (f : Fields) : Statement (.stpk f) :=
  of_fields _ 0x20 4 f rfl rfl (by decide) (by decide) (fun _ => rfl)
theorem pref (f : Fields) : Statement (.pref f) :=
  of_fields _ 0x20 5 f rfl rfl (by decide) (by decide) (fun _ => rfl)
theorem stpair (f : Fields) : Statement (.stpair f) :=
  of_fields _ 0x20 6 f rfl rfl (by decide) (by decide) (fun _ => rfl)
theorem lds (f : Fields) : Statement (.lds f) :=
  of_fields _ 0x21 0 f rfl rfl (by decide) (by decide) (fun _ => rfl)
theorem sts (f : Fields) : Statement (.sts f) :=
  of_fields _ 0x21 1 f rfl rfl (by decide) (by decide) (fun _ => rfl)
theorem ldq (f : Fields) : Statement (.ldq f) :=
  of_fields _ 0x21 2 f rfl rfl (by decide) (by decide) (fun _ => rfl)
theorem stq (f : Fields) : Statement (.stq f) :=
  of_fields _ 0x21 3 f rfl rfl (by decide) (by decide) (fun _ => rfl)
theorem ldmc (f : Fields) : Statement (.ldmc f) :=
  of_fields _ 0x21 4 f rfl rfl (by decide) (by decide) (fun _ => rfl)
theorem atom (f : Fields) : Statement (.atom f) :=
  of_fields _ 0x22 0 f rfl rfl (by decide) (by decide) (fun _ => rfl)
theorem atomf (f : Fields) : Statement (.atomf f) :=
  of_fields _ 0x22 1 f rfl rfl (by decide) (by decide) (fun _ => rfl)
theorem lr (f : Fields) : Statement (.lr f) :=
  of_fields _ 0x22 2 f rfl rfl (by decide) (by decide) (fun _ => rfl)
theorem sc (f : Fields) : Statement (.sc f) :=
  of_fields _ 0x22 3 f rfl rfl (by decide) (by decide) (fun _ => rfl)
theorem red (f : Fields) : Statement (.red f) :=
  of_fields _ 0x22 4 f rfl rfl (by decide) (by decide) (fun _ => rfl)
theorem redf (f : Fields) : Statement (.redf f) :=
  of_fields _ 0x22 5 f rfl rfl (by decide) (by decide) (fun _ => rfl)
theorem lrHoldExpiry (granule : Nat) : Statement (.lrHoldExpiry granule) := of_event _ rfl
theorem fence (f : Fields) : Statement (.fence f) :=
  of_fields _ 0x23 0 f rfl rfl (by decide) (by decide) (fun _ => rfl)
theorem bind (f : Fields) : Statement (.bind f) :=
  of_fields _ 0x23 1 f rfl rfl (by decide) (by decide) (fun _ => rfl)
theorem unbind (f : Fields) : Statement (.unbind f) :=
  of_fields _ 0x23 2 f rfl rfl (by decide) (by decide) (fun _ => rfl)
theorem acq (f : Fields) : Statement (.acq f) :=
  of_fields _ 0x23 3 f rfl rfl (by decide) (by decide) (fun h => by
    simp [Instr.rowOk] at h
    simp [selectInstr, selectOp23, h])
theorem acqGe (f : Fields) : Statement (.acqGe f) :=
  of_fields _ 0x23 3 f rfl rfl (by decide) (by decide) (fun h => by
    simp [Instr.rowOk] at h
    simp [selectInstr, selectOp23, h])
theorem acqGeWake (wg warp : Nat) : Statement (.acqGeWake wg warp) := of_event _ rfl
theorem rel (f : Fields) : Statement (.rel f) :=
  of_fields _ 0x23 4 f rfl rfl (by decide) (by decide) (fun _ => rfl)
theorem bar (f : Fields) : Statement (.bar f) :=
  of_fields _ 0x23 5 f rfl rfl (by decide) (by decide) (fun _ => rfl)
theorem bara (f : Fields) : Statement (.bara f) :=
  of_fields _ 0x23 6 f rfl rfl (by decide) (by decide) (fun _ => rfl)
theorem barw (f : Fields) : Statement (.barw f) :=
  of_fields _ 0x23 7 f rfl rfl (by decide) (by decide) (fun _ => rfl)
theorem rrmodeOff (f : Fields) : Statement (.rrmodeOff f) :=
  of_fields _ 0x23 8 f rfl rfl (by decide) (by decide) (fun h => by
    simp [Instr.rowOk] at h
    rcases h with h | h <;> simp [selectInstr, selectOp23, h])
theorem rrmodeRec (f : Fields) : Statement (.rrmodeRec f) :=
  of_fields _ 0x23 8 f rfl rfl (by decide) (by decide) (fun h => by
    simp [Instr.rowOk] at h
    simp [selectInstr, selectOp23, h])
theorem rrmodePlay (f : Fields) : Statement (.rrmodePlay f) :=
  of_fields _ 0x23 8 f rfl rfl (by decide) (by decide) (fun h => by
    simp [Instr.rowOk] at h
    simp [selectInstr, selectOp23, h])
theorem ordgate (f : Fields) : Statement (.ordgate f) :=
  of_fields _ 0x23 9 f rfl rfl (by decide) (by decide) (fun _ => rfl)
theorem carve (f : Fields) : Statement (.carve f) :=
  of_fields _ 0x24 0 f rfl rfl (by decide) (by decide) (fun _ => rfl)
theorem cwb (f : Fields) : Statement (.cwb f) :=
  of_fields _ 0x24 1 f rfl rfl (by decide) (by decide) (fun _ => rfl)
theorem cinv (f : Fields) : Statement (.cinv f) :=
  of_fields _ 0x24 2 f rfl rfl (by decide) (by decide) (fun h => by
    simp [Instr.rowOk] at h
    simp [selectInstr, selectOp24, h])
theorem cinvI (f : Fields) : Statement (.cinvI f) :=
  of_fields _ 0x24 2 f rfl rfl (by decide) (by decide) (fun h => by
    simp [Instr.rowOk] at h
    simp [selectInstr, selectOp24, h])
theorem mxacq (f : Fields) : Statement (.mxacq f) :=
  of_fields _ 0x30 0 f rfl rfl (by decide) (by decide) (fun _ => rfl)
theorem mxrel (f : Fields) : Statement (.mxrel f) :=
  of_fields _ 0x30 1 f rfl rfl (by decide) (by decide) (fun _ => rfl)
theorem engineRelease (core : Nat) : Statement (.engineRelease core) := of_event _ rfl
theorem tdesc (f : Fields) : Statement (.tdesc f) :=
  of_fields _ 0x30 2 f rfl rfl (by decide) (by decide) (fun _ => rfl)
theorem tmaskSet (f : Fields) : Statement (.tmaskSet f) :=
  of_fields _ 0x30 3 f rfl rfl (by decide) (by decide) (fun h => by
    simp [Instr.rowOk] at h
    simp [selectInstr, selectOp30, h])
theorem tmaskFirst (f : Fields) : Statement (.tmaskFirst f) :=
  of_fields _ 0x30 3 f rfl rfl (by decide) (by decide) (fun h => by
    simp [Instr.rowOk] at h
    simp [selectInstr, selectOp30, h])
theorem gdecl (f : Fields) : Statement (.gdecl f) :=
  of_fields _ 0x30 4 f rfl rfl (by decide) (by decide) (fun _ => rfl)
theorem tamax (f : Fields) : Statement (.tamax f) :=
  of_fields _ 0x30 5 f rfl rfl (by decide) (by decide) (fun _ => rfl)
theorem tscupd (f : Fields) : Statement (.tscupd f) :=
  of_fields _ 0x30 6 f rfl rfl (by decide) (by decide) (fun _ => rfl)
theorem tmma (f : Fields) : Statement (.tmma f) :=
  of_fields _ 0x31 0 f rfl rfl (by decide) (by decide) (fun _ => rfl)
theorem tmmab (f : Fields) : Statement (.tmmab f) :=
  of_fields _ 0x31 1 f rfl rfl (by decide) (by decide) (fun _ => rfl)
theorem tact (f : Fields) : Statement (.tact f) :=
  of_fields _ 0x31 2 f rfl rfl (by decide) (by decide) (fun _ => rfl)
theorem tew (f : Fields) : Statement (.tew f) :=
  of_fields _ 0x31 3 f rfl rfl (by decide) (by decide) (fun _ => rfl)
theorem tred (f : Fields) : Statement (.tred f) :=
  of_fields _ 0x31 4 f rfl rfl (by decide) (by decide) (fun _ => rfl)
theorem ttrans (f : Fields) : Statement (.ttrans f) :=
  of_fields _ 0x31 5 f rfl rfl (by decide) (by decide) (fun _ => rfl)
theorem tscl (f : Fields) : Statement (.tscl f) :=
  of_fields _ 0x31 6 f rfl rfl (by decide) (by decide) (fun _ => rfl)
theorem tcvt (f : Fields) : Statement (.tcvt f) :=
  of_fields _ 0x31 7 f rfl rfl (by decide) (by decide) (fun _ => rfl)
theorem tzero (f : Fields) : Statement (.tzero f) :=
  of_fields _ 0x31 8 f rfl rfl (by decide) (by decide) (fun _ => rfl)
theorem taccld (f : Fields) : Statement (.taccld f) :=
  of_fields _ 0x31 9 f rfl rfl (by decide) (by decide) (fun _ => rfl)
theorem taccst (f : Fields) : Statement (.taccst f) :=
  of_fields _ 0x31 10 f rfl rfl (by decide) (by decide) (fun _ => rfl)
theorem tdrain (f : Fields) : Statement (.tdrain f) :=
  of_fields _ 0x31 11 f rfl rfl (by decide) (by decide) (fun _ => rfl)
theorem tcopy (f : Fields) : Statement (.tcopy f) :=
  of_fields _ 0x32 0 f rfl rfl (by decide) (by decide) (fun h => by
    simp [Instr.rowOk] at h
    simp [selectInstr, selectOp32, h])
theorem tcopyTile (f : Fields) : Statement (.tcopyTile f) :=
  of_fields _ 0x32 0 f rfl rfl (by decide) (by decide) (fun h => by
    simp [Instr.rowOk] at h
    simp [selectInstr, selectOp32, h])
theorem tgather (f : Fields) : Statement (.tgather f) :=
  of_fields _ 0x32 1 f rfl rfl (by decide) (by decide) (fun _ => rfl)
theorem tscatter (f : Fields) : Statement (.tscatter f) :=
  of_fields _ 0x32 2 f rfl rfl (by decide) (by decide) (fun _ => rfl)
theorem tcoll (f : Fields) : Statement (.tcoll f) :=
  of_fields _ 0x32 3 f rfl rfl (by decide) (by decide) (fun _ => rfl)
theorem hwait (f : Fields) : Statement (.hwait f) :=
  of_fields _ 0x33 0 f rfl rfl (by decide) (by decide) (fun _ => rfl)
theorem htest (f : Fields) : Statement (.htest f) :=
  of_fields _ 0x33 1 f rfl rfl (by decide) (by decide) (fun _ => rfl)
theorem hcancel (f : Fields) : Statement (.hcancel f) :=
  of_fields _ 0x33 2 f rfl rfl (by decide) (by decide) (fun _ => rfl)
theorem hsleep (f : Fields) : Statement (.hsleep f) :=
  of_fields _ 0x33 3 f rfl rfl (by decide) (by decide) (fun _ => rfl)
theorem hstat (f : Fields) : Statement (.hstat f) :=
  of_fields _ 0x33 4 f rfl rfl (by decide) (by decide) (fun _ => rfl)
theorem recbegin (f : Fields) : Statement (.recbegin f) :=
  of_fields _ 0x38 0 f rfl rfl (by decide) (by decide) (fun _ => rfl)
theorem recend (f : Fields) : Statement (.recend f) :=
  of_fields _ 0x38 1 f rfl rfl (by decide) (by decide) (fun _ => rfl)
theorem recmark (f : Fields) : Statement (.recmark f) :=
  of_fields _ 0x38 2 f rfl rfl (by decide) (by decide) (fun _ => rfl)
theorem reverse (f : Fields) : Statement (.reverse f) :=
  of_fields _ 0x38 3 f rfl rfl (by decide) (by decide) (fun _ => rfl)
theorem logq (f : Fields) : Statement (.logq f) :=
  of_fields _ 0x38 4 f rfl rfl (by decide) (by decide) (fun _ => rfl)
theorem trap (f : Fields) : Statement (.trap f) :=
  of_fields _ 0x3C 0 f rfl rfl (by decide) (by decide) (fun _ => rfl)
theorem eret (f : Fields) : Statement (.eret f) :=
  of_fields _ 0x3C 1 f rfl rfl (by decide) (by decide) (fun _ => rfl)
theorem mfs (f : Fields) : Statement (.mfs f) :=
  of_fields _ 0x3C 2 f rfl rfl (by decide) (by decide) (fun _ => rfl)
theorem mtsWcr (f : Fields) : Statement (.mtsWcr f) :=
  of_fields _ 0x3C 3 f rfl rfl (by decide) (by decide) (fun h => by
    simp [Instr.rowOk] at h
    simp only [selectInstr, selectOp3C]
    split_ifs <;> first | rfl | omega)
theorem mtsXflagsClear (f : Fields) : Statement (.mtsXflagsClear f) :=
  of_fields _ 0x3C 3 f rfl rfl (by decide) (by decide) (fun h => by
    simp [Instr.rowOk] at h
    simp only [selectInstr, selectOp3C]
    split_ifs <;> first | rfl | omega)
theorem mtsFmt (f : Fields) : Statement (.mtsFmt f) :=
  of_fields _ 0x3C 3 f rfl rfl (by decide) (by decide) (fun h => by
    simp [Instr.rowOk] at h
    simp only [selectInstr, selectOp3C]
    split_ifs <;> first | rfl | omega)
theorem mtsAmr (f : Fields) : Statement (.mtsAmr f) :=
  of_fields _ 0x3C 3 f rfl rfl (by decide) (by decide) (fun h => by
    simp [Instr.rowOk] at h
    simp only [selectInstr, selectOp3C]
    split_ifs <;> first | rfl | omega)
theorem mtsSc (f : Fields) : Statement (.mtsSc f) :=
  of_fields _ 0x3C 3 f rfl rfl (by decide) (by decide) (fun h => by
    simp [Instr.rowOk] at h
    simp only [selectInstr, selectOp3C]
    split_ifs <;> first | rfl | omega)
theorem mtsMx (f : Fields) : Statement (.mtsMx f) :=
  of_fields _ 0x3C 3 f rfl rfl (by decide) (by decide) (fun h => by
    simp [Instr.rowOk] at h
    simp only [selectInstr, selectOp3C]
    split_ifs <;> first | rfl | omega)
theorem cycrd (f : Fields) : Statement (.cycrd f) :=
  of_fields _ 0x3C 4 f rfl rfl (by decide) (by decide) (fun _ => rfl)
theorem launch (f : Fields) : Statement (.launch f) :=
  of_fields _ 0x3C 5 f rfl rfl (by decide) (by decide) (fun _ => rfl)
theorem tlbi (f : Fields) : Statement (.tlbi f) :=
  of_fields _ 0x3C 6 f rfl rfl (by decide) (by decide) (fun _ => rfl)
theorem tlbiAcknowledge (wg warp : Nat) : Statement (.tlbiAcknowledge wg warp) := of_event _ rfl
theorem scango (f : Fields) : Statement (.scango f) :=
  of_fields _ 0x3D 0 f rfl rfl (by decide) (by decide) (fun _ => rfl)
theorem scanpoll (f : Fields) : Statement (.scanpoll f) :=
  of_fields _ 0x3D 1 f rfl rfl (by decide) (by decide) (fun _ => rfl)
theorem scanstop (f : Fields) : Statement (.scanstop f) :=
  of_fields _ 0x3D 2 f rfl rfl (by decide) (by decide) (fun _ => rfl)
theorem coreret (f : Fields) : Statement (.coreret f) :=
  of_fields _ 0x3D 3 f rfl rfl (by decide) (by decide) (fun _ => rfl)
theorem halt (f : Fields) : Statement (.halt f) :=
  of_fields _ 0x3D 4 f rfl rfl (by decide) (by decide) (fun _ => rfl)
theorem icacheFill (core asid va : Nat) : Statement (.icacheFill core asid va) := of_event _ rfl
theorem variableLatencyCompletion (wg warp idx : Nat) : Statement (.variableLatencyCompletion wg warp idx) := of_event _ rfl
theorem fairnessOverdue (wg warp pc : Nat) : Statement (.fairnessOverdue wg warp pc) := of_event _ rfl
theorem sleepWake (wg warp wake : Nat) : Statement (.sleepWake wg warp wake) := of_event _ rfl
theorem hsleepWake (wg warp wake : Nat) : Statement (.hsleepWake wg warp wake) := of_event _ rfl
theorem infuserCommandStart (core : Nat) : Statement (.infuserCommandStart core) := of_event _ rfl
theorem nativeStepComplete (core : Nat) : Statement (.nativeStepComplete core) := of_event _ rfl
theorem engineCommandCompletion (ctx : Nat) : Statement (.engineCommandCompletion ctx) := of_event _ rfl
theorem collectiveComplete (group : Nat) (remote : List CollPart) : Statement (.collectiveComplete group remote) := of_event _ rfl
theorem reportedTrapDelivery (wg warp : Nat) : Statement (.reportedTrapDelivery wg warp) := of_event _ rfl
theorem atomicUnitOperation (idx : Nat) : Statement (.atomicUnitOperation idx) := of_event _ rfl
theorem replayDivergence (ctx entry : Nat) : Statement (.replayDivergence ctx entry) := of_event _ rfl
theorem pageWalkComplete (asid va : Nat) : Statement (.pageWalkComplete asid va) := of_event _ rfl
theorem remoteTimeout (wg warp : Nat) : Statement (.remoteTimeout wg warp) := of_event _ rfl
theorem ualinkRemoteRequest (req : RemoteReq) : Statement (.ualinkRemoteRequest req) := of_event _ rfl
theorem yieldRequest (core : Nat) : Statement (.yieldRequest core) := of_event _ rfl
theorem workgroupSave (wg : Nat) : Statement (.workgroupSave wg) := of_event _ rfl
theorem safePointOverdue (wg : Nat) : Statement (.safePointOverdue wg) := of_event _ rfl
theorem safePointSecondBudget (wg : Nat) : Statement (.safePointSecondBudget wg) := of_event _ rfl
theorem bindCreate (core : Nat) : Statement (.bindCreate core) := of_event _ rfl
theorem bindResume (core : Nat) : Statement (.bindResume core) := of_event _ rfl
theorem bindWithdrawCore (core : Nat) : Statement (.bindWithdrawCore core) := of_event _ rfl
theorem bindReturnCore (core : Nat) : Statement (.bindReturnCore core) := of_event _ rfl
theorem workgroupRetire (wg : Nat) : Statement (.workgroupRetire wg) := of_event _ rfl
theorem launchRecordTake (ctx queue : Nat) : Statement (.launchRecordTake ctx queue) := of_event _ rfl
theorem workgroupPlacement (lslot : Nat) : Statement (.workgroupPlacement lslot) := of_event _ rfl
theorem launchFinish (lslot : Nat) : Statement (.launchFinish lslot) := of_event _ rfl
theorem deterministicMerge (wg : Nat) : Statement (.deterministicMerge wg) := of_event _ rfl
theorem bufferFullRelease (wg : Nat) : Statement (.bufferFullRelease wg) := of_event _ rfl
theorem coreRenumber (core : Nat) : Statement (.coreRenumber core) := of_event _ rfl
theorem scanComplete (core : Nat) : Statement (.scanComplete core) := of_event _ rfl
theorem scanAbort (core : Nat) : Statement (.scanAbort core) := of_event _ rfl
theorem write (fr : Frame) : Statement (.write fr) := of_event _ rfl
theorem read (fr : Frame) : Statement (.read fr) := of_event _ rfl
theorem release (fr : Frame) : Statement (.release fr) := of_event _ rfl
theorem launchFrame (fr : Frame) : Statement (.launchFrame fr) := of_event _ rfl
theorem mgmtRead (fr : Frame) : Statement (.mgmtRead fr) := of_event _ rfl
theorem mgmtWrite (fr : Frame) : Statement (.mgmtWrite fr) := of_event _ rfl
theorem mgmtWritePkgid (fr : Frame) : Statement (.mgmtWritePkgid fr) := of_event _ rfl
theorem mgmtWritePodid (fr : Frame) : Statement (.mgmtWritePodid fr) := of_event _ rfl
theorem mgmtWriteIpctl (fr : Frame) : Statement (.mgmtWriteIpctl fr) := of_event _ rfl
theorem mgmtWriteGroup (fr : Frame) : Statement (.mgmtWriteGroup fr) := of_event _ rfl
theorem ipaddrDadComplete (dup : Bool) : Statement (.ipaddrDadComplete dup) := of_event _ rfl
theorem mailboxAckTimer (sess : Nat) : Statement (.mailboxAckTimer sess) := of_event _ rfl
theorem neighbourDiscovery (peer : Nat) (pk : Packet) : Statement (.neighbourDiscovery peer pk) := of_event _ rfl
theorem icmpv6Echo (peer : Nat) (pk : Packet) : Statement (.icmpv6Echo peer pk) := of_event _ rfl
theorem hostLinkUp (up : LinkUp) : Statement (.hostLinkUp up) := of_event _ rfl
theorem hello (fr : Frame) : Statement (.hello fr) := of_event _ rfl
theorem prove (fr : Frame) : Statement (.prove fr) := of_event _ rfl
theorem proveTimeout (idx : Nat) : Statement (.proveTimeout idx) := of_event _ rfl
theorem claim (fr : Frame) : Statement (.claim fr) := of_event _ rfl
theorem handover (fr : Frame) : Statement (.handover fr) := of_event _ rfl
theorem close (fr : Frame) : Statement (.close fr) := of_event _ rfl
theorem electionWindowClose  : Statement .electionWindowClose := of_event _ rfl
theorem ownershipLapse  : Statement .ownershipLapse := of_event _ rfl
theorem load (ctx : Nat) : Statement (.load ctx) := of_event _ rfl
theorem unload (ctx : Nat) : Statement (.unload ctx) := of_event _ rfl
theorem installSupervisor (ctx : Nat) : Statement (.installSupervisor ctx) := of_event _ rfl
theorem setSavePool (ctx : Nat) : Statement (.setSavePool ctx) := of_event _ rfl
theorem qpfTranslationComplete (ctx load kix : Nat) (res : QpfResult) : Statement (.qpfTranslationComplete ctx load kix res) := of_event _ rfl
theorem supplyDroop (level : Nat) : Statement (.supplyDroop level) := of_event _ rfl
theorem supplyLevelRecovery  : Statement .supplyLevelRecovery := of_event _ rfl
theorem holdEntry  : Statement .holdEntry := of_event _ rfl
theorem holdExit (cycles : Nat) : Statement (.holdExit cycles) := of_event _ rfl
theorem powerFail  : Statement .powerFail := of_event _ rfl
theorem linkRetrain (link : Nat) : Statement (.linkRetrain link) := of_event _ rfl
theorem linkRetrainComplete (link lanes : Nat) : Statement (.linkRetrainComplete link lanes) := of_event _ rfl
theorem softError (e : SoftErr) : Statement (.softError e) := of_event _ rfl
theorem errorEventCount (kind inst : Nat) : Statement (.errorEventCount kind inst) := of_event _ rfl
theorem errorWindowClose (kind inst : Nat) : Statement (.errorWindowClose kind inst) := of_event _ rfl
theorem cntWrite (k value : Nat) : Statement (.cntWrite k value) := of_event _ rfl
theorem streqWrite (value : Nat) : Statement (.streqWrite value) := of_event _ rfl
theorem mapCommit  : Statement .mapCommit := of_event _ rfl
theorem mapApply  : Statement .mapApply := of_event _ rfl
theorem hubRegisterWrite (off : Nat) (data : List Byte) : Statement (.hubRegisterWrite off data) := of_event _ rfl
theorem deviceReset  : Statement .deviceReset := of_event _ rfl
theorem selfTestComplete (failedCores : List Nat) (otherFail : Bool) : Statement (.selfTestComplete failedCores otherFail) := of_event _ rfl
theorem tamperAlarm  : Statement .tamperAlarm := of_event _ rfl
theorem glitchAlarm  : Statement .glitchAlarm := of_event _ rfl
theorem malformedFrame (fr : Frame) : Statement (.malformedFrame fr) := of_event _ rfl
theorem writePerformedAtL2 (core line : Nat) : Statement (.writePerformedAtL2 core line) := of_event _ rfl
theorem endToEndCrcMismatch (what : CrcTarget) (n : Nat) : Statement (.endToEndCrcMismatch what n) := of_event _ rfl
theorem shockSensorLatch  : Statement .shockSensorLatch := of_event _ rfl

end Sys2Proof.Laws.RoundTrip
end

