-- ==== Sys2Proof/Safety.lean ====
section
/-!
DEFINITION. The terms in which claims speak: when an instruction passes every check that all instructions share (R445),
the state in which it has issued, and the standing conditions on states (memory in its canonical form, lanes in one
place).
-/

namespace Sys2Proof.Machine

open Sys2Proof

/-! ### An instruction that passes its common checks (R445) -/

/-- Encoding, level and declarations are right, some lane is active, and no stall, poison or stream check fails. -/
def Iss.sound (c : Iss) (i : Instr) : Bool :=
  (encodingGate c i).isNone && !c.act.isEmpty && (stallTrap c i).isNone && (poisonTrap c i).isNone &&
  (streamFails c i).isEmpty

/-- The handles that an instruction waits for, by active lane (R58). -/
def Iss.handles (c : Iss) (i : Instr) : List (Nat × Nat) :=
  (blockingHandles i).flatMap (fun r => c.act.map (fun l => (l, (c.warp.getH l r).toNat)))

/-- A handle that it waits for is not the null handle: its completion is observed. -/
def Iss.observes (c : Iss) (i : Instr) : Bool := (c.handles i).any (fun e => e.2 ≠ 0)

/-- Every handle it waits for may be read and is complete, and no LR hold keeps back a write-back that comes first (R168). -/
def Iss.unblocked (c : Iss) (i : Instr) : Bool :=
  (handleTrap c.s c.ctx (c.handles i)).isNone &&
  (blockingHandles i).all (fun r => c.act.all (fun l => handleState c.s c.ctx (c.warp.getH l r).toNat != .pending)) &&
  (!c.observes i || !writebackHeld c.s c.core (fun _ => true))

/-- What the instruction's own part works on: the completion of a handle is observed (R168). -/
def Iss.observing (c : Iss) (i : Instr) : Iss := if c.observes i then { c with s := dropAll c.s c.core } else c

/-- An entry issues `i` and every common check passes: `c0` is the issue, `c1` with the elements it takes from input
streams, `c` as the instruction's own part sees it. -/
def Issues (s : State) (i : Instr) (c0 c1 c : Iss) : Prop :=
  issuing s i = some c0 ∧ c0.sound i = true ∧ takeStreams c0 (inputStreams i) = .ok c1 ∧ streamPoison c1 i = none ∧
  c1.unblocked i = true ∧ c = c1.observing i

/-- The instruction has issued with outcome `o`: its lanes have moved and its results are under way; a rejoin deadlock
that this leaves is settled (R458). -/
def issued (c : Iss) (i : Instr) (flagged : Bool) (o : Out) : State :=
  settleDeadlock (commit c i { flagged := flagged, run := fun _ => .wait } o) c.wg c.w

/-- It has issued, and `post` was done when its lanes had moved. -/
def issuedThen (c : Iss) (i : Instr) (o : Out) (post : State → State) : State :=
  settleDeadlock (post (commit c i { run := fun _ => .wait } o)) c.wg c.w

/-- What an instruction that raises flags leaves under way: each lane's flags, and their union (R114). -/
def flaggedOut (s : State) (draws : Nat) (rs : List (Nat × Nat × Nat)) : Out :=
  { s := s, flags := rs.foldl (fun x r => x ||| r.2.2) 0
    laneFlags := (rs.map (fun r => (r.1, r.2.2))).filter (fun e => e.2 ≠ 0), draws := draws }

/-- The issue completes with results `vals`, one per active lane, for D: as register writes, or appended to the stream
that D names (R82, R253). -/
def Lands (s : State) (c : Iss) (i : Instr) (flagged : Bool) (o : Out) (wide : Bool) (vals : List (Nat × Nat)) : Prop :=
  (isS c.f.d.toNat = false →
    exec i s = .next (issued c i flagged { o with writes := o.writes ++ destWrites c.warp c.f.d.toNat wide vals })) ∧
  (isS c.f.d.toNat = true → ∀ o', appendStream c o (c.f.d.toNat - 96) (vals.map (fun e => (e.1, c.result e.1 (some e.2)))) = .out o' →
    exec i s = .next (issued c i flagged o'))

end Sys2Proof.Machine
end

