-- ==== Sys2Proof/Certificates/Slice0/Obligations.lean ====
section
/-!
DEFINITION. The statements, and beside each the tables it speaks of: what the rules of the spec give for one lane, one
warp or one unit.
-/

open Sys2Proof Sys2Proof.Machine

namespace Sys2Proof.Machine.Claim

/-! ### Integer, logical, move and shift instructions -/

/-- One lane's result under OP 0x02 to 0x05 (R211 to R221) and PARTGET, RJTEST, RJMASK, CYCRD: is it 64 bits wide, and the
value. -/
def intResult (i : Instr) (c : Iss) (l : Nat) : Option (Bool × Nat) :=
  let w := c.width
  let u := c.f.mU
  let wr (x : Int) : Option (Bool × Nat) := some (c.f.mW, writeInt w u c.f.mSat x)
  let nat (x : Nat) : Option (Bool × Nat) := some (c.f.mW, x)
  let one (x : Nat) : Option (Bool × Nat) := some (false, x)
  let a := c.a c.f.mW l
  let b := c.b c.f.mW l
  let n := c.b false l
  let x := readInt w u a
  let y := readInt w u b
  match i with
  | .iadd _ => wr (x + y)
  | .isum3 _ => wr (x + y + readInt w u (c.c c.f.mW l))
  | .isub _ => wr (x - y)
  | .ineg _ => wr (-x)
  | .iabs _ => wr |x|
  | .imin _ => wr (min x y)
  | .imax _ => wr (max x y)
  | .isat _ => nat (isatVal w u a n)
  | .icmp f =>
    let t := icmpVal (f.mX % 8) x y
    let p := c.read c.f.c.toNat false l ≠ 0
    one (if f.mX / 8 = 1 then b2n (t && p) else if f.mX / 8 = 2 then b2n (t || p) else b2n t)
  | .sel _ => nat (if c.read c.f.c.toNat false l ≠ 0 then a else b)
  | .lea f => nat (wrap w ((a : Int) + readInt 32 u n * 2 ^ f.mX))
  | .imul _ => wr (x * y)
  | .imulh _ => nat (wrap w (x * y / 2 ^ w))
  | .imad _ => wr (x * y + readInt w u (c.c c.f.mW l))
  | .imadw _ => some (true, writeInt 64 u c.f.mSat
      (readInt 32 u (c.a false l) * readInt 32 u (c.b false l) + readInt 64 u (c.c true l)))
  | .and _ => nat (a &&& b)
  | .or _ => nat (a ||| b)
  | .xor _ => nat (a ^^^ b)
  | .not _ => nat (2 ^ w - 1 - a % 2 ^ w)
  | .blut f => one (blutVal (bits f.immN 20 8) (c.a false l) (c.b false l) (c.c false l))
  | .plut f => one (bitN (bits f.immN 20 8)
      (c.read c.f.a.toNat false l + 2 * c.read c.f.b.toNat false l + 4 * c.read c.f.c.toNat false l))
  | .pmovGet _ => one (maskOf ((List.range 8).filter (fun j => c.warp.getP l j)))
  | .mov _ => nat a
  | .movi f => one (sextTo 28 32 f.immN)
  | .movk f => nat (setBits a (16 * (f.mX % 4)) 16 n)
  | .shl _ => nat (if w ≤ n then 0 else a * 2 ^ n % 2 ^ w)
  | .shr _ => nat (if w ≤ n then 0 else a / 2 ^ n)
  | .sar _ => nat (wrap w (signed w a / 2 ^ min n w))
  | .fshl _ => nat ((a * 2 ^ w + b) * 2 ^ min (c.c false l) w / 2 ^ w % 2 ^ w)
  | .fshr _ => nat ((b * 2 ^ w + a) / 2 ^ min (c.c false l) w % 2 ^ w)
  | .bfe _ => nat (bfeVal w u a n)
  | .bfi _ => nat (bfiVal w a n (c.c c.f.mW l))
  | .brev _ => nat (maskOf ((List.range w).filter (fun j => bitB a (w - 1 - j))))
  | .popc _ => one (popCount w a)
  | .clz _ => one (if a = 0 then w else w - 1 - Nat.log2 a)
  | .ctz _ => one ((lowestBit w a).getD w)
  | .sext _ => nat (extVal w true a n)
  | .zext _ => nat (extVal w false a n)
  | .partget _ => one c.warp.part
  | .rjtest f =>
    let q := c.warp.rj (bits f.immN 20 4)
    one (b2n (q.isOpen && (q.mem &&& ~~~q.arr &&& ~~~c.amask) = 0))
  | .rjmask f => one (c.warp.rj (bits f.immN 20 4)).mem.toNat
  | .cycrd _ => some (true, c.s.sample (coreDie c.core))
  | _ => none

end Sys2Proof.Machine.Claim

/-- Integer, logical, move, predicate, shift and bit-field instructions (R207 to R221), with PARTGET (R229), RJTEST and
RJMASK (R66) and CYCRD (R353): with the common checks passed, the instruction issues, and every active lane's result is
the table's. -/
def Obligations.IntegerResults : Prop :=
  ∀ (s : State) (i : Instr) (c0 c1 c : Iss) (wide : Bool) (val : Nat → Nat),
    Issues s i c0 c1 c → (∀ l ∈ c.act, Claim.intResult i c l = some (wide, val l)) →
    Lands s c i false { s := c.s } wide (c.act.map (fun l => (l, val l)))

/-- IDIV and IREM (R216).  With the common checks passed they complete, with the quotient and the remainder; these never fault:
division by 0, the one quotient out of range, and otherwise the quotient truncated toward zero and the remainder that takes the
dividend's sign.  They are of class V: of 32 bits they complete 18 to 34 cycles after issue, of 64 bits 34 to 66, and the loader
rejects one that writes a register and sets no token. -/
def Obligations.DivisionResults : Prop :=
  (∀ (s : State) (f : Fields) (c0 c1 c : Iss),
    let o : Out := { s := c.s, least := if c.f.mW then 34 else 18, span := some (if c.f.mW then 32 else 16) }
    (Issues s (.idiv f) c0 c1 c →
      Lands s c (.idiv f) false o c.f.mW (c.act.map (fun l => (l, idivVal c.width c.f.mU (c.a c.f.mW l) (c.b c.f.mW l))))) ∧
    (Issues s (.irem f) c0 c1 c →
      Lands s c (.irem f) false o c.f.mW (c.act.map (fun l => (l, iremVal c.width c.f.mU (c.a c.f.mW l) (c.b c.f.mW l))))) ∧
    (∀ i x, i = .idiv f ∨ i = .irem f →
      let b := issueWb c i o x
      b.isVar = true ∧ (c.f.mW = false → c.s.now + 18 ≤ b.due ∧ b.due ≤ c.s.now + 34) ∧
      (c.f.mW = true → c.s.now + 34 ≤ b.due ∧ b.due ≤ c.s.now + 66))) ∧
  (∀ f : Fields, f.st = 0 → (isVK f.d.toNat || isP f.d.toNat) = true → lacksToken (.idiv f) = true ∧ lacksToken (.irem f) = true) ∧
  (∀ w a b : Nat, w = 32 ∨ w = 64 → a < 2 ^ w → b < 2 ^ w →
    (b = 0 → idivVal w true a b = 2 ^ w - 1 ∧ iremVal w true a b = a) ∧
    (b = 0 → signed w (idivVal w false a b) = -1 ∧ iremVal w false a b = a) ∧
    (signed w a = -2 ^ (w - 1) → signed w b = -1 → signed w (idivVal w false a b) = -2 ^ (w - 1) ∧ iremVal w false a b = 0) ∧
    (b ≠ 0 → idivVal w true a b = a / b ∧ iremVal w true a b = a % b) ∧
    (b ≠ 0 → ¬ (signed w a = -2 ^ (w - 1) ∧ signed w b = -1) →
      signed w (idivVal w false a b) = (signed w a).tdiv (signed w b) ∧
      signed w (iremVal w false a b) = signed w a - signed w b * (signed w a).tdiv (signed w b) ∧
      (0 ≤ signed w a → 0 ≤ signed w (iremVal w false a b)) ∧ (signed w a ≤ 0 → signed w (iremVal w false a b) ≤ 0)))

namespace Sys2Proof.Machine.Claim

/-! ### Element-wise instructions -/

/-- Element `j` of one lane's result under an instruction that reads its sources in FS (R235 to R237, R239, R244): code
and flags. -/
def floatElem (i : Instr) (c : Iss) (l j : Nat) : Option (Nat × Nat) :=
  let n := c.nd
  let u := c.drawAt l j
  let code (x : Nat) : Nat := elem (c.slotSrc x n l) j n
  let a := decodeVal (code c.f.a.toNat) n
  let b := decodeVal (code c.f.b.toNat) n
  let into (x : Val × Nat) : Option (Nat × Nat) := some (roundInto n x u)
  match i with
  | .fadd _ => into (addVal (Slot.rdn n) a b)
  | .fsub _ => into (subVal (Slot.rdn n) a b)
  | .fmul _ => into (mulVals a b)
  | .ffma _ => into (fmaVal (Slot.rdn n) a b (decodeVal (code c.f.c.toNat) n))
  | .fmin _ => some (minMaxInto false n a b u)
  | .fmax _ => some (minMaxInto true n a b u)
  | .frnd f => some (roundVal n (rndVal (if f.x3 = 0 then n.rnd else f.x3 - 1) a u) u)
  | .fscale _ => some (roundVal n (scaleVal a (signed 32 (c.b false l))) u)
  | .frcp _ => into (rcpVal a)
  | .frsq _ => into (rsqVal a)
  | .fsqrt _ => into (sqrtVal a)
  | .fdiv _ => into (divVal a b)
  | .fexp2 _ => into (exp2Val a)
  | .flog2 _ => into (log2Val a)
  | .fsin _ => into (sinVal a)
  | .fcos _ => into (cosVal a)
  | .ftanh _ => into (tanhCode (c.s.compatOf c.wg) n (code c.f.a.toNat))
  | _ => none

/-- Cycles of the two that are of variable latency (R244): the least, and how many more. -/
def floatTime : Instr → Nat × Option Nat
  | .fsqrt _ => (16, some 16)
  | .fdiv _ => (20, some 20)
  | _ => (1, none)

/-- One lane's result under a conversion, a packing, FDOT (R240 to R243), or RAND (R246): the register bits, 64 where two
registers are written, and the flags. -/
def convResult (i : Instr) (c : Iss) (l : Nat) : Option (Bool × Nat × Nat) :=
  let src (x j : Nat) : Nat := elem (c.slotSrc x c.ns l) j c.ns
  let old := if c.keepsSome then c.read c.f.d.toNat false l else 0
  let each (g : Nat → Nat → Nat × Nat) : Option (Bool × Nat × Nat) :=
    some (false, assemble c.nd old ((pairsOf c.f.grp c.nd.L c.ns.L).map (fun p => (p.2, g p.1 (c.drawAt l p.2)))))
  match i with
  | .fcvt _ | .f2i _ | .i2f _ => each (fun j u => cvt (src c.f.a.toNat j) c.ns c.nd u)
  | .fpack _ =>
    let n := c.ns.L
    let el (x j k : Nat) : Nat × Nat × Nat := (k, cvt (src x j) c.ns c.nd (c.drawAt l k))
    some (false, assemble c.nd (c.read c.f.d.toNat false l)
      ((List.range n).map (fun j => el c.f.a.toNat j (c.f.grp * 2 * n + j)) ++
       (List.range n).map (fun j => el c.f.b.toNat j (c.f.grp * 2 * n + n + j))))
  | .funpack _ =>
    let n := c.nd.L
    let half (h : Nat) : Nat × Nat := assemble c.nd 0 ((List.range n).map (fun j =>
      (j, cvt (src c.f.a.toNat (c.f.grp * 2 * n + h * n + j)) c.ns c.nd (c.drawAt l (h * n + j)))))
    some (true, (half 0).1 + 2 ^ 32 * (half 1).1, (half 0).2 ||| (half 1).2)
  | .fdot _ =>
    let el (x : Nat) : List Val := (elems (c.slotSrc x c.ns l) c.ns).map (fun y => decodeVal y c.ns)
    some (false, assemble c.nd 0 [(0, roundInto c.nd
      (dotVal (Slot.rdn c.nd) (decodeVal (elem (c.slotSrc c.f.c.toNat c.nd l) 0 c.nd) c.nd) ((el c.f.a.toNat).zip (el c.f.b.toNat)))
      (c.drawAt l 0))])
  | _ => none

/-- The limit on GRP of a conversion or packing (R233, R243), and the registers rounded. -/
def convLimit (i : Instr) (c : Iss) : Nat × Nat :=
  match i with
  | .fpack _ => (c.nd.L / max 1 (2 * c.ns.L), 1)
  | .funpack _ => (c.ns.L / max 1 (2 * c.nd.L), 2)
  | .fdot _ => (1, 1)
  | _ => (grpLimit c.nd.L c.ns.L, 1)

/-- Elements of D that a conversion or packing keeps (R233): D is read. -/
def convKeeps (i : Instr) (c : Iss) : Bool :=
  match i with
  | .fpack _ => 2 * c.ns.L < c.nd.L
  | .funpack _ | .fdot _ => false
  | _ => c.keepsSome

/-- What a conversion asks of its slots or of the matrix engine beside their validity (R240 to R242). -/
def convNeeds (i : Instr) (c : Iss) : Prop :=
  match i with
  | .f2i _ => c.nd.E = 0 ∧ c.nd.B = 0
  | .i2f _ => c.ns.E = 0
  | .fdot _ => 16 < c.nd.W
  | _ => True

/-- One lane's result under FCVTS (R242), the scale registers read in `c.s`. -/
def scaledResult (c : Iss) (l : Nat) : Nat × Nat :=
  assemble c.nd (if c.keepsSome then c.read c.f.d.toNat false l else 0)
    ((pairsOf c.f.grp c.nd.L c.ns.L).map (fun p =>
      (p.2, scaledCode (decodeVal (elem (c.slotSrc c.f.a.toNat c.ns l) p.1 c.ns) c.ns) c.nd
        ((c.s.getCore c.core).mx.scale (c.b false l % 256 + p.1)) (c.drawAt l p.2))))

end Sys2Proof.Machine.Claim

/-- Element-wise arithmetic and functions (R232 to R239, R244): with FS valid and able to round, and GRP 0, the instruction
issues; every element of every active lane is the table's, and its flags and draws go with it. -/
def Obligations.FloatResults : Prop :=
  ∀ (s : State) (i : Instr) (c0 c1 c : Iss) (el : Nat → Nat → Nat × Nat),
    Issues s i c0 c1 c → slotFail c0 c0.f.fs.toNat true = [] → c.f.grp = 0 →
    (∀ l ∈ c.act, ∀ j < c.nd.L, Claim.floatElem i c l j = some (el l j)) → 0 < c.nd.L →
    let rs := c.act.map (fun l => (l, assemble c.nd 0 ((List.range c.nd.L).map (fun j => (j, el l j)))))
    Lands s c i true { flaggedOut c.s (slotDraws 1 c) rs with least := (Claim.floatTime i).1, span := (Claim.floatTime i).2 }
      false (rs.map (fun r => (r.1, r.2.1)))

/-- Conversions, packings and FDOT (R240, R241, R243): the same from SS to FS, where elements of D that no result reaches
keep their values (R233). -/
def Obligations.ConversionResults : Prop :=
  ∀ (s : State) (i : Instr) (c0 c1 c : Iss) (wide : Bool) (val : Nat → Nat × Nat),
    Issues s i c0 c1 c → slotFail c0 c0.f.fs.toNat true = [] → slotFail c0 c0.f.x3 false = [] → Claim.convNeeds i c0 →
    c0.f.grp < (Claim.convLimit i c0).1 → (Claim.convKeeps i c = true → keptPoison c = none) →
    (∀ l ∈ c.act, Claim.convResult i c l = some (wide, val l)) →
    let rs := c.act.map (fun l => (l, val l))
    Lands s c i true (flaggedOut c.s (slotDraws (Claim.convLimit i c).2 c) rs) wide (rs.map (fun r => (r.1, r.2.1)))

/-- FCVTS (R242): the same with one scale for each source element, by the owner of the matrix engine; where IMM[20] is set,
the maximum magnitude that IMM names takes in the source values (R125). -/
def Obligations.ScaledConversion : Prop :=
  ∀ (s : State) (f : Fields) (c0 c1 c : Iss),
    Issues s (.fcvts f) c0 c1 c → slotFail c0 c0.f.fs.toNat true = [] → slotFail c0 c0.f.x3 false = [] → c0.owns = true →
    c0.f.grp < grpLimit c0.nd.L c0.ns.L → (c.keepsSome = true → keptPoison c = none) →
    let d := { c with s := if bitB f.immN 20 then mxUpdates c (bits f.immN 17 3) else c.s }
    let rs := c.act.map (fun l => (l, Claim.scaledResult d l))
    Lands s c (.fcvts f) true (flaggedOut d.s (slotDraws 1 c) rs) false (rs.map (fun r => (r.1, r.2.1)))

namespace Sys2Proof.Machine.Claim

/-! ### Tests, random numbers and cross-lane instructions -/

/-- The test of element `j` of a lane by FCMP or FCLASS (R238). -/
def elemTest (i : Instr) (c : Iss) (l j : Nat) : Option Bool :=
  let code (x : Nat) : Nat := elem (c.slotSrc x c.nd l) j c.nd
  match i with
  | .fcmp f => some (fcmpVal f.x3 (decodeVal (code c.f.a.toNat) c.nd) (decodeVal (code c.f.b.toNat) c.nd))
  | .fclass _ => some (bitB (c.b false l) (classOf (code c.f.a.toNat) c.nd))
  | _ => none

/-- A lane's result under VOTE, SHFL or MATCH (R248, R249): is it 64 bits wide, the value, and whether the validity
predicate is set (R247). -/
def crossResult (i : Instr) (c : Iss) (l : Nat) : Option (Bool × Nat × Bool) :=
  let vs := c.valid l
  match i with
  | .vote f =>
    let yes (k : Nat) : Bool := c.a false k ≠ 0
    let x : Nat := match f.mX % 4 with
      | 0 => b2n (vs.all yes)
      | 1 => b2n (vs.any yes)
      | 2 => b2n (vs.all (fun k => c.a false k = c.a false l))
      | _ => maskOf (vs.filter yes)
    some (false, x, c.tileFull l)
  | .shfl f =>
    let ok := shflValid c l
    some (bitB f.mX 2, c.a (bitB f.mX 2) (if ok then (shflSource c l).toNat else l), ok)
  | .matchL f =>
    some (false, maskOf (vs.filter (fun k => c.a (bitB f.mX 0) k = c.a (bitB f.mX 0) l)), c.tileFull l)
  | _ => none

/-- The lanes that REDUX or SCAN combines for a reader (R250), and whether operands are 64 bits wide. -/
def reduxLanes (i : Instr) (c : Iss) (l : Nat) : Option (Bool × List Nat) :=
  match i with
  | .redux f => some (bitB f.mX 4 && f.mX % 8 < 6, c.valid l)
  | .scan f => some (false, (c.valid l).filter (fun k => if bitB f.mX 4 then k < l else k ≤ l))
  | _ => none

/-- What a reader gets from the lanes `ks` (R250): an integer combination, or a sum or maximum of every element. -/
def reduxValue (c : Iss) (wide : Bool) (ks : List Nat) (l : Nat) : Nat × Nat :=
  let op := c.f.mX % 8
  if op < 6 then (reduxInt op (if wide then 64 else 32) (bitB c.f.mX 3) (ks.map (c.a wide)), 0)
  else
    assemble c.nd 0 ((List.range c.nd.L).map (fun j =>
      let vs := ks.map (fun k => decodeVal (elem (c.slotSrc c.f.a.toNat c.nd k) j c.nd) c.nd)
      (j, if op = 6 then reduxAdd c.nd vs (c.drawAt l j) else reduxMax c.nd vs (c.drawAt l j))))

end Sys2Proof.Machine.Claim

/-- FCMP and FCLASS (R238) into a `v` or `k` register, as a mask of elements, or into a predicate, for the element GRP; and
RAND (R246), one draw as a word, or one value in [0, 1) for every element of FS. -/
def Obligations.TestAndRandomResults : Prop :=
  ∀ (s : State) (i : Instr) (c0 c1 c : Iss), Issues s i c0 c1 c →
    (∀ t : Nat → Nat → Bool, (∀ l j, Claim.elemTest i c l j = some (t l j)) → slotFail c0 c0.f.fs.toNat false = [] →
      (isP c0.f.d.toNat = true → c0.f.grp < c0.nd.L) →
      Lands s c i false { s := c.s } false (c.act.map (fun l =>
        (l, if isP c.f.d.toNat then b2n (t l c.f.grp) else maskOf ((List.range c.nd.L).filter (t l)))))) ∧
    (∀ f, i = .rand f → f.x3 = 0 →
      Lands s c i false { s := c.s, draws := 1 } false (c.act.map (fun l => (l, c.drawAt l 0)))) ∧
    (∀ f, i = .rand f → f.x3 ≠ 0 → slotFail c0 c0.f.fs.toNat true = [] →
      Lands s c i false { s := c.s, draws := c.nd.L } false (c.act.map (fun l =>
        (l, packE ((List.range c.nd.L).map (fun j =>
          (roundVal (c.nd.withRnd 1) (.num false (.rat (c.drawAt l j % 2 ^ 24) (2 ^ 24))) 0).1)) c.nd.W))))

/-- VOTE, SHFL and MATCH (R247 to R249): each reader's value comes from the valid lanes of its tile, and the validity
predicate that IMM names is written beside it. -/
def Obligations.CrossLaneResults : Prop :=
  ∀ (s : State) (i : Instr) (c0 c1 c : Iss) (wide : Bool) (val : Nat → Nat) (ok : Nat → Bool),
    Issues s i c0 c1 c → (∀ l, Claim.crossResult i c l = some (wide, val l, ok l)) →
    Lands s c i false { s := c.s, writes := vpWrites c ok } wide (c.act.map (fun l => (l, val l)))

/-- REDUX and SCAN (R250): each reader combines the lanes the table names, in ascending order; sums and maxima of elements
round into FS and raise its flags. -/
def Obligations.ReductionResults : Prop :=
  ∀ (s : State) (i : Instr) (c0 c1 c : Iss) (wide : Bool) (ks : Nat → List Nat),
    Issues s i c0 c1 c → (∀ l, Claim.reduxLanes i c l = some (wide, ks l)) →
    (6 ≤ c0.f.mX % 8 → slotFail c0 c0.f.fs.toNat true = []) →
    let rs := c.act.map (fun l => (l, Claim.reduxValue c wide (ks l) l))
    Lands s c i true
      { flaggedOut c.s (if c.f.mX % 8 < 6 then 0 else slotDraws 1 c) rs with writes := vpWrites c c.tileFull }
      wide (rs.map (fun r => (r.1, r.2.1)))

namespace Sys2Proof.Machine.Claim

/-- Set stream `n` of the issuing warp. -/
def withStream (c : Iss) (n : Nat) (x : Stream) : State := c.s.modWarp c.wg c.w (fun w => { w with s := w.s.put n x })

/-- A position that SSEEK may set (R255): I0 below N0, I1 at most N1, and I0 zero at the end. -/
def seekable (x : Stream) (a : Nat) : Bool :=
  bits a 0 12 < x.n0 && bits a 12 13 ≤ x.n1 && (bits a 12 13 ≠ x.n1 || bits a 0 12 = 0)

/-- The state of a CHAIN that is accepted (R258): `words` is its program, `k` its count. -/
def chainOf (c : Iss) (words : List Nat) (k : Nat) : Chain :=
  { prog := words.map (BitVec.ofNat 64), n := k, done := 0, st := c.f.st.toNat, idx := c.warp.nextIdx, lane0 := c.l0
    ks := (((chainSteps words).flatMap (fun x => ((stSel x).filter isK).map (· - 64))).dedup).map (fun r => (r, c.warp.getK r))
    d0 := (c.warp.lane c.l0).draw, g0 := gidOf c.s c.wg c.w c.l0, flags := 0
    fmt := (List.range 8).map (fun j => c.g.fmt.get 0 j), amr := c.g.amr, modeS := c.warp.modeS }

/-! ### Control -/

/-- The frame that a call or return moves by, and a call's effect (R52): depth and frame pointer of every active lane, its
link word, and its target. -/
def callOut (c : Iss) (tgt : Nat → Int) : Out :=
  let fr (l : Nat) : Nat := 16 * c.frameCode (tgt l - c.sect.1).toNat
  { s := c.modWarp (fun w => c.act.foldl (fun w l =>
      w.modLane l (fun x => { x with fp := x.fp + fr l, depth := x.depth + 1 })) w)
    writes := c.act.map (fun l => .v l ((c.warp.lane l).fp + fr l + 63)
      (some (BitVec.ofNat 32 (fr l / 16 * 2 ^ 28 + (c.cur.npc.toNat - c.sect.1) % 2 ^ 28))))
    moves := c.act.map (fun l => (l, some (c.entryPc (tgt l)))) }

/-- A call of a lane needs neither a spill nor more depth than there is (R52, R455). -/
def callFits (c : Iss) (tgt : Nat → Int) (l : Nat) : Prop :=
  c.warp.depth l ≠ 65535 ∧ needsSpill c (16 * c.frameCode (tgt l - c.sect.1).toNat) l = false

/-- The frame of a link word (R52), in registers. -/
def linkFrame (c : Iss) (l : Nat) : Nat := 16 * bits (c.warp.getV l (c.warp.pos l 63)).toNat 28 2
/-- Its section offset. -/
def linkOffset (c : Iss) (l : Nat) : Nat := (c.warp.getV l (c.warp.pos l 63)).toNat % 2 ^ 28

/-- RET of a lane needs no fill, and its link word is sound (R53, R455). -/
def retFits (c : Iss) (l : Nat) : Prop :=
  (c.warp.lane l).depth ≠ 0 ∧ bits (c.warp.getV l (c.warp.pos l 63)).toNat 30 2 = 0 ∧ linkOffset c l < c.sect.2 ∧
  (c.warp.lane l).rb + linkFrame c l ≤ (c.warp.lane l).fp

end Sys2Proof.Machine.Claim

/-- Stream management (R255): SDEF defines a stream from four `k` registers at position 0, SSEEK sets a position, SPOS and
SFLAG read it.  They wait while an operation under way uses the stream. -/
def Obligations.StreamManagement : Prop :=
  ∀ (s : State) (f : Fields) (c0 c1 c : Iss),
    (Issues s (.sdef f) c0 c1 c → bits c1.kDesc 120 3 < 5 → c.streamBusy c.sn = false →
      exec (.sdef f) s = .next (issued c (.sdef f) false
        { s := Claim.withStream c c.sn { desc := BitVec.ofNat 128 c.kDesc, pos := 0 } })) ∧
    (Issues s (.sseek f) c0 c1 c → (c0.warp.stream c0.sn).V = true →
      Claim.seekable (c1.warp.stream c1.sn) (c1.a true c1.l0) = true → c.streamBusy c.sn = false →
      exec (.sseek f) s = .next (issued c (.sseek f) false { s := c.s.modWarp c.wg c.w (fun w =>
        { w with s := w.s.put c.sn { w.stream c.sn with
            pos := BitVec.ofNat 64 (seekPos (w.stream c.sn) (c.a true c.l0)) } }) })) ∧
    (Issues s (.spos f) c0 c1 c → (c0.warp.stream c0.sn).V = true →
      Lands s c (.spos f) false { s := c.s } true (c.act.map (fun l => (l, (c.warp.stream c.sn).pos.toNat)))) ∧
    (Issues s (.sflag f) c0 c1 c → (c0.warp.stream c0.sn).V = true → c.streamBusy c.sn = false →
      Lands s c (.sflag f) false { s := c.s } false
        (c.act.map (fun l => (l, bitN (c.warp.stream c.sn).pos.toNat (29 + bits c.f.immN 24 2)))))

/-- CHAIN (R258): with count 0 it only issues; otherwise, when no CHAIN of its warp is under way, its program can be read,
passes the checks of R257 and names no busy stream, it goes under way with every draw of its elements taken. -/
def Obligations.ChainStarts : Prop :=
  ∀ (s : State) (f : Fields) (c0 c1 c : Iss),
    Issues s (.chain f) c0 c1 c → c1.a true c1.l0 % 64 = 0 → c.warp.chain = none →
    (c.b false c.l0 = 0 → exec (.chain f) s = .next (issued c (.chain f) true { s := c.s })) ∧
    (∀ ts t, c.b false c.l0 ≠ 0 →
      c.access c.s rightR false (partsOf c.l0 (sextVa (c.a true c.l0)) 64) = .ok ts t →
      let r := readParts t c.wg c.core 0 ts
      let words := (List.range 8).map (fun j => leAt r.1 (8 * j) 8)
      let ps := chainSteps words
      let names := (chainIns ps ++ (chainOuts ps).map (·.1)).dedup
      r.2.1 = false → chainFail c ps = none → names.any c.streamBusy = false →
      let ch := Claim.chainOf c words (c.b false c.l0)
      exec (.chain f) s = .next (issued c (.chain f) true
        { s := r.2.2.modWarp c.wg c.w (fun w => { w with chain := some ch })
          draws := 8 * ch.n, awaits := 1, reads := names.map .s ++ (ch.ks.map (·.1)).map .k }))

/-- NOP, BRA, BRX, YIELD, SLEEP and PARTSET (R222 to R224, R227 to R229). -/
def Obligations.ControlFlow : Prop :=
  ∀ (s : State) (f : Fields) (c0 c1 c : Iss),
    (Issues s (.nop f) c0 c1 c → exec (.nop f) s = .next (issued c (.nop f) false { s := c.s })) ∧
    (Issues s (.bra f) c0 c1 c → exec (.bra f) s = .next (issued c (.bra f) false
      { s := c.s, moves := c.act.map (fun l => (l, some (c.entryPc (c.direct (signed 28 c.f.immN))))) })) ∧
    (Issues s (.brx f) c0 c1 c → targetFails c1 = [] → (∀ l ∈ c.act, c.a false l < c.sect.2) →
      exec (.brx f) s = .next (issued c (.brx f) false
        { s := c.s, moves := c.act.map (fun l => (l, some (c.entryPc ((c.sect.1 : Int) + c.a false l)))) })) ∧
    (Issues s (.yield f) c0 c1 c → exec (.yield f) s = .next (issuedThen c (.yield f) { s := c.s }
      (fun t => t.modWarp c.wg c.w (fun w =>
        { w.modEntry c.cur.npc (fun e => { e with yielded := true }) with skip := true })))) ∧
    (Issues s (.sleep f) c0 c1 c → c.a false c.l0 = 0 →
      exec (.sleep f) s = .next (issued c (.sleep f) false { s := c.s })) ∧
    (Issues s (.sleep f) c0 c1 c → c.a false c.l0 ≠ 0 →
      exec (.sleep f) s = .next (issued c (.sleep f) false
        { s := c.modWarp (fun w => w.park c.act .sleep c.cur.npc (c.s.now + c.a false c.l0))
          moves := c.act.map (fun l => (l, none)) })) ∧
    (Issues s (.partset f) c0 c1 c → c1.a false c1.l0 ∈ [2, 4, 8, 16, 32] →
      exec (.partset f) s = .next (issued c (.partset f) false
        { s := c.modWarp (fun w => { w with part := c.a false c.l0 }) }))

/-- CALL, CALLX, RET and EXIT (R52, R53, R225, R226): where no lane needs a spill, a fill or more depth, and every target
is sound, calls push a frame and leave a link word, returns pop it, and lanes that exit are gone, quit their rejoin sets and
may complete barriers (R38, R71). -/
def Obligations.CallsAndReturns : Prop :=
  ∀ (s : State) (f : Fields) (c0 c1 c : Iss),
    (Issues s (.call f) c0 c1 c →
      let tgt (_ : Nat) : Int := c.direct (signed 26 c.f.immN)
      (∀ l ∈ c.act, Claim.callFits c tgt l) →
      exec (.call f) s = .next (issued c (.call f) false (Claim.callOut c tgt))) ∧
    (Issues s (.callx f) c0 c1 c → targetFails c1 = [] →
      let tgt (l : Nat) : Int := (c.sect.1 : Int) + c.a false l
      (∀ l ∈ c.act, Claim.callFits c tgt l ∧ c.a false l < c.sect.2 ∧
        (c.qpf = true → (c.funcs.find? (fun e => e.1 = (tgt l - c.sect.1).toNat)).isSome)) →
      exec (.callx f) s = .next (issued c (.callx f) false (Claim.callOut c tgt))) ∧
    (Issues s (.ret f) c0 c1 c → (∀ l ∈ c.act, Claim.retFits c l) →
      exec (.ret f) s = .next (issued c (.ret f) false
        { s := c.modWarp (fun w => orphan (c.act.foldl (fun w l =>
            w.modLane l (fun y => { y with fp := y.fp - Claim.linkFrame c l, depth := y.depth - 1 })) w) c.act)
          moves := c.act.map (fun l => (l, some ((c.sect.1 + Claim.linkOffset c l) % 2 ^ 80))) })) ∧
    (Issues s (.exit f) c0 c1 c →
      exec (.exit f) s = .next (issuedThen c (.exit f) { s := c.s, moves := c.act.map (fun l => (l, none)) }
        (fun t => deadRounds (barsRecheck (t.modWarp c.wg c.w (fun w => exitLanes w c.act)) c.wg) c.wg)))

/-- Rejoin sets (R66, R67): opening, joining, quitting, waiting and closing, on a set in the state that each needs; PMOV.set
(R219) writes the predicates of its mask. -/
def Obligations.RejoinAndPredicateSets : Prop :=
  ∀ (s : State) (f : Fields) (c0 c1 c : Iss) (m : Nat),
    (∀ i mem, (i = .rjopen f ∧ mem = c.amask ∨ i = .rjopenMask f ∧ mem = (c.amask &&& BitVec.ofNat 32 (c.a false c.l0))) →
      Issues s i c0 c1 c → (c0.warp.rj c0.set).isOpen = false → (∀ l ∈ c0.act, c0.warp.depth l = c0.warp.depth c0.l0) →
      exec i s = .next (issued c i false { s := c.modWarp (fun w => w.setRj c.set
        { mem := mem, arr := 0, depth := c.warp.depth c.l0, isOpen := true, orph := false }) })) ∧
    (Issues s (.rjjoin f) c0 c1 c → (c0.warp.rj c0.set).isOpen = true →
      (∀ l ∈ c0.act, (c0.warp.rj c0.set).depth ≤ c0.warp.depth l) →
      exec (.rjjoin f) s = .next (issued c (.rjjoin f) false { s := c.modWarp (fun w =>
        w.setRj c.set { w.rj c.set with mem := (w.rj c.set).mem ||| c.amask }) })) ∧
    (Issues s (.rjquit f) c0 c1 c → (c0.warp.rj c0.set).isOpen = true →
      exec (.rjquit f) s = .next (issuedThen c (.rjquit f) { s := c.modWarp (fun w =>
          w.setRj c.set { w.rj c.set with mem := (w.rj c.set).mem &&& ~~~c.amask }) }
        (fun t => t.modWarp c.wg c.w (fun w => tryRelease w c.set)))) ∧
    (Issues s (.rjwait f) c0 c1 c → (c0.warp.rj c0.set).isOpen = true →
      let ws := c.amask &&& (c.warp.rj c.set).mem
      exec (.rjwait f) s = .next (issuedThen c (.rjwait f)
        { s := c.modWarp (fun w => (w.setRj c.set { w.rj c.set with arr := (w.rj c.set).arr ||| ws }).park
            (lanesOf ws) (.rejoin c.set) c.cur.npc 0)
          moves := (lanesOf ws).map (fun l => (l, none)) }
        (fun t => t.modWarp c.wg c.w (fun w => tryRelease w c.set)))) ∧
    (Issues s (.rjclose f) c0 c1 c → (c0.warp.rj c0.set).arr = 0 →
      exec (.rjclose f) s = .next (issued c (.rjclose f) false
        { s := c.modWarp (fun w => w.setRj c.set RjSet.init) })) ∧
    (Issues s (.pmovSet f) c0 c1 c → m = bits c.f.immN 20 8 →
      exec (.pmovSet f) s = .next (issued c (.pmovSet f) false { s := c.s, writes := c.act.flatMap (fun l =>
        ((List.range 8).filter (fun j => 1 ≤ j && bitB m j)).map (fun j =>
          .p l j (bitB (c.read c.f.a.toNat false l) j))) }))

namespace Sys2Proof.Machine.Claim

/-! ### Memory instructions -/

/-- The parts of the active lanes' global accesses of the size of SZ. -/
def lineAccess (c : Iss) : List (List Part) := c.act.map (fun l => partsOf l (c.addr l) c.size)
/-- The parts of the active lanes' packed accesses. -/
def packedAccess (c : Iss) : List (List Part) := c.act.map (fun l => bitParts l (c.pkAddr l) c.pkSpan)
/-- Translated parts, given back to the active lanes. -/
def byLane (c : Iss) (pss : List (List Part)) (ts : List TPart) : List (Nat × List TPart) :=
  c.act.zip (regroup (pss.map List.length) ts)

/-- What LDPK reads for every active lane (R267): the register bits, and whether a block was poisoned. -/
def packedRead (c : Iss) (t : State) (gs : List (Nat × List TPart)) : List (Nat × Nat × Bool) × State :=
  gs.foldl (fun (a : List (Nat × Nat × Bool) × State) g =>
    let r := readParts a.2 c.wg c.core c.f.hint g.2
    let x := ofLE r.1 / 2 ^ (c.pkAddr g.1 % 8) % 2 ^ c.pkSpan
    (a.1 ++ [(g.1, x % 2 ^ c.pkBits + (if c.f.sx then x / 2 ^ c.pkBits * 2 ^ 32 else 0), r.2.1)], r.2.2)) ([], t)

/-- The issue completes with loaded values of n bytes for D, one for each active lane and none for a poisoned one: as register writes,
or appended to the stream that D names (R253, R264). -/
def Loads (s : State) (c : Iss) (i : Instr) (o : Out) (n : Nat) (vals : List (Nat × Option Nat)) : Prop :=
  (isS c.f.d.toNat = false →
    exec i s = .next (issued c i false { o with writes := o.writes ++ loadWrites c.warp c.f.d.toNat n vals })) ∧
  (isS c.f.d.toNat = true → ∀ o', appendStream c o (c.f.d.toNat - 96) (vals.map (fun e => (e.1, c.result e.1 e.2))) = .out o' →
    exec i s = .next (issued c i false o'))

/-- Masked bytes stored for each lane in turn and counted in `%shash`: the state, and the stores that wait at their units
behind a hold (R136, R184, R277). -/
def stored (c : Iss) (u : State) (sco : Nat) (gs : List (Nat × List TPart)) (va : Nat → Nat) (bs : Nat → List (Byte × Byte)) : Out :=
  let r := gs.foldl (fun (a : State × Nat) g =>
    let q := storeParts a.1 c.wg c.w c.core c.warp.nextIdx sco c.f.hint g.2 (bs g.1)
    (hashMasked q.1 c.wg (va g.1) (bs g.1), a.2 + q.2)) (u, 0)
  { s := r.1, awaits := r.2 }

/-- One lane's scratchpad offset under OFF of R262. -/
def padAt (c : Iss) (l : Nat) : Nat := c.padOff (offOf c.f) l

/-- The requests of a global atomic, one for each active lane (R141, R273). -/
def requests (c : Iss) (kind : Nat) (ts : List TPart) (hasD : Bool) : List AtomReq :=
  ((List.range c.act.length).zip (c.act.zip ts)).map (fun e =>
    c.request kind e.2.2 e.2.1 (if hasD then c.resultKeys (if kind = 3 then 4 else c.size) e.1 e.2.1 else []))

/-- The checks of an access that joins the queues of the atomic units pass, and nothing of the thread itself comes first (R141,
R153, R167). -/
def Reaches (c : Iss) (r : Right) (obj : Bool) (ps : List Part) (ts : List TPart) (t : State) : Prop :=
  c.reach c.s r obj ps = .ok ts t ∧ ownWaiting t c.wg c.w AtomReq.fills ts = false ∧
  (r.wr = true → writesSource t c.wg c.w ts = false)

/-- Requests go out from state `t` (R141, R174, R273): in a deterministic launch they act on the workgroup's view at once,
where its buffer has room and no other warp holds a granule of theirs; otherwise they queue at their units, and the instruction
awaits each, with places in the stream that D may name.  `fin` is what the issue does besides. -/
def Sends (s : State) (i : Instr) (c : Iss) (t : State) (qs : List AtomReq) (reds : Nat) (fin : State → State) : Prop :=
  (c.s.wgDet c.wg = true → qs.any (fun q => q.wparts.any (fun x => t.heldWithin x.pa x.part.n c.wg (· ≠ c.w))) = false →
    ∀ u, detGate c t (detAll t qs).2.1 reds = .ok u →
    let r := detAll u qs
    (isS c.f.d.toNat = false → exec i s = .next (issued c i false
      { s := fin r.2.2, writes := (qs.zip r.1).flatMap (fun e => resultWrites e.1.dst e.2.2) })) ∧
    (isS c.f.d.toNat = true → ∀ o, appendStream c { s := r.2.2 } (c.f.d.toNat - 96) r.1 = .out o →
      exec i s = .next (issued c i false { o with s := fin o.s }))) ∧
  (c.s.wgDet c.wg = false → isS c.f.d.toNat = false →
    exec i s = .next (issued c i false
      { s := fin (enqueueAtoms t qs), writes := qs.flatMap (fun q => resultWrites q.dst (some 0)), awaits := qs.length
        stays := qs.any (inRecordMode t) })) ∧
  (c.s.wgDet c.wg = false → isS c.f.d.toNat = true → ∀ ps xs u,
    reserveAppend c t (c.f.d.toNat - 96) (qs.map (·.lane)) = .ok (ps, xs, u) →
    exec i s = .next (issued c i false
      { s := fin (enqueueAtoms u (qs.map (fun q => { q with late := (ps.filter (fun p => p.1 = q.lane)).map (·.2) })))
        awaits := qs.length, stays := qs.any (inRecordMode u) }))

/-- The lanes of a scratchpad atomic run in ascending order (R131, R273): old values, and the state. -/
def padRun (c : Iss) (new : Nat → Nat → Option Nat) : List (Nat × Option Nat) × State :=
  let q := if c.f.spc = 2 then c.f.qp13 else c.g.qgpos
  c.act.foldl (fun (a : List (Nat × Option Nat) × State) l =>
    let off := c.padOff c.aOff l
    let old := ofLE (scratchRead a.2 (c.peer q) off c.size).1
    (a.1 ++ [(l, some old)],
     match new l old with
     | some v => scratchWrite a.2 (c.peer q) off (toLE c.size v)
     | none => a.2)) ([], c.s)

/-- A scratchpad atomic's accesses are aligned, within the allocation, meet no poison, and no source of an earlier command (R167). -/
def padClear (c : Iss) : Prop :=
  let q := if c.f.spc = 2 then c.f.qp13 else c.g.qgpos
  let offs := c.act.map (fun l => (l, c.padOff c.aOff l))
  alignTrap offs c.size = none ∧ padTrap c c.size (offs.map (fun e => (e.1, q, e.2))) = none ∧
  offs.all (fun e => !(scratchRead c.s (c.peer q) e.2 c.size).2) = true ∧
  padSource c c.size (offs.map (fun e => (e.1, q, e.2))) = false

/-- The new value of an integer atomic of a lane over `old` (R274). -/
def intNew (c : Iss) (l old : Nat) : Option Nat :=
  atomInt c.f.aop (8 * c.size) old (c.data c.f.b.toNat c.size l) (if c.f.aop = 9 then c.data c.f.c.toNat c.size l else 0)
/-- The new value of a binary32 atomic (R275). -/
def floatNew (c : Iss) (l old : Nat) : Option Nat := some (atomF32 c.f.aop old (c.data c.f.b.toNat 4 l))

end Sys2Proof.Machine.Claim

/-- LD, LDK and LDPK (R265 to R267): when every part of the access passes its checks, the instruction issues, its reads are
made, and what D names takes the loaded values when it completes; a lane that met poison marks it.  A scoped access comes after
the write-backs of its lines (R152). -/
def Obligations.LoadsComplete : Prop :=
  ∀ (s : State) (f : Fields) (c0 c1 c : Iss) (ts : List TPart) (t : State),
    (Issues s (.ld f) c0 c1 c → c.access c.s rightR false (Claim.lineAccess c).flatten = .ok ts t → scopeHeld c t ts = false →
      let rs := readLanes c t (Claim.byLane c (Claim.lineAccess c) ts)
      Claim.Loads s c (.ld f) { s := rs.2 } c.size (rs.1.map (fun r => (r.1, loadVal c r.2)))) ∧
    (Issues s (.ldk f) c0 c1 c → c.access c.s rightR false (partsOf c.l0 (c.addr c.l0) c.size) = .ok ts t →
      let r := readParts t c.wg c.core c.f.hint ts
      exec (.ldk f) s = .next (issued c (.ldk f) false
        { s := r.2.2, writes := loadWrites c.warp c.f.d.toNat c.size [(c.l0, loadVal c (r.1, r.2.1))] })) ∧
    (Issues s (.ldpk f) c0 c1 c → slotFail c0 c0.f.fs.toNat false = [] →
      c.access c.s rightR false (Claim.packedAccess c).flatten = .ok ts t →
      let rs := Claim.packedRead c t (Claim.byLane c (Claim.packedAccess c) ts)
      let vals := rs.1.map (fun r => (r.1, r.2.1))
      let bad := (rs.1.filter (fun r => r.2.2)).map (·.1)
      (isS c.f.d.toNat = false → exec (.ldpk f) s = .next (issued c (.ldpk f) false
        { s := rs.2, writes := poisonLanes bad (bad.contains c.l0) (destWrites c.warp c.f.d.toNat c.f.sx vals) })) ∧
      (isS c.f.d.toNat = true → ∀ o, appendStream c { s := rs.2 } (c.f.d.toNat - 96)
          (rs.1.map (fun r => (r.1, c.result r.1 (if r.2.2 then none else some r.2.1)))) = .out o →
        exec (.ldpk f) s = .next (issued c (.ldpk f) false o)))

/-- ST and STPK (R265, R267), lanes in ascending order, and PREF (R268): when every part passes its checks and a deterministic
buffer has room, the bytes are written, or wait at their unit behind another warp's hold, and are counted in `%shash`. -/
def Obligations.StoresComplete : Prop :=
  ∀ (s : State) (f : Fields) (c0 c1 c : Iss) (ts : List TPart) (t u : State),
    (Issues s (.st f) c0 c1 c → c.access c.s rightW true (Claim.lineAccess c).flatten = .ok ts t →
      (wideScope c.f.sco = false → scopeHeld c t ts = false) → detGate c t ts 0 = .ok u →
      exec (.st f) s = .next (issued c (.st f) false
        (Claim.stored c u c.f.sco (Claim.byLane c (Claim.lineAccess c) ts) c.addr
          (fun l => fullMask (toLE c.size (c.data c.f.b.toNat c.size l)))))) ∧
    (Issues s (.stpk f) c0 c1 c → slotFail c0 c0.f.fs.toNat false = [] →
      c.access c.s rightW true (Claim.packedAccess c).flatten = .ok ts t →
      detGate c t ts 0 = .ok u →
      exec (.stpk f) s = .next (issued c (.stpk f) false
        (Claim.stored c u 0 (Claim.byLane c (Claim.packedAccess c) ts) (fun l => c.pkAddr l / 8) (fun l =>
          let x := c.read c.f.c.toNat c.f.sx l
          bitBytes (c.pkAddr l) c.pkSpan (x % 2 ^ c.pkBits + x / 2 ^ 32 % 2 ^ c.pkBits * 2 ^ c.pkBits))))) ∧
    (Issues s (.pref f) c0 c1 c →
      exec (.pref f) s = .next (issued c (.pref f) false
        { s := if c.s.wgDet c.wg then c.s else c.act.foldl (fun s l =>
            if inTlb s c.core c.asid (c.addr l) then prefetchLine s c.core c.asid (c.addr l) c.f.hint c.warp.modeS
            else { s with walks := s.walks ++
                     [{ core := c.core, asid := c.asid, va := c.addr l, hint := c.f.hint, modeS := c.warp.modeS }] }) c.s }))

/-- LDS, STS, LDQ, STQ and LDMC (R270 to R272): when every offset lies within the allocation of a member that exists, loads
read that member's scratchpad, stores write it, and LDMC writes what it loads into every member it names; a write comes after the
commands of its thread that read what it writes (R167). -/
def Obligations.ScratchpadAccess : Prop :=
  ∀ (s : State) (i : Instr) (f : Fields) (c0 c1 c : Iss) (q : Nat),
    let places := c.act.map (fun l => (l, q, Claim.padAt c l))
    ((i = .lds f ∧ q = c.g.qgpos ∨ i = .ldq f ∧ q = c.qpos) → Issues s i c0 c1 c → padTrap c c.size places = none →
      Claim.Loads s c i { s := c.s } c.size (c.act.map (fun l =>
        (l, loadVal c (scratchRead c.s (c.peer q) (Claim.padAt c l) c.size))))) ∧
    ((i = .sts f ∧ q = c.g.qgpos ∨ i = .stq f ∧ q = c.qpos) → Issues s i c0 c1 c → padTrap c c.size places = none →
      padSource c c.size places = false →
      exec i s = .next (issued c i false
        { s := c.act.foldl (fun s l =>
            scratchWrite s (c.peer q) (Claim.padAt c l) (toLE c.size (c.data c.f.b.toNat c.size l))) c.s })) ∧
    (∀ ts t, Issues s (.ldmc f) c0 c1 c →
      let qs := setBitsOf 4 (bits c.f.immN 17 4)
      let off (l : Nat) : Nat := c.read c.f.b.toNat false l
      let pss := c.act.map (fun l => partsOf l (c.ea c.f.a.toNat false (offOf c.f) l) c.size)
      padTrap c c.size (c.act.flatMap (fun l => qs.map (fun q => (l, q, off l)))) = none →
      padSource c c.size (c.act.flatMap (fun l => qs.map (fun q => (l, q, off l)))) = false →
      c.access c.s rightR false pss.flatten = .ok ts t →
      let rs := (Claim.byLane c pss ts).foldl (fun (a : List (Nat × List Byte × Bool) × State) g =>
        let r := readParts a.2 c.wg c.core c.f.hint g.2
        (a.1 ++ [(g.1, r.1, r.2.1)], r.2.2)) ([], t)
      rs.1.all (fun r => !r.2.2) = true →
      exec (.ldmc f) s = .next (issued c (.ldmc f) false
        { s := rs.1.foldl (fun s r => qs.foldl (fun s q => scratchWrite s (c.peer q) (off r.1) r.2.1) s) rs.2 }))

/-- ATOM, ATOMF, RED, REDF and SC on global memory (R141, R273 to R276): aligned requests that pass their checks go out, one
for each active lane; SC's result is a word. -/
def Obligations.GlobalAtomics : Prop :=
  ∀ (s : State) (i : Instr) (f : Fields) (c0 c1 c : Iss) (kind : Nat) (r : Right) (hasD : Bool) (ts : List TPart) (t : State),
    (i = .atom f ∧ kind = 0 ∧ r = rightRW ∧ hasD = true ∨ i = .atomf f ∧ kind = 1 ∧ r = rightRW ∧ hasD = true ∨
      i = .red f ∧ kind = 4 ∧ r = rightW ∧ hasD = false ∨ i = .redf f ∧ kind = 5 ∧ r = rightW ∧ hasD = false ∨
      i = .sc f ∧ kind = 3 ∧ r = rightRW ∧ hasD = true) →
    Issues s i c0 c1 c → (kind ≠ 3 → c.f.spc = 0) → alignTrap (c.act.map (fun l => (l, c.atomVa l))) c.size = none →
    Claim.Reaches c r true (c.act.map (fun l => ⟨l, c.atomVa l, c.size⟩)) ts t →
    (kind = 3 → ts.all (fun x => x.mt ≠ 2) = true) →
    Claim.Sends s i c t (Claim.requests c kind ts hasD) (if kind = 4 ∨ kind = 5 then (Claim.requests c kind ts hasD).length else 0) id

/-- LR (R276, R277): the same, on memory of type 00 or 01, and outside a deterministic launch its lanes' earlier reservations go at
once. -/
def Obligations.LoadReserved : Prop :=
  ∀ (s : State) (f : Fields) (c0 c1 c : Iss) (ts : List TPart) (t : State),
    Issues s (.lr f) c0 c1 c → alignTrap (c.act.map (fun l => (l, c.atomVa l))) c.size = none →
    Claim.Reaches c rightRW false (c.act.map (fun l => ⟨l, c.atomVa l, c.size⟩)) ts t →
    ts.all (fun x => x.mt ≠ 2) = true →
    Claim.Sends s (.lr f) c t (Claim.requests c 2 ts true) 0 (fun u => u.modWarp c.wg c.w (fun w =>
      c.act.foldl (fun w l => w.modLane l (fun x => { x with resv := if c.s.wgDet c.wg then x.resv else none, sinceLR := 1 })) w))

/-- ATOM, ATOMF, RED and REDF on a scratchpad (R131, R273 to R275), performed at once, lanes in ascending order; and STPAIR
(R145, R269), one pair update for each active lane. -/
def Obligations.ScratchpadAtomicsAndPairs : Prop :=
  ∀ (s : State) (i : Instr) (f : Fields) (c0 c1 c : Iss),
    (∀ new hasD, (i = .atom f ∧ new = Claim.intNew c ∧ hasD = true ∨ i = .atomf f ∧ new = Claim.floatNew c ∧ hasD = true ∨
        i = .red f ∧ new = Claim.intNew c ∧ hasD = false ∨ i = .redf f ∧ new = Claim.floatNew c ∧ hasD = false) →
      Issues s i c0 c1 c → c.f.spc ≠ 0 → Claim.padClear c →
      (hasD = true → Claim.Loads s c i { s := (Claim.padRun c new).2 } c.size (Claim.padRun c new).1) ∧
      (hasD = false → exec i s = .next (issued c i false { s := (Claim.padRun c new).2 }))) ∧
    (∀ ts t, Issues s (.stpair f) c0 c1 c →
      alignTrap (c.act.flatMap (fun l => [(l, c.addr l), (l, c.twinVa l)])) c.size = none →
      Claim.Reaches c rightRW true (c.act.flatMap (fun l => [⟨l, c.addr l, c.size⟩, ⟨l, c.twinVa l, c.size⟩])) ts t →
      ts.all (fun x => x.mt ≠ 2) = true →
      Claim.Sends s (.stpair f) c t
        ((c.act.zip (regroup (c.act.map (fun _ => 2)) ts)).filterMap (fun e =>
          match e.2 with
          | [x, y] => some { c.request 6 x e.1 [] with
              aop := b2n c.f.sx, c := 0, twin := y.pa, twinVa := y.part.va, region := none }
          | _ => none)) 0 id)

namespace Sys2Proof.Machine.Claim

/-! ### Synchronisation -/

/-- BIND's operands name a region that may be bound (R159, R160): multiples of 64, not empty, within the address space,
its object outside it, and meeting no valid entry. -/
def bindable (c : Iss) (base size obj : Nat) : Prop :=
  base % 64 = 0 ∧ size % 64 = 0 ∧ size ≠ 0 ∧ obj % 64 = 0 ∧ base + size ≤ 2 ^ 80 ∧ ¬ (base ≤ obj ∧ obj < base + size) ∧
  ∀ e ∈ (c.s.ctxView c.wg).validRegions, overlaps base size e.2.base e.2.size = false ∧
    ¬ (base ≤ e.2.obj ∧ e.2.obj < base + size) ∧ ¬ (e.2.base ≤ obj ∧ obj < e.2.base + e.2.size)

/-- The object operand passes its checks (R280): aligned, translated to `t`, named by a valid entry, not poisoned. -/
def objectAt (c : Iss) (r : Right) (t : TPart) (u : State) : Prop :=
  c.addr c.l0 % 64 = 0 ∧ c.access c.s r false [⟨c.l0, c.addr c.l0, 8⟩] = .ok [t] u ∧
  (u.ctxView c.wg).validRegions.any (fun e => e.2.obj = c.addr c.l0) = true ∧ blockPoison u t.pa = false

/-- What an acquire leaves (R162, R280): for wide scopes the lines of the bound regions dropped, and SEQ for D. -/
def acquired (c : Iss) (u : State) (seq : Nat) : Out :=
  { s := if wideScope c.f.sco && !u.wgDet c.wg then dropLines u c.core (inPieces (boundPieces c u (c.addr c.l0))) else u
    writes := if c.f.d.toNat = 112 then [] else destWrites c.warp c.f.d.toNat true (c.act.map (fun l => (l, seq))) }

/-- No write-back that an acquire makes first waits for a hold: of the object's line in `u`, of the bound regions in `v` (R152, R155,
R277). -/
def dropsFree (c : Iss) (t : TPart) (u v : State) : Prop :=
  (u.wgDet c.wg = false → lineHeld u c.core t.pa c.wg c.w = false) ∧
  (wideScope c.f.sco = true → v.wgDet c.wg = false →
    writebackHeld v c.core (lineInPieces (boundPieces c v (c.addr c.l0))) = false)

/-- The phase of the barrier that the instruction names. -/
def phaseAt (c : Iss) (u : State) : Nat := ((u.getWg c.wg).bar c.f.sco c.bn).phase

/-- `v` is `u` with bytes of a log header written at `va`: in a deterministic launch through the workgroup's buffer (R174, R541). -/
def HeaderWritten (c : Iss) (u : State) (va : Nat) (bs : List Byte) (v : State) : Prop :=
  (u.wgDet c.wg = false → v = logPut u c.asid va bs) ∧
  (u.wgDet c.wg = true → kettlePa u c.asid va = none → v = u) ∧
  (u.wgDet c.wg = true → ∀ pa, kettlePa u c.asid va = some pa →
    ∃ x, detGate c u [⟨⟨c.l0, va, bs.length⟩, pa, 0⟩] 0 = .ok x ∧ v = detWrite x c.wg ⟨⟨c.l0, va, bs.length⟩, pa, 0⟩ (fullMask bs))

/-- Entering record or replay mode from the state `v` in which the gate has drained and the header is set (R284). -/
def entered (c : Iss) (rrm : Nat) (v : State) : Out :=
  { s := putRegion c v { c.region with
      rrm := rrm, gbase := c.read c.f.a.toNat false c.l0, log := c.logVa, logn := c.read c.f.c.toNat false c.l0
      taken := 0, lastAdmit := v.now } }

end Sys2Proof.Machine.Claim

/-- FENCE (R155, R156, R279), BIND and UNBIND (R159, R160, R283); within an interval of a deterministic launch the region table
changes in the workgroup's view (R173). -/
def Obligations.FencesAndBindings : Prop :=
  ∀ (s : State) (f : Fields) (c0 c1 c : Iss),
    (∀ u, Issues s (.fence f) c0 c1 c → fenceFirst c c.s c.f.sco = .ok u →
      exec (.fence f) s = .next (issued c (.fence f) false { s := if wideScope c.f.sco then dropAll u c.core else u })) ∧
    (Issues s (.bind f) c0 c1 c → c0.region.valid = false →
      let base := c.ea c.f.a.toNat (bitB c.f.immN 19) 0 c.l0
      let size := c.read c.f.b.toNat true c.l0
      let obj := c.ea c.f.c.toNat (bitB c.f.immN 19) 0 c.l0
      Claim.bindable c base size obj →
      exec (.bind f) s = .next (issued c (.bind f) false
        { s := putRegion c c.s { Region.init with base := base, size := size, obj := obj, valid := true } })) ∧
    (Issues s (.unbind f) c0 c1 c →
      exec (.unbind f) s = .next (issued c (.unbind f) false
        { s := putRegion c (passGate c c.s) Region.init }))

/-- ACQ, ACQ.ge and REL (R161, R162, R280) on an object that passes its checks: the acquires read SEQ, ACQ.ge once it has
come to b; a release outside a deterministic launch adds its active lanes to SEQ once the bound writes are visible, or leaves the
addition at its unit behind another warp's hold; inside one it buffers the addition. -/
def Obligations.AcquireAndRelease : Prop :=
  ∀ (s : State) (f : Fields) (c0 c1 c : Iss) (t : TPart) (u : State),
    let v := ownLine u c.wg t.pa
    let seq := seqNow v c.wg t.pa
    let ps := boundPieces c u (c.addr c.l0)
    (Issues s (.acq f) c0 c1 c → Claim.objectAt c rightR t u → Claim.dropsFree c t u v →
      exec (.acq f) s = .next (issued c (.acq f) false (Claim.acquired c v seq))) ∧
    (Issues s (.acqGe f) c0 c1 c → Claim.objectAt c rightR t u → Claim.dropsFree c t u v →
      (seq + 2 ^ 64 - c.read c.f.b.toNat true c.l0 % 2 ^ 64) % 2 ^ 64 < 2 ^ 63 →
      exec (.acqGe f) s = .next (issued c (.acqGe f) false (Claim.acquired c v seq))) ∧
    (Issues s (.rel f) c0 c1 c → Claim.objectAt c rightW t u → u.wgDet c.wg = false → memPending c = false →
      (wideScope c.f.sco = true → writebackHeld u c.core (inPieces ps) = false) →
      let x := if wideScope c.f.sco then writeback u c.core (inPieces ps) else u
      let w := ownLine x c.wg t.pa
      (x.heldFrom t.pa 8 c.wg c.w = false → lineHeld x c.core t.pa c.wg c.w = false →
        exec (.rel f) s = .next (issued c (.rel f) false { s := l2Write w t.pa (toLE 8 (memNat w t.pa 8 + c.act.length)) })) ∧
      (x.heldFrom t.pa 8 c.wg c.w = true ∨ lineHeld x c.core t.pa c.wg c.w = true →
        exec (.rel f) s = .next (issued c (.rel f) false
          { s := { x with atomQ := x.atomQ ++
              [{ storeRequest x c.wg c.w c.warp.nextIdx t [] with kind := 9, size := 8, b := c.act.length }] }, awaits := 1 }))) ∧
    (∀ x, Issues s (.rel f) c0 c1 c → Claim.objectAt c rightW t u → u.wgDet c.wg = true → detGate c u [t] 1 = .ok x →
      let red : DetRed := { pa := t.pa, va := c.addr c.l0, size := 8, aop := 0, float := false, val := c.act.length
                            tid := 32 * c.w + c.l0, engine := false }
      exec (.rel f) s = .next (issued c (.rel f) false { s := detReduce x c.wg red }))

/-- BAR, BARA and BARW (R157, R281, R282): lanes that have not arrived in the present phase arrive, BAR parking them; BARW
lets those go on whose phase has completed, under a pending yield as far as the next instruction, and parks the others; an arrival
may complete the barrier. -/
def Obligations.BarrierInstructions : Prop :=
  ∀ (s : State) (f : Fields) (c0 c1 c : Iss) (u : State),
    (Issues s (.bar f) c0 c1 c → (∀ l ∈ c0.act, c0.arrivedIn l = none) → fenceFirst c c.s c.f.sco = .ok u →
      exec (.bar f) s = .next (issuedThen c (.bar f)
        { s := parkAtBar c (arrive c u) c.act (Claim.phaseAt c u), moves := c.act.map (fun l => (l, none)) }
        (fun t => barTry t c.wg c.f.sco c.bn))) ∧
    (Issues s (.bara f) c0 c1 c → (∀ l ∈ c0.act, c0.arrivedIn l = none) → fenceFirst c c.s c.f.sco = .ok u →
      exec (.bara f) s = .next (issuedThen c (.bara f) { s := arrive c u } (fun t => barTry t c.wg c.f.sco c.bn))) ∧
    (Issues s (.barw f) c0 c1 c → (∀ l ∈ c0.act, c0.arrivedIn l ≠ none) →
      let stay := c.act.filter (fun l => c.arrivedIn l = some (Claim.phaseAt c c.s))
      let go := c.act.filter (fun l => c.arrivedIn l ≠ some (Claim.phaseAt c c.s))
      let t := c.s.modWarp c.wg c.w (fun w => go.foldl (fun w l => w.modLane l (fun x =>
        { x with arrived := x.arrived.filter (fun a => !(a.1 = c.f.sco && a.2.1 = c.bn)) })) w)
      (go ≠ [] → wideScope c.f.sco = true → writebackHeld c.s c.core (fun _ => true) = false) →
      exec (.barw f) s = .next (issuedThen c (.barw f)
        { s := parkAtBar c (if go ≠ [] && wideScope c.f.sco then dropAll t c.core else t) stay (Claim.phaseAt c c.s)
          moves := stay.map (fun l => (l, none)) } (stopPast c go)))

/-- RRMODE and ORDGATE (R180 to R183, R284, R285): a region of at most 64 KiB enters record or replay mode with its log's
header set for it, or leaves them; ORDGATE answers with the log's present chunk. -/
def Obligations.RecordAndReplayModes : Prop :=
  ∀ (s : State) (f : Fields) (c0 c1 c : Iss),
    let u := passGate c c.s
    (Issues s (.rrmodeOff f) c0 c1 c → c0.region.valid = true →
      exec (.rrmodeOff f) s = .next (issued c (.rrmodeOff f) false { s := putRegion c u { c.region with rrm := 0 } })) ∧
    (Issues s (.rrmodeRec f) c0 c1 c → c0.region.valid = true → c0.region.size ≤ 65536 → c1.logVa % 64 = 0 →
      logTrap c c.logVa (c.read c.f.c.toNat false c.l0) = none → ∀ v, Claim.HeaderWritten c u c.logVa (zeros 20) v →
      exec (.rrmodeRec f) s = .next (issued c (.rrmodeRec f) false (Claim.entered c 1 v))) ∧
    (Issues s (.rrmodePlay f) c0 c1 c → c0.region.valid = true → c0.region.size ≤ 65536 → c1.logVa % 64 = 0 →
      logTrap c c.logVa (c.read c.f.c.toNat false c.l0) = none →
      let stat := ((logHeader u c.wg c.asid c.logVa).map (fun h => h.2.2)).getD 0
      ∀ v, Claim.HeaderWritten c u (c.logVa + 8) (zeros 8 ++ toLE 4 (setBits stat 1 1 0)) v →
      exec (.rrmodePlay f) s = .next (issued c (.rrmodePlay f) false (Claim.entered c 2 v))) ∧
    (∀ lo hi, Issues s (.ordgate f) c0 c1 c →
      (c.region.valid = false ∨ c.region.rrm = 0) ∧ lo = 0 ∧ hi = 0 ∨
      (c.region.valid = true ∧ ∃ recn playn stat, logHeader c.s c.wg c.asid c.region.log = some (recn, playn, stat) ∧
        (c.region.rrm = 1 ∧ (recn = 0 ∧ lo = 0 ∧ hi = 0 ∨ recn ≠ 0 ∧ hi = recn ∧
            ∃ g run, logChunk c.s c.wg c.asid c.region.log (recn - 1) = some (g, run) ∧ lo = run + g * 2 ^ 24) ∨
         c.region.rrm ≠ 0 ∧ c.region.rrm ≠ 1 ∧ hi = playn ∧ (playn = recn ∧ lo = 0 ∨ playn ≠ recn ∧
            ∃ g run, logChunk c.s c.wg c.asid c.region.log playn = some (g, run) ∧ lo = run - c.region.taken + g * 2 ^ 24))) →
      exec (.ordgate f) s = .next (issued c (.ordgate f) false
        { s := c.s, writes := destWrites c.warp c.f.d.toNat true
            (c.act.map (fun l => (l, lo % 2 ^ 32 + 2 ^ 32 * (hi % 2 ^ 32)))) }))

/-- CARVE (R137, R287), CWB, CINV and CINV.i (R288): the scratchpad share is the operand kept between the ways in use and
what the launches leave; write-back and invalidation act on the lines of the named ranges, or on all. -/
def Obligations.CacheControl : Prop :=
  ∀ (s : State) (f : Fields) (c0 c1 c : Iss),
    let inB (a : Nat) : Bool := c.allB || lineInPieces (if c.allB then [] else c.pieces) a
    (Issues s (.carve f) c0 c1 c → c1.a false c1.l0 < 16 →
      let share := min (16 - minCacheWays c.s c.core) (max (heldWays c.s c.core) (c.a false c.l0))
      ((c.s.getCore c.core).share < share → writebackHeld c.s c.core (fun _ => true) = false) →
      Lands s c (.carve f) false { s := setShare c.s c.core share } false (c.act.map (fun l => (l, share)))) ∧
    (Issues s (.cwb f) c0 c1 c → writebackHeld c.s c.core inB = false →
      exec (.cwb f) s = .next (issued c (.cwb f) false { s := writeback c.s c.core inB })) ∧
    (Issues s (.cinv f) c0 c1 c → writebackHeld c.s c.core inB = false →
      exec (.cinv f) s = .next (issued c (.cinv f) false { s := dropLines c.s c.core inB })) ∧
    (Issues s (.cinvI f) c0 c1 c →
      exec (.cinvI f) s = .next (issued c (.cinvI f) false { s := dropCode c.s inB }))

namespace Sys2Proof.Machine.Claim

/-! ### The matrix engine and commands -/

/-- The two-valued answer of MXACQ, with the state it leaves. -/
def acquired01 (c : Iss) (t : State) (x : Nat) : Out :=
  { s := t, span := some 599, writes := destWrites c.warp c.f.d.toNat false (c.act.map (fun l => (l, x))) }

/-- Free engine context `e` becomes the workgroup's, and the engine of its core is new (R299, R301). -/
def newlyOwned (c : Iss) (e : Nat) (t : State) : State :=
  (t.modMx c.wg (fun m => { m with owner := some c.wg, held := false, sc := [], mx := [], acc := [], accPoison := [] })).modWg
    c.wg (fun g => { g with eng := some e })

/-- No command of the workgroup that is not complete names the descriptor, or the edge predicate (R295, R296). -/
def descFree (c : Iss) (n : Nat) : Prop := c.awaitsCmd (fun i => (namedDescs i).contains n) = false
def maskFree (c : Iss) : Prop :=
  ∀ x ∈ wgCommands c.s c.wg, ∀ fn f, tileOf x.instr = some (fn, f) →
    (if bitB c.f.immN 24 then f.cp else f.rp) ≠ bits c.f.immN 20 2

/-- The edge predicate that TMASK names takes the value (R296). -/
def withMask (c : Iss) (x : BitVec 256) : State :=
  c.s.modWg c.wg (fun g => if bitB c.f.immN 24 then { g with mc := g.mc.set 0 (bits c.f.immN 20 2) (~~~x) }
    else { g with mr := g.mr.set 0 (bits c.f.immN 20 2) (~~~x) })

/-- Tile operations (R298, R304): FN of OP 0x31. -/
def tileFn : Instr → Option Nat
  | .tmma _ => some 0
  | .tmmab _ => some 1
  | .tact _ => some 2
  | .tew _ => some 3
  | .tred _ => some 4
  | .ttrans _ => some 5
  | .tscl _ => some 6
  | .tcvt _ => some 7
  | .tzero _ => some 8
  | .taccld _ => some 9
  | .taccst _ => some 10
  | .tdrain _ => some 11
  | _ => none

/-- A command that the workgroup's matrix engine takes into its free place (R56, R303): its number is the next of context
`e`, and D takes its handle. -/
def taken (c : Iss) (t : State) (e : Nat) (cmd : Cmd) (eff : State → State) (draws : Nat) : Out :=
  { s := eff ((t.modEng e (fun g => { g with next := (t.getEng e).next + 1 })).modMx c.wg (fun m => { m with staged := some cmd }))
    writes := handleWrites c (handleOf e (t.getEng e).next), draws := draws }

/-- A command of a held engine (R300): it completes at once with CODE 6. -/
def heldBack (c : Iss) (e : Nat) (cmd : Cmd) : Out :=
  { s := finishCommand (c.s.modEng e (fun g => { g with next := (c.s.getEng e).next + 1 })) e cmd 6 0 false
    writes := handleWrites c (handleOf e (c.s.getEng e).next) }

/-- What an instruction that gives the matrix engine one command does where the engine is the workgroup's own and has a place,
and where it is held. -/
def Commands (s : State) (i : Instr) (c : Iss) (mk : Nat → Cmd) (eff : State → State) (draws : Nat) : Prop :=
  (∀ e t, enginePlace c.s c.wg = .free e → fenceFirst c c.s 3 = .ok t →
    exec i s = .next (issued c i false (taken c t e (mk (t.getEng e).next) eff draws))) ∧
  (∀ e, enginePlace c.s c.wg = .held e →
    exec i s = .next (issued c i false (heldBack c e (mk (c.s.getEng e).next))))

end Sys2Proof.Machine.Claim

/-- MXACQ, MXREL and the end of ownership (R299, R300): a free engine goes to the workgroup with an engine context, its
registers new; an owner that holds it already succeeds; otherwise the answer is 0. MXREL by the owner lets no further command
in, and once none is left the engine has no owner and its context goes back to the pool. -/
def Obligations.EngineOwnership : Prop :=
  ∀ (s : State) (f : Fields) (c0 c1 c : Iss),
    (Issues s (.mxacq f) c0 c1 c →
      (∀ o, (c.s.mxOf c.wg).owner = some o →
        exec (.mxacq f) s = .next (issued c (.mxacq f) false
          (Claim.acquired01 c c.s (if o = c.wg ∧ (c.s.mxOf c.wg).held = false then 1 else 0)))) ∧
      ((c.s.mxOf c.wg).owner = none →
        (∀ e t, takeEng c.s c.ctx 3 = some (e, t) →
          exec (.mxacq f) s = .next (issued c (.mxacq f) false (Claim.acquired01 c (Claim.newlyOwned c e t) 1))) ∧
        (takeEng c.s c.ctx 3 = none →
          exec (.mxacq f) s = .next (issued c (.mxacq f) false (Claim.acquired01 c c.s 0))))) ∧
    (Issues s (.mxrel f) c0 c1 c →
      exec (.mxrel f) s = .next (issued c (.mxrel f) false
        { s := if c.owns then c.s.modMx c.wg (fun m => { m with held := true }) else c.s })) ∧
    (∀ core wg e, (s.getCore core).mx.owner = some wg → (s.getCore core).mx.held = true → (s.getCore core).mx.run = none →
      (s.getCore core).mx.staged = none → (s.getWg wg).eng = some e →
      ∃ t, exec (.engineRelease core) s = .next t ∧
        (t.getCore core).mx = { (s.getCore core).mx with owner := none, held := false } ∧
        (t.getEng e).owner = none ∧ (t.getEng e).abase = (s.getEng e).count ∧ (t.getWg wg).eng = none)

/-- TDESC, TMASK.set, TMASK.first and GDECL (R76, R295, R296): a descriptor takes the bits of eight `k` registers, an edge
predicate takes those bits or the first a of its 256, once no command that is not complete names it; a signing register takes
its declared count. -/
def Obligations.DescriptorsAndDeclarations : Prop :=
  ∀ (s : State) (f : Fields) (c0 c1 c : Iss),
    (Issues s (.tdesc f) c0 c1 c → bits c1.kOct.toNat 224 3 = 0 → Claim.descFree c (bits c.f.immN 20 4) →
      exec (.tdesc f) s = .next (issued c (.tdesc f) false { s := c.s.modWg c.wg (fun g =>
        { g with m := g.m.set 0 (bits c.f.immN 20 4) c.kOct
                 recd := if g.recd.act then { g.recd with clr := g.recd.clr ||| 1#16 <<< bits c.f.immN 20 4 } else g.recd }) })) ∧
    (Issues s (.tmaskSet f) c0 c1 c → Claim.maskFree c →
      exec (.tmaskSet f) s = .next (issued c (.tmaskSet f) false { s := Claim.withMask c c.kOct })) ∧
    (Issues s (.tmaskFirst f) c0 c1 c → Claim.maskFree c →
      exec (.tmaskFirst f) s = .next (issued c (.tmaskFirst f) false
        { s := Claim.withMask c (BitVec.ofNat 256 (2 ^ min (c.read c.f.a.toNat false c.l0) 256 - 1)) })) ∧
    (Issues s (.gdecl f) c0 c1 c → (c0.g.sign (bits c0.f.immN 20 3)).sgn = 0 → c1.a false c1.l0 ≤ 1024 →
      exec (.gdecl f) s = .next (issued c (.gdecl f) false { s := c.s.modWg c.wg (fun g =>
        { g with g := g.g.put (bits c.f.immN 20 3) { SignReg.init with decl := bits (c.a false c.l0) 0 11 } }) }))

/-- TAMAX and TSCUPD by the owner of the engine (R127, R314, R315), once the commands that they wait for are complete: TAMAX
reads a maximum magnitude; TSCUPD renews a run of scale registers from one, which RST then clears. -/
def Obligations.ScaleInstructions : Prop :=
  ∀ (s : State) (f : Fields) (c0 c1 c : Iss),
    (Issues s (.tamax f) c0 c1 c → c0.owns = true → (c.bit23 = true → c.awaitsCmd isDrain = false) →
      Lands s c (.tamax f) false { s := c.s } false
        (c.act.map (fun l => (l, ((c.s.mxOf c.wg).mx.get 0 c.mxK).toNat)))) ∧
    (Issues s (.tscupd f) c0 c1 c → c0.owns = true → slotFail c0 c0.f.fs.toNat false = [] →
      0 < scCount c1 → scCount c1 ≤ 256 → c.awaitsCmd (fun i => isDrain i || readsScales i) = false →
      let r := rescale c (c.s.mxOf c.wg)
      exec (.tscupd f) s = .next (issued c (.tscupd f) true
        { s := c.s.modMx c.wg (fun _ => if c.bit23 then { r.1 with mx := r.1.mx.set 0 c.mxK 0 } else r.1)
          flags := r.2, laneFlags := if r.2 = 0 then [] else [(c.l0, r.2)] }))

/-- Tile operations that no signing register gathers (R303, R304): with every role of its descriptors sound, the operation
becomes one command of the workgroup's matrix engine, with the descriptors, predicates, formats and value of that moment; it
consumes its draws (R118). -/
def Obligations.TileOperations : Prop :=
  ∀ (s : State) (i : Instr) (fn : Nat) (c0 c1 c : Iss),
    Issues s i c0 c1 c → Claim.tileFn i = some fn → tileFails c0 fn c0.f.opx = [] → c0.f.se = false →
    Claim.Commands s i c (fun num => c.command i num (tileArg c c.l0) 0 0) id (tileDraws c fn)

/-- Signed tile operations (R75, R77, R78): signers that do not complete the declared count, and agree with what the first of
them latched, are counted and wait; a round that is complete issues the latched operation, once the earlier accesses of its last
signers are performed (R80, R167). -/
def Obligations.SignedTileOperations : Prop :=
  ∀ (s : State) (i : Instr) (fn : Nat) (c0 c1 c : Iss) (u : State),
    Issues s i c0 c1 c → Claim.tileFn i = some fn → tileFails c0 fn c0.f.opx = [] → c0.f.se = true →
    (c0.g.sign c0.f.sg).sgn + c0.act.length ≤ (c0.g.sign c0.f.sg).decl → c.g.sign c.f.sg = c0.g.sign c0.f.sg →
    let r := c.g.sign c.f.sg
    let fresh : Latch :=
      { instr := i, vals := [BitVec.ofNat 64 (tileArg c c.l0)], draw := (c.warp.lane c.l0).draw, gid := gidOf c.s c.wg c.w c.l0 }
    let latch := r.latch.getD fresh
    signMismatch c latch = none → (if r.sgn + c.act.length = r.decl then fenceFirst c c.s 3 else .ok c.s) = .ok u →
    let q : SignReg :=
      { r with sgn := r.sgn + c.act.length, latch := some latch, signers := r.signers ++ c.act.map (fun l => (c.w, l, c.f.d.toNat)) }
    let v := (u.modWg c.wg (fun g => { g with g := g.g.put c.f.sg q })).modWarp c.wg c.w
      (fun w => w.park c.act (.signed c.f.sg) c.cur.npc 0)
    let o : Out := { s := v, moves := c.act.map (fun l => (l, none)), least := parkedDue
                     draws := if r.latch.isNone then tileDraws c fn else 0 }
    (r.sgn + c.act.length < r.decl → exec i s = .next (issuedThen c i o id)) ∧
    (r.sgn + c.act.length = r.decl → enginePlace c.s c.wg ≠ .full →
      exec i s = .next (issuedThen c i o (fun t => issueRound c i t)))

namespace Sys2Proof.Machine.Claim

/-- Every active lane's command goes to engine context `e`, in ascending order of lanes (R318): those complete at once that
`now` names, with the present cycle for their promise. -/
def queued (c : Iss) (e : Nat) (promise : Bool) (mk : State → Nat → Nat → Cmd × State) (now : Nat → Bool) (t : State) : Out :=
  let r := c.act.foldl (fun (a : State × List (Nat × Nat)) l =>
    let num := (a.1.getEng e).next
    let m := mk a.1 num l
    (if now l then finishCommand (m.2.modEng e (fun g => { g with next := num + 1, proms := g.proms.put num a.1.now })) e m.1 0 0 false
     else enqueue m.2 e m.1 promise, a.2 ++ [(l, handleOf e num)])) (t, [])
  { s := r.1, writes := if c.f.d = 0 then [] else destWrites c.warp c.f.d.toNat true r.2 }

/-- The engine context of the named queue has a place for every active lane's command, and the issuer's earlier accesses are
performed (R167, R318). -/
def queueReady (c : Iss) (kind sco e : Nat) (t : State) : Prop :=
  queueOf c.s c.ctx kind c.queue = some e ∧ (c.s.getEng e).queue.length + c.act.length ≤ 64 ∧ fenceFirst c c.s sco = .ok t

end Sys2Proof.Machine.Claim

/-- TCOPY in both forms, TGATHER, TSCATTER and TCOLL (R318 to R321): with scratchpad ranges inside S', each active lane's
command joins the queue and D takes its handle; a linear copy of length 0 completes at once. -/
def Obligations.QueuedCommands : Prop :=
  ∀ (s : State) (f : Fields) (c0 c1 c : Iss) (e : Nat) (t : State),
    (Issues s (.tcopy f) c0 c1 c → Claim.queueReady c 0 6 e t →
      let ss := bitB c.f.immN 26
      let ds := bitB c.f.immN 25
      let a := c.place ss c.f.a.toNat
      let b := c.place ds c.f.b.toNat
      let n (l : Nat) : Nat := c.read c.f.c.toNat false l
      rangeTrap c (c.act.flatMap (fun l => (if ss then [(l, a l, n l)] else []) ++ (if ds then [(l, b l, n l)] else []))) = none →
      exec (.tcopy f) s = .next (issued c (.tcopy f) false
        (Claim.queued c e true (fun s num l => (c.laneCommand (.tcopy f) num l (a l) (b l) (n l), s)) (fun l => n l = 0) t))) ∧
    (Issues s (.tcopyTile f) c0 c1 c → Claim.queueReady c 0 6 e t → tcopyFails c0 = [] →
      exec (.tcopyTile f) s = .next (issued c (.tcopyTile f) false
        (Claim.queued c e true (fun s num l => (c.laneCommand (.tcopyTile f) num l 0 0 0, s)) (fun _ => false) t))) ∧
    (∀ i, i = .tgather f ∨ i = .tscatter f → Issues s i c0 c1 c → Claim.queueReady c 1 6 e t →
      let a (l : Nat) : Nat := c.read c.f.a.toNat false l
      let k (l : Nat) : Nat := c.read c.f.c.toNat false l
      rangeTrap c (c.act.flatMap (fun l => [(l, a l, 4 * rowCount c.f), (l, k l, rowCount c.f * rowBytes c.f)])) = none →
      exec i s = .next (issued c i false
        (Claim.queued c e true (fun s num l =>
          (c.laneCommand i num l (a l) (c.ea c.f.b.toNat (bitB c.f.immN 24) 0 l) (k l), s)) (fun _ => false) t))) ∧
    (Issues s (.tcoll f) c0 c1 c → c1.act.length = 1 → Claim.queueReady c 2 7 e t →
      exec (.tcoll f) s = .next (issued c (.tcoll f) false
        (Claim.queued c e false (fun s num l =>
          let g := s.groups.get Group.init (collGroup c.f)
          ({ c.laneCommand (.tcoll f) num l (c.ea c.f.a.toNat false 0 l) (c.ea c.f.b.toNat false 0 l)
               (c.read c.f.c.toNat false l) with coll := g.k },
           { s with groups := s.groups.put (collGroup c.f) { g with k := g.k + 1 } })) (fun _ => false) t)))

namespace Sys2Proof.Machine.Claim

/-- The completion of the handles may be observed: no write-back of the core waits for a hold (R155, R168, R277). -/
def observable (c : Iss) (hs : List Nat) : Prop := (∃ h ∈ hs, h ≠ 0) → writebackHeld c.s c.core (fun _ => true) = false
/-- Its observation drops the L1, unless every handle is the null handle (R168). -/
def observed (c : Iss) (hs : List Nat) : State := if hs.all (· = 0) then c.s else dropAll c.s c.core

end Sys2Proof.Machine.Claim

/-- HWAIT, HTEST, HCANCEL, HSLEEP and HSTAT on handles that may be used (R322 to R325): HWAIT goes on when every lane's command
is complete, otherwise its lanes wait; HTEST answers 1 or 0; HCANCEL asks for the end of each command that is not complete;
HSLEEP sends lanes to sleep until their promised cycles; HSTAT reads completion words or promises. -/
def Obligations.HandleInstructions : Prop :=
  ∀ (s : State) (f : Fields) (c0 c1 c : Iss), c.handleFault = none →
    (Issues s (.hwait f) c0 c1 c → (∀ l ∈ c.act, c.isDone l = true) →
      Claim.observable c (c.act.map c.handle) →
      exec (.hwait f) s = .next (issued c (.hwait f) false { s := Claim.observed c (c.act.map c.handle) })) ∧
    (Issues s (.hwait f) c0 c1 c → (∃ l ∈ c.act, c.isDone l = false) →
      exec (.hwait f) s = .next (settleDeadlock (parkOnHandle c (c.f.a.toNat - 120)) c.wg c.w)) ∧
    (Issues s (.htest f) c0 c1 c → Claim.observable c ((c.act.filter c.isDone).map c.handle) →
      exec (.htest f) s = .next (issued c (.htest f) false
        { s := Claim.observed c ((c.act.filter c.isDone).map c.handle)
          writes := destWrites c.warp c.f.d.toNat false (c.act.map (fun l => (l, if c.isDone l then 1 else 0))) })) ∧
    (Issues s (.hcancel f) c0 c1 c →
      exec (.hcancel f) s = .next (issued c (.hcancel f) false
        { s := c.act.foldl (fun s l =>
            if c.handle l = 0 ∨ c.isDone l = true then s
            else cancelOne s (c.handle l / 2 ^ 52) (handleNum (s.getEng (c.handle l / 2 ^ 52)).count (c.handle l))) c.s })) ∧
    (Issues s (.hsleep f) c0 c1 c →
      let ls := c.act.filterMap (fun l => (promiseOf c.s c.ctx (c.handle l)).map (fun p => (l, p)))
      exec (.hsleep f) s = .next (issued c (.hsleep f) false
        { s := c.s.modWarp c.wg c.w (fun w => ls.foldl (fun w e => w.park [e.1] (.hsleep (c.f.a.toNat - 120)) c.cur.npc e.2) w)
          moves := ls.map (fun e => (e.1, none)) })) ∧
    (∀ val : Nat → Nat, Issues s (.hstat f) c0 c1 c →
      (bitB c.f.immN 20 = false → ∀ l, val l = statWord c.s c.ctx (c.handle l)) →
      (bitB c.f.immN 20 = true → ∀ l,
        promiseOf c.s c.ctx (c.handle l) = some (val l) ∨
        promiseOf c.s c.ctx (c.handle l) = none ∧
          val l = (if c.handle l ≠ 0 ∧ (c.s.getCtx c.ctx).compat = true then 2 ^ 64 - 1 else 0)) →
      exec (.hstat f) s = .next (issued c (.hstat f) false
        { s := c.s, writes := destWrites c.warp c.f.d.toNat true (c.act.map (fun l => (l, val l))) }))

namespace Sys2Proof.Machine.Claim

/-- The value that LOGQ reads from record state (R335). -/
def logValue (r : RecState) : Nat → Nat
  | 0 => r.nent
  | 1 => r.payused
  | 2 => r.stat.toNat
  | 3 => r.rpos
  | 4 => r.base % 2 ^ 64
  | _ => r.base / 2 ^ 64

end Sys2Proof.Machine.Claim

/-- RECBEGIN, RECEND, RECMARK and REVERSE (R332 to R334, R342) become commands of the matrix engine; their issue begins or ends
the record or begins the reverse pass.  LOGQ (R335) reads record state once no command of its workgroup is on the engine. -/
def Obligations.RecordInstructions : Prop :=
  ∀ (s : State) (f : Fields) (c0 c1 c : Iss),
    let bv := c1.read c1.f.b.toNat false c1.l0
    (Issues s (.recbegin f) c0 c1 c → c0.g.recd.act = false → c1.caddy % 256 = 0 → 0 < bv → bv ≤ 2 ^ 24 →
      payOff bv + 256 ≤ 256 * c1.read c1.f.c.toNat false c1.l0 →
      Claim.Commands s (.recbegin f) c
        (fun num => { c.command (.recbegin f) num c.caddy (c.read c.f.b.toNat false c.l0) (c.read c.f.c.toNat false c.l0) with
          recBase := c.caddy, recCap := c.read c.f.b.toNat false c.l0, recSize := c.read c.f.c.toNat false c.l0 })
        (fun t => t.modRec c.wg (fun r =>
          { r with act := true, tw := bitB c.f.immN 27, clr := 0, rcm := BitVec.ofNat 16 c.f.immN, base := c.caddy
                   entcap := c.read c.f.b.toNat false c.l0, size := c.read c.f.c.toNat false c.l0 })) 0) ∧
    (Issues s (.recend f) c0 c1 c →
      Claim.Commands s (.recend f) c (fun num => c.command (.recend f) num 0 (if c.g.recd.act then 1 else 0) 0)
        (fun t => t.modRec c.wg (fun r => { r with act := false })) 0) ∧
    (Issues s (.recmark f) c0 c1 c → c1.read c1.f.a.toNat false c1.l0 ≠ 0xFFFFFFFF →
      Claim.Commands s (.recmark f) c
        (fun num => c.command (.recmark f) num (c.read c.f.a.toNat false c.l0) (if c.g.recd.act then 1 else 0) 0) id 0) ∧
    (Issues s (.reverse f) c0 c1 c → c0.g.recd.rev = false → bv % 64 = 0 →
      Claim.Commands s (.reverse f) c
        (fun num => c.command (.reverse f) num (c.read c.f.a.toNat false c.l0) (c.read c.f.b.toNat false c.l0) 0)
        (fun t => t.modRec c.wg (fun r => { r with act := false, rev := true })) 0) ∧
    (Issues s (.logq f) c0 c1 c → (∀ r, (c.s.mxOf c.wg).run = some r → r.cmd.wg ≠ c.wg) →
      (∀ x, (c.s.mxOf c.wg).staged = some x → x.wg ≠ c.wg) →
      exec (.logq f) s = .next (issued c (.logq f) false
        { s := c.s, writes := destWrites c.warp c.f.d.toNat true
            (c.act.map (fun l => (l, Claim.logValue c.g.recd (bits c.f.immN 20 3)))) }))

namespace Sys2Proof.Machine.Claim

/-! ### System instructions -/

/-- The value of a system register (R350), by its number. -/
def systemRegister (c : Iss) (n : Nat) : Nat :=
  let m := c.s.mxOf c.wg
  if n = 0 then readWcr c.s c.wg c.w else if n = 1 then c.warp.flags.toNat
  else if 8 ≤ n ∧ n < 16 then (c.g.fmt.get 0 (n - 8)).toNat else if n = 0x10 then c.g.amr.toNat
  else if n = 0x40 then c.core
  else if n = 0x41 then (if c.warp.modeS then 1 else 0) + 2 * (if bitB c.lr.flags 1 then 1 else 0)
  else if n = 0x300 then c.warp.tfbase else if n = 0x302 then c.warp.tcause.toNat
  else if n = 0x304 then c.warp.spbase else if n = 0x306 then c.lr.spsize
  else if n < 0x200 then m.scale (n - 0x100) else (m.mx.get 0 (n - 0x200)).toNat

/-- The frame of a handled trap read back (R352): its bytes, the ranges of it that are poisoned, and the state. -/
def frameOf (c : Iss) (ts : List TPart) (t : State) : List Byte × List (Nat × Nat) × State :=
  ts.foldl (fun (a : List Byte × List (Nat × Nat) × State) x =>
    let r := weakRead a.2.2 c.wg c.core 0 x
    (a.1 ++ r.1, if r.2.1 then a.2.1 ++ [(a.1.length, r.1.length)] else a.2.1, r.2.2)) ([], [], t)

/-- The return of ERET from the state `u`, with the stores that wait at their unit (R352): the entry's lanes go to the frame's RPC,
and the stopped entries issue again. -/
def returned (c : Iss) (fr : List Byte) (u : State × Nat) : State :=
  issuedThen c (.eret c.f) { s := u.1, awaits := u.2, moves := (lanesOf c.entry.mask).map (fun l => (l, some (leAt fr 0x10 10))) }
    (fun s => s.modWarp c.wg c.w (fun x => { x with
      modeS := false, trapLanes := 0, table := x.aside.foldl tableInsert x.table, aside := [] }))

/-- One word, or doubleword, for every active lane. -/
def answer (c : Iss) (t : State) (wide : Bool) (x : Nat) : Out :=
  { s := t, writes := destWrites c.warp c.f.d.toNat wide (c.act.map (fun l => (l, x))) }
/-- The same for D of any kind, an output stream among them. -/
def Answers (s : State) (c : Iss) (i : Instr) (t : State) (wide : Bool) (x : Nat) : Prop :=
  Lands s c i false { s := t } wide (c.act.map (fun l => (l, x)))

/-- The answer of SCANGO (R357), the first that applies. -/
def scanAnswer (s : State) (p : Nat) : Nat :=
  if s.mask.getLsbD p = false then 3 else if (s.getCore p).scan.state = 1 then 2
  else if residents s p ≠ [] ∨ ∃ b ∈ bindsAhead s p, b.kind ≤ 1 then 1
  else if ∃ i ∈ List.range 4, (s.getCore (p / 4 * 4 + i)).scan.state = 1 then 4 else 0

/-- The word of SCANPOLL (R358). -/
def scanWord (s : State) (p : Nat) : Nat :=
  let k := (s.getCore p).scan
  k.state + (if k.state = 1 then s.now - k.start else k.ended - k.start) / 256 % 2 ^ 24 * 2 ^ 8 +
    k.chain.getD (2 ^ 32 - 1) % 2 ^ 32 * 2 ^ 32

/-- The invalidation that a TLBI asks for (R149, R355). -/
def invalOf (c : Iss) : Inval :=
  let a := c.ea c.f.a.toNat (bitB c.f.immN 24) 0 c.l0
  let n := c.read c.f.b.toNat true c.l0
  let v : Inval :=
    { wg := c.wg, warp := c.w, idx := c.warp.nextIdx
      asid := if bitB c.f.immN 26 then c.read c.f.c.toNat false c.l0 % 2 ^ 16 else c.asid
      lo := if bitB c.f.immN 27 then 0 else a / 65536 * 65536
      hi := if bitB c.f.immN 27 then 2 ^ 80 else if n = 0 then 0 else roundUp (a + n) 65536, frames := [] }
  if v.hi = 0 then v else { v with frames := v.framesIn c.s }

end Sys2Proof.Machine.Claim

/-- MFS and MTS (R87, R91, R102, R108, R124, R350): every system register reads as the table says; writes change the fields
that the register has, clear sticky flags, or write a format slot, `amr`, a scale or a maximum magnitude.  A format slot and `amr`
change as the cycle ends (R92).  The last two, and
their reads, are by the owner of the engine. -/
def Obligations.SystemRegisters : Prop :=
  ∀ (s : State) (f : Fields) (c0 c1 c : Iss),
    (Issues s (.mfs f) c0 c1 c → (0x100 ≤ c0.f.sr → c0.f.sr < 0x208 → c0.owns = true) →
      Claim.Answers s c (.mfs f) c.s c.f.mW (Claim.systemRegister c c.f.sr)) ∧
    (Issues s (.mtsWcr f) c0 c1 c → exec (.mtsWcr f) s = .next (issued c (.mtsWcr f) false
      { s := c.modWarp (fun x => { x with wcr := BitVec.ofNat 32 (c.a false c.l0 &&& 0x1F1FFF) }) })) ∧
    (Issues s (.mtsXflagsClear f) c0 c1 c → exec (.mtsXflagsClear f) s = .next (issued c (.mtsXflagsClear f) false
      { s := c.modWarp (fun x => { x with flags := x.flags &&& ~~~(BitVec.ofNat 5 (c.a false c.l0)) }) })) ∧
    (Issues s (.mtsFmt f) c0 c1 c → exec (.mtsFmt f) s = .next (issued c (.mtsFmt f) false
      { s := c.s.modWg c.wg (fun g =>
        { g with fmtNext := g.fmtNext.put (c.f.sr - 8) (BitVec.ofNat 32 (c.a false c.l0 &&& 0x03FFFFFF)) }) })) ∧
    (Issues s (.mtsAmr f) c0 c1 c → exec (.mtsAmr f) s = .next (issued c (.mtsAmr f) false
      { s := c.s.modWg c.wg (fun g => { g with amrNext := some (BitVec.ofNat 64 (c.a true c.l0 &&& 0x7F7F7F7F7F7F7F7F)) }) })) ∧
    (∀ g : Wg, g.tick.fmt = g.fmtNext.foldl (fun m x => m.put x.1 x.2) g.fmt ∧ g.tick.amr = g.amrNext.getD g.amr) ∧
    (Issues s (.mtsSc f) c0 c1 c → c0.owns = true → c.awaitsCmd readsScales = false →
      exec (.mtsSc f) s = .next (issued c (.mtsSc f) false { s := c.s.modMx c.wg (fun m =>
        { m with sc := m.sc.set 0x3F800000 (c.f.sr - 0x100) (BitVec.ofNat 32 (c.a false c.l0)) }) })) ∧
    (Issues s (.mtsMx f) c0 c1 c → c0.owns = true →
      exec (.mtsMx f) s = .next (issued c (.mtsMx f) false { s := c.s.modMx c.wg (fun m =>
        { m with mx := m.mx.set 0 (c.f.sr - 0x200) (BitVec.ofNat 32 (c.a false c.l0)) }) }))

/-- TRAP and ERET (R351, R352): TRAP takes the trap of cause 0x0000 with IMM[15:0] as its information, to go on after it; ERET
by the lanes of the trap restores the registers of the frame and goes back to its RPC, for a trap of class 0x04 after the
spill or fill that it asked for (R54). -/
def Obligations.TrapsAndReturns : Prop :=
  ∀ (s : State) (f : Fields) (c0 c1 c : Iss) (ts : List TPart) (t : State),
    (Issues s (.trap f) c0 c1 c →
      exec (.trap f) s = .next (settleDeadlock
        (trapNow c { cls := 0, reason := 0, info := bits c.f.immN 0 16, fmask := c.amask } true) c.wg c.w)) ∧
    (Issues s (.eret f) c0 c1 c → eretFails c0 = [] →
      c.access c.s rightR false ((lineParts c.warp.tfbase 2304).map (fun p => { p with lane := c.l0 })) = .ok ts t →
      let r := Claim.frameOf c ts t
      let u := r.2.2.modWarp c.wg c.w (fun x => restoreFrame x r.1 (fun off => r.2.1.any (fun e => e.1 ≤ off && off < e.1 + e.2)))
      let fill := c.warp.tcause.toNat % 256 = 2
      let need := lanesOf (BitVec.ofNat 32 (leAt r.1 0x2C 4) &&& c.warp.trapLanes)
      c.warp.tcause.toNat / 256 ≠ 7 → isStart c.s c.wg false (leAt r.1 0x10 10) = true →
      (c.warp.tcause.toNat / 256 ≠ 4 ∨ need = [] → exec (.eret f) s = .next (Claim.returned c r.1 (u, 0))) ∧
      (∀ xs v, c.warp.tcause.toNat / 256 = 4 → need ≠ [] → fill →
        c.access u rightR false (windowParts c.warp true need) = .ok xs v →
        exec (.eret f) s = .next (Claim.returned c r.1 (xs.foldl (fun s x => fillLane s c.wg c.w c.core x) v, 0))) ∧
      (∀ xs v x, c.warp.tcause.toNat / 256 = 4 → need ≠ [] → ¬fill →
        c.access u rightW false (windowParts c.warp false need) = .ok xs v → detGate c v xs 0 = .ok x →
        exec (.eret f) s = .next (Claim.returned c r.1 (xs.foldl (fun (a : State × Nat) y =>
          let q := spillLane a.1 c.wg c.w c.core y
          (q.1, a.2 + q.2)) (x, 0)))))

/-- LAUNCH, TLBI, HALT and the instructions on scan tests and retirement (R149, R354 to R360). -/
def Obligations.SystemInstructions : Prop :=
  ∀ (s : State) (f : Fields) (c0 c1 c : Iss),
    (∀ u ts t, Issues s (.launch f) c0 c1 c → fenceFirst c c.s 6 = .ok u →
      c.access u rightR false ((lineParts (c.ea c.f.a.toNat (bitB c.f.immN 24) 0 c.l0) 256).map
        (fun p => { p with lane := c.l0 })) = .ok ts t →
      let r := readParts t c.wg c.core 0 ts
      let n := 1 + bits c.f.immN 20 2
      let q := (r.2.2.getCtx c.ctx).queues.get [] n
      r.2.1 = false →
      let new : QRec := { lid := r.2.2.nextLid, bytes := r.1, host := false, owner := false, prio := c.lr.prio }
      let v : State := { r.2.2 with nextLid := r.2.2.nextLid + 1, lids := r.2.2.lids.put r.2.2.nextLid (c.ctx, 0) }
      (q.length < 64 → exec (.launch f) s = .next (issued c (.launch f) false (Claim.answer c
        (v.modCtx c.ctx (fun x => { x with queues := x.queues.put n (q ++ [new]) })) true r.2.2.nextLid))) ∧
      (64 ≤ q.length → exec (.launch f) s = .next (issued c (.launch f) false (Claim.answer c r.2.2 true 0)))) ∧
    (Issues s (.tlbi f) c0 c1 c →
      let v := Claim.invalOf c
      let t := if v.hi = 0 then c.s else sweepLines (removeTranslations c.s v) v
      exec (.tlbi f) s = .next (issued c (.tlbi f) false
        { s := { t with invals := t.invals ++ [v] }, awaits := 1, stays := true })) ∧
    (Issues s (.halt f) c0 c1 c →
      exec (.halt f) s = .next (settleDeadlock (endWorkgroup c.s c.wg
        { wgErr c.s c.wg (c.warp.tcause.toNat / 256) (c.warp.tcause.toNat % 256) 2 2 with
          addr := c.entry.pc.toNat, detail := c.a false c.l0 % 2 ^ 16 }) c.wg c.w)) ∧
    (∀ i wide, i = .scango f ∧ wide = false ∨ i = .scanpoll f ∧ wide = true ∨ i = .scanstop f ∧ wide = false ∨
        i = .coreret f ∧ wide = false → Issues s i c0 c1 c → 319 < c.coreArg →
      Claim.Answers s c i c.s wide (if wide then 2 ^ 64 - 1 else 2 ^ 32 - 1)) ∧
    (∀ p, c.coreArg = p → p ≤ 319 →
      (Issues s (.scango f) c0 c1 c →
        Claim.Answers s c (.scango f) (if Claim.scanAnswer c.s p = 0 then scanStart c.s p (bitB c.f.immN 27) c.lr.prio 0 else c.s)
          false (Claim.scanAnswer c.s p)) ∧
      (Issues s (.scanpoll f) c0 c1 c →
        Claim.Answers s c (.scanpoll f) c.s true (Claim.scanWord c.s p)) ∧
      (Issues s (.scanstop f) c0 c1 c →
        Claim.Answers s c (.scanstop f) (scanAbortNow c.s p) false (if (c.s.getCore p).scan.state = 1 then 4 else 0)) ∧
      (Issues s (.coreret f) c0 c1 c → (c.s.getCore p).scan.state ≠ 3 →
        Claim.Answers s c (.coreret f) c.s false (2 ^ 32 - 1)) ∧
      (Issues s (.coreret f) c0 c1 c → (c.s.getCore p).scan.state = 3 → c.s.mask.getLsbD p = false →
        Claim.Answers s c (.coreret f) c.s false c.s.ncore) ∧
      (Issues s (.coreret f) c0 c1 c → (c.s.getCore p).scan.state = 3 → c.s.mask.getLsbD p = true →
        ∀ ps xs u, (if isS c.f.d.toNat then reserveAppend c c.s (c.f.d.toNat - 96) c.act else .ok ([], [], c.s)) = .ok (ps, xs, u) →
        exec (.coreret f) s = .next (issued c (.coreret f) false
          { s := u.modCore p (fun x => { x with retiring := true, waiters := x.waiters ++
              [{ wg := c.wg, warp := c.w, idx := c.warp.nextIdx
                 late := c.act.map (fun l => (l, (ps.filter (fun q => q.1 = l)).map (·.2))) }] })
            awaits := 1, writes := destWrites c.warp c.f.d.toNat false (c.act.map (fun l => (l, 0))) })))

namespace Sys2Proof.Machine.Claim

/-! ### What the device does by itself -/

/-- The lane waits in this hold, to wake at this cycle. -/
def wakesAt (x : Warp) (p : HoldKind → Bool) (wake l : Nat) : Bool :=
  (x.lane l).hold.any (fun h => p h.kind && h.wake = wake)

/-- The lane sleeps on the command of a handle register until this cycle (R324). -/
def sleepsOn (x : Warp) (reg wake l : Nat) : Prop := ∃ h, (x.lane l).hold = some h ∧ h.kind = .hsleep reg ∧ h.wake = wake

/-- The trap of a report is taken at entry `e` (R498): the entry's PC is saved.  Where the workgroup is held at the write of the
frame (R177), the report stays. -/
def trappedBy (s : State) (wg w : Nat) (r : Report) (e : Entry) : State :=
  let t := takeTrap (s.modWarp wg w (fun x => { x with reports := x.reports.erase r })) wg w e.pc
    (if r.amask = 0 then e.mask else r.amask) e.pc.toNat
    { cls := r.cause / 256, reason := r.cause % 256, info := r.info, info2 := r.info2
      fmask := if r.fmask = 0 then e.mask else r.fmask } r.held
  if (t.getWg wg).det.held then t.modWarp wg w (fun x => { x with reports := r :: x.reports }) else t

end Sys2Proof.Machine.Claim

/-- Events of one warp: the end of an operation of variable latency (R88), an overdue entry (R45), the ends of SLEEP and HSLEEP
(R228, R324, R503), a SEQ that has changed (R280), a remote part that is not accepted (R475), and the traps that reports bring
(R456, R498). -/
def Obligations.WarpEvents : Prop :=
  ∀ (s : State) (wg w : Nat),
    let x := s.getWarp wg w
    (∀ idx b, x.pend.find? (fun b => b.idx = idx && b.isVar && b.awaits = 0 && b.due ≤ s.now) = some b →
      exec (.variableLatencyCompletion wg w idx) s = .next (s.setWarp wg w (x.complete b))) ∧
    (∀ pc, exec (.fairnessOverdue wg w pc) s = .next (s.setWarp wg w { x with table := x.table.map (fun e =>
      if e.pc = BitVec.ofNat 80 pc ∧ x.fairness ≤ e.fair then { e with overdue := true } else e) })) ∧
    (∀ wake, wake ≤ s.now → exec (.sleepWake wg w wake) s =
      .next (s.setWarp wg w (x.releaseLanes (x.heldLanes.filter (Claim.wakesAt x (fun k => k = .sleep) wake))))) ∧
    (∀ wake reg ls, wake ≤ s.now → x.heldLanes.filter (fun l => (hsleeping x wake l).isSome) = ls →
      (∀ l ∈ ls, Claim.sleepsOn x reg wake l) →
      let h (l : Nat) : Nat := (x.getH l reg).toNat
      let done (l : Nat) : Prop := handleState s (s.wgCtx wg) (h l) = .complete
      let core := (s.getWg wg).core
      ((∀ l ∈ ls, done l) → (∀ l ∈ ls, h l = 0) → exec (.hsleepWake wg w wake) s =
        .next (s.modWarp wg w (fun x => x.releaseLanes ls))) ∧
      ((∀ l ∈ ls, done l) → (∃ l ∈ ls, h l ≠ 0) → exec (.hsleepWake wg w wake) s =
        .next (if writebackHeld s core (fun _ => true) then sendWritebacks s core (fun _ => true)
          else (dropAll s core).modWarp wg w (fun x => x.releaseLanes ls))) ∧
      ((∀ l ∈ ls, ¬ done l) → exec (.hsleepWake wg w wake) s =
        .next (s.modWarp wg w (fun y =>
          let z := y.releaseLanes ls
          let r (g : List Nat) : Report := { cause := 0x906, info := h (g.headD 0), info2 := wake, fmask := laneSet g
                                             lanes := laneSet g, amask := laneSet g, order := z.nextIdx, held := z.modeS
                                             engine := false }
          { z with reports := z.reports ++ (lateGroups x ls).map r })))) ∧
    (∃ t, exec (.acqGeWake wg w) s = .next t ∧ ∀ e ∈ (t.getWarp wg w).table, ∃ d ∈ x.table,
      if seqChanged s wg d then e = { d with wait := .none } else e = d) ∧
    (∃ t, exec (.remoteTimeout wg w) s = .next t ∧ ∀ e ∈ (t.getWarp wg w).table, ∃ d ∈ x.table,
      (∀ a c, d.wait = .remote a c → c ≤ s.now → c < a → e = { d with wait := .undelivered 9 }) ∧
      ((∀ a c, d.wait = .remote a c → s.now < c ∨ a ≤ c) → e = d)) ∧
    (∀ r e, nextReport x isOrphan = some r → reportEntry x r = some e → x.owes = false →
      exec (.orphanedSetTrap wg w) s = .next (Claim.trappedBy s wg w r e)) ∧
    (∀ r e, reportHeir s wg w = none → nextReport x (fun r => !isOrphan r) = some r → reportEntry x r = some e →
      x.owes = false →
      exec (.reportedTrapDelivery wg w) s = .next (Claim.trappedBy s wg w r e))

/-- Events of the memory system: a fetch (R191, R474), the end of a page walk (R148), an invalidation acknowledged (R149), the
atomic units (R141, R183), the end of an LR's hold (R277), a replay that has diverged (R484), a write-back to the L2 (R152),
a request of another package (R388), a failed end-to-end check (R475), and a soft error (R478). -/
def Obligations.MemoryEvents : Prop :=
  ∀ (s : State),
    (∀ core asid va, exec (.icacheFill core asid va) s =
      .next (fillLine (fillLine s core asid va false) core asid va true)) ∧
    (∀ asid va, (∀ v ∈ s.walks, ¬ (v.asid = asid ∧ v.va / 65536 = va / 65536)) → exec (.pageWalkComplete asid va) s = .next s) ∧
    (∀ v ws, s.walks = v :: ws → (∀ x ∈ ws, ¬ (x.asid = v.asid ∧ x.va / 65536 = v.va / 65536)) →
      exec (.pageWalkComplete v.asid v.va) s = .next (prefetchLine { s with walks := ws } v.core v.asid v.va v.hint v.modeS)) ∧
    (∀ wg w v, s.invals = [v] → v.wg = wg → v.warp = w → v.hi = 0 →
      exec (.tlbiAcknowledge wg w) s = .next (deliverWait { s with invals := [] } wg w v.idx 0 id)) ∧
    (∀ i q, s.atomQ[i]? = some q → atomReady s i = true →
      let t := atomPerform { s with atomQ := s.atomQ.eraseIdx i } q
      exec (.atomicUnitOperation i) s = .next (if q.kind = 8 then afterWriteback t q.idx else t)) ∧
    (∀ g, exec (.lrHoldExpiry g) s =
      .next { s with holdsLR := s.holdsLR.filter (fun h => !(h.granule = g && holdExpired s h)) }) ∧
    (∀ ctx n q, diverged s ctx n = true → (atGate s ctx n).head? = some q →
      ∃ t r, exec (.replayDivergence ctx n) s = .next (failLaunch t (s.getWg q.wg).lslot r) ∧ r.cls = 0x0A ∧ r.reason = 6 ∧
        r.sev = 3 ∧ (∀ p ∈ t.atomQ, p ∈ s.atomQ ∧ ¬ (p.ctx = ctx ∧ p.region = some n ∧ (s.getWg p.wg).lslot = (s.getWg q.wg).lslot))) ∧
    (∀ core line, exec (.writePerformedAtL2 core line) s = .next (writeback s core (inLine line))) ∧
    (∀ q, s.power = .running → remoteWaits s q = false → exec (.ualinkRemoteRequest q) s = .next (performRemote s q)) ∧
    (∀ q c, s.power = .hold c → exec (.ualinkRemoteRequest q) s = .next (answerRemote s (remoteSrc q) 0xFF [])) ∧
    (∀ wg w, (s.wgs.find? wg).isSome = true → (s.getWg wg).alive = true →
      exec (.endToEndCrcMismatch (.warp wg) w) s = .next (if (s.getWarp wg w).crcFails < 3 then
        s.modWarp wg w (fun x => { x with crcFails := x.crcFails + 1 }) else crcExhausted s wg w)) ∧
    (∀ e, (s.getEng e).owner ≠ none → exec (.endToEndCrcMismatch .engine e) s = .next (if (s.getEng e).crcFails < 3 then
        s.modEng e (fun g => { g with crcFails := g.crcFails + 1 }) else engineExhausted s e)) ∧
    (∀ core line, coreDie core ≠ paDie (line * 128) → exec (.endToEndCrcMismatch (.writeback core) line) s =
      .next (if (s.getCore core).crcFails < 3 then s.modCore core (fun c => { c with crcFails := c.crcFails + 1 })
        else writebackExhausted s core line)) ∧
    (∀ pa, inHBM (paLocal pa) = true → paPkg pa = s.pkgid →
      exec (.softError (.memory pa)) s = .next (countEvent (poisonBlock s pa) 4 (channelOf pa))) ∧
    (∀ wg w lane pos, (s.wgs.find? wg).isSome = true → (s.getWg wg).alive = true →
      exec (.softError (.register wg w lane pos)) s =
        .next (countEvent (s.modWarp wg w (fun x => x.markPoison (poisonV pos lane) true)) 1 (s.getWg wg).core)) ∧
    (∀ wg off, (s.wgs.find? wg).isSome = true → (s.getWg wg).alive = true →
      exec (.softError (.scratch wg off)) s =
        .next (countEvent (s.modWg wg (fun g => { g with scratchPoison := g.scratchPoison.set false (off / 4) true })) 1
          (s.getWg wg).core)) ∧
    (∀ core n, ∃ t, exec (.softError (.accum core n)) s = .next t ∧
      (t.getCore core).mx.accPoison = (s.getCore core).mx.accPoison.set false n true)

/-- Events of the engines: a staged command starts (R305), a native step completes (R305), the head of a copy or gather
queue completes (R302, R318), and a collective whose members have all brought their parts (R321, R389). -/
def Obligations.EngineEvents : Prop :=
  ∀ (s : State) (core : Nat),
    (∀ cmd, (s.getCore core).mx.staged = some cmd → infuserReady s core = true →
      exec (.infuserCommandStart core) s = .next (startCommand s core cmd)) ∧
    (∀ cmd fn f t, (s.getCore core).mx.staged = some cmd → infuserReady s core = true → cmd.cancel = false → cmd.log = false →
      tileOf cmd.instr = some (fn, f) → exec (.infuserCommandStart core) s = .next t →
      (t.getCore core).mx.staged = none ∧ ∃ r, (t.getCore core).mx.run = some r ∧ r.step = 0 ∧ r.code = 0 ∧ r.xf = 0 ∧
        r.cmd = cmd ∧ r.total = (descOf cmd.fmt cmd.dd).tiles ∧ r.stepDue = s.now + stepCycles cmd) ∧
    (∀ r, (s.getCore core).mx.run = some r → r.stepDue ≤ s.now → r.stepDue < parkedDue → r.code = 0 → r.cmd.log = false →
      exec (.nativeStepComplete core) s = .next (runStep s core r) ∧
      (∀ fn f, tileOf r.cmd.instr = some (fn, f) → runStep s core r = tileOpStep s core r fn f) ∧
      (∀ f, r.cmd.instr = .reverse f → runStep s core r = reverseStep s core r)) ∧
    (∀ r, (s.getCore core).mx.run = some r → r.cmd.cancel = true → parkedDue ≤ r.stepDue →
      ((∀ f, r.cmd.instr ≠ .reverse f) → exec (.nativeStepComplete core) s = .next (endRun s core r 1)) ∧
      (∀ f, r.cmd.instr = .reverse f → (endReverse s r.cmd 0 .done).fin ≠ some .wait →
        exec (.nativeStepComplete core) s = .next (endRun (endReverse s r.cmd 0 .done).s core r 1))) ∧
    (∀ e cmd rest, (s.getEng e).queue = cmd :: rest → headDue s (s.getEng e) = true →
      (cmd.cancel = true → cmd.begun = false → exec (.engineCommandCompletion e) s = .next (popHead s e cmd 1)) ∧
      (cmd.cancel = false → (transfer s cmd (fun _ => true)).fin = .done →
        exec (.engineCommandCompletion e) s = .next (popHead (transfer s cmd (fun _ => true)).s e cmd 0))) ∧
    (∀ g remote e cmd own t, oldestColl s g = some (e, cmd) → (groupMembers s g).contains s.pkgid = true →
      (cmd.cancel = false ∨ cmd.begun = true) →
      (∀ f, cmd.instr = .tcoll f → ∀ p ∈ remote, p.rank < (groupMembers s g).length ∧ p.op = bits f.immN 25 3 ∧
        p.count = cmd.c ∧ p.members = groupMembers s g) →
      (∀ r < (groupMembers s g).length, (groupMembers s g)[r]? = some s.pkgid ∨ ∃ p ∈ remote, p.rank = r) →
      engRead s (cmd.who s) cmd.a (4 * cmd.c) = (.ok own, t) →
      ∀ f, cmd.instr = .tcoll f →
      let srcs := (List.range (groupMembers s g).length).map (fun r =>
        if (groupMembers s g)[r]? = some t.pkgid then own
        else ((remote.find? (fun p => p.rank = r)).map (fun p => fitBytes (4 * cmd.c) p.data)).getD [])
      let o := engWrite t (cmd.who s) cmd.b (collResult (bits f.immN 25 3) cmd.c srcs)
      o.fin = .done → exec (.collectiveComplete g remote) s = .next (endColl o.s e cmd 0))

namespace Sys2Proof.Machine.Claim

/-- The bind record at the head of its core's records, of a kind (R368). -/
def bindAt (s : State) (core kind : Nat) (b : Bind) : Prop := firstBind s core = some b ∧ b.kind = kind

end Sys2Proof.Machine.Claim

/-- Bind records carried out (R368): create, resume, yield, withdraw core and return core; the safe points that are overdue
(R60, R462), the save of a stopped unit (R62, R94), and retirement (R37). -/
def Obligations.BindingEvents : Prop :=
  ∀ (s : State) (core : Nat) (b : Bind),
    (Claim.bindAt s core 0 b → createReady s b = true →
      exec (.bindCreate core) s = .next ((groupBinds s b).foldl (fun t x => createWg (popBind t x) x) s)) ∧
    (Claim.bindAt s core 1 b → resumeReady s b = true →
      (∀ x ∈ groupBinds s b, (checkedImage s (wgKey x.lslot x.wg)).isSome = true) →
      exec (.bindResume core) s = .next ((groupBinds s b).foldl (fun t x =>
        resumeWg t x ((checkedImage t (wgKey x.lslot x.wg)).getD [])) ((groupBinds s b).foldl popBind s))) ∧
    (Claim.bindAt s core 2 b →
      let k := wgKey b.lslot b.wg
      (yieldReady s b = true → (s.wgs.find? k).isSome = true → (s.getWg k).alive = true → (s.getWg k).phase = .running →
        exec (.yieldRequest core) s = .next ((unitOf s k Wg.alive).foldl askYield s)) ∧
      ((s.wgs.find? k).isSome = false → exec (.yieldRequest core) s = .next (popBind s b))) ∧
    (Claim.bindAt s core 3 b → ∃ t, exec (.bindWithdrawCore core) s = .next t ∧ (t.getCore core).withdrawn = true) ∧
    (Claim.bindAt s core 4 b → ∃ t, exec (.bindReturnCore core) s = .next t ∧ (t.getCore core).withdrawn = false) ∧
    (∀ wg, firstOverdue s wg = true → (unitOf s wg Wg.alive).any (fun k => (s.getWg k).swapStop) = false →
      exec (.safePointOverdue wg) s = .next ((unitOf s wg Wg.alive).foldl (fun s k => s.modWg k (fun g =>
          { g with phase := match g.phase with | .stopping t _ => .stopping t true | p => p }))
        (writeRecord s (overdueRecord s (((unstopped s wg).head?).getD wg) 1)))) ∧
    (∀ wg, secondOverdue s wg = true → exec (.safePointSecondBudget wg) s =
      .next ((unstopped s wg).foldl (fun t k => endWorkgroup t k (overdueRecord t k 2)) s)) ∧
    (∀ wg rs, saveReady s wg = true →
      let ks := unitOf s wg Wg.alive
      unitRoom (preparedUnit s ks) wg ks = some rs →
      exec (.workgroupSave wg) s = .next (endYields (rs.foldl (fun s r => saveRun s r.1 r.2) (preparedUnit s ks)) ks)) ∧
    (∀ wg, (s.wgs.find? wg).isSome = true → retireReady s wg = true →
      let g := s.getWg wg
      let t := writebackAll (writePending s wg) g.core
      let u := if t.wgDet wg then t else flushHeader t wg
      let v := (removeWg (freeImage (freeEngine (dropReports u wg) wg) wg) wg).modLaunch
        g.lslot (fun l => { l with done := l.done.put g.index true, ndone := l.ndone + 1, failed := l.failed + (if g.failed then 1 else 0) })
      exec (.workgroupRetire wg) s = .next (recheckLaunch (writeStatus v g.lslot 0x10
        (toLE 8 (v.getLaunch g.lslot).ndone ++ toLE 8 (v.getLaunch g.lslot).failed)) g.lslot))

/-- Events of launches: a record enters the table and is checked (R365, R367), the next step of placement (R373), the end of a
launch (R366), and the merges of deterministic mode (R175 to R177). -/
def Obligations.LaunchEvents : Prop :=
  ∀ (s : State),
    (∀ ctx queue q qs lslot, (s.getCtx ctx).queues.get [] queue = q :: qs →
      (List.range 1024).find? (fun i => (s.launches.find? i).isNone) = some lslot →
      let t := (s.modCtx ctx (fun x => { x with queues := x.queues.put queue qs })).setLaunch lslot
        { Launch.init with lid := q.lid, lr := { parseRec q.bytes with ctx := ctx }, host := q.host, owner := q.owner
                           prio := q.prio, held := q.bytes }
      let u := writeStatus t lslot 0 (statusBlock 0 0 q.lid)
      exec (.launchRecordTake ctx queue) s =
        .next (checkLaunch { u with rr := u.rr.put (4 + (parseRec q.bytes).prio % 4) ctx } lslot q ctx false)) ∧
    (∀ lslot ms, checkDue s lslot = false → (s.getLaunch lslot).lid ≠ 0 → swapVictim s lslot = none → planOf s lslot = .bind ms →
      exec (.workgroupPlacement lslot) s = .next (runPlan s lslot (.bind ms))) ∧
    (∀ lslot, launchDone s lslot = true → (s.getLaunch lslot).failing = false → (s.getLaunch lslot).reason = 0 →
      (s.getLaunch lslot).failed = 0 →
      let l := s.getLaunch lslot
      let t := writeStatus (writeStatus s lslot 0x28 (toLE 8 s.now)) lslot 0 (toLE 4 2)
      exec (.launchFinish lslot) s = .next (setLid { t with launches := t.launches.del lslot } l.lid l.lr.ctx 2)) ∧
    (∀ wg, mergeReady s wg = true → (lastHeader s wg).fin ≠ .wait → (lastHeader s wg).fin ≠ .code 1 →
      let u := (lastHeader s wg).s
      let lslot := (u.getWg wg).lslot
      (u.getWg wg).det.direct = false →
      (∀ t, mergeRun u wg = .ok t → exec (.deterministicMerge wg) s = .next (recheckLaunch
        ((mergeRegions t wg).modWg wg (fun g => { g with det := { g.det with merged := true, arrived := true } })) lslot)) ∧
      (∀ r, mergeRun u wg = .error r → exec (.deterministicMerge wg) s = .next (failLaunch u lslot r))) ∧
    (∀ wg t, bufferReady s wg = true → mergeRun s wg = .ok t →
      exec (.bufferFullRelease wg) s = .next (t.modWg wg (fun g =>
        { g with det := { g.det with held := false, direct := true, reds := [], vas := [], used := 0 } })))

/-- Events of cores and of the package's counts: renumbering (R18), scans (R357, R515, R535), the map (R518), hub registers
(R506), and counted errors (R514). -/
def Obligations.CoreEvents : Prop :=
  ∀ (s : State) (core : Nat),
    (∀ u d, renumberReady s core = true → drainNext s core = (some u, d) → exec (.coreRenumber core) s = .next (writeYields s u)) ∧
    (∀ d, renumberReady s core = true → drainNext s core = (none, d) → exec (.coreRenumber core) s = .next (retireCore s core)) ∧
    (scanOver s core = true → exec (.scanComplete core) s = .next (endScan s core)) ∧
    (scanOver s core = false → lastingNext s core = .scan → exec (.scanComplete core) s = .next (scanStart s core true 0 1)) ∧
    ((s.getCore core).scan.state = 1 → ∃ t, exec (.scanAbort core) s = .next t ∧ (t.getCore core).scan.state = 4 ∧
      (t.getCore core).withdrawn = false ∧ (t.getCore core).l1 = [] ∧ (t.getCore core).mx = Mx.init) ∧
    (s.mapStat ≠ 1 → s.held = false → Config.lmsVerify (policy 0x1E0 32) ((mapImage s).take 64) ((mapImage s).drop 64) = true →
      zeroAt (mapImage s) 0x38 8 = true → leAt (mapImage s) 0x30 8 = puid → s.epoch < leAt (mapImage s) 0x28 8 →
      ∃ t, exec .mapCommit s = .next t ∧ t.mapStat = 1 ∧ t.mapNew = BitVec.ofNat 320 (leAt (mapImage s) 0 40) ∧
        t.mapEpoch = leAt (mapImage s) 0x28 8) ∧
    (mapReady s = true → mapScanNext s = none → drainFrom s = none → exec .mapApply s = .next (applyMap s)) ∧
    (∀ p, mapReady s = true → mapScanNext s = some p → exec .mapApply s = .next (scanStart s p false 0 2)) ∧
    (∀ off data, 0x20000 ≤ off → off + data.length ≤ 0x22000 → exec (.hubRegisterWrite off data) s =
      .next { s with mapbuf := ((List.range data.length).zip data).foldl (fun m e => m.set 0 (off + e.1 - 0x20000) e.2) s.mapbuf }) ∧
    (∀ k v, 1 ≤ k → k ≤ 8 → bits v 0 16 ≠ 0 → bits v 16 24 ≠ 0 →
      exec (.cntWrite k v) s = .next { s with cnt := s.cnt.put k (bits v 0 16, bits v 16 24) }) ∧
    (∀ v, bitB v 0 = true → exec (.streqWrite v) s = .next { s with streq := true, nv := { s.nv with streq := true } }) ∧
    (∀ k n, 1 ≤ k → k ≤ 8 → exec (.errorEventCount k n) s = .next (countEvent s k n)) ∧
    (∀ k n e, s.errs.find? (errKey k n) = some e → windowOver s e = true →
      exec (.errorWindowClose k n) s = .next { s with errs := s.errs.del (errKey k n) })

namespace Sys2Proof.Machine.Claim

/-! ### The host -/

/-- The frame is the next of its session `x`, of type `ty`, well formed, for its context, and from the owner where that is asked
for (R380, R382, R385). -/
def inTurn (s : State) (fr : Frame) (x : Session) (ty : Nat) (owned : Bool) : Prop :=
  acceptFrame s fr = some x ∧ fr.ftype = ty ∧ fr.seq = x.e ∧ fr.zeroOk = true ∧ fr.ctx = x.ctx ∧ (owned = true → s.owner = some x.slot)

/-- The session answers from the address that its last frame went to (R379). -/
def heard (s : State) (x : Session) : State := modSession s x.id (fun y => { y with here := x.here })

/-- The request has been applied with an answer: E and the acknowledgements advance, and the response is sent (R382, R383). -/
def applied (s : State) (fr : Frame) (x : Session) (rtype stat : Nat) (data : List Byte) : State :=
  respond (countApplied s x.id) x fr rtype stat data

/-- A poisoned block reads as zeros to the host (R383). -/
def hostByte (s : State) (a : Nat) : Byte := if blockPoison s a then 0 else memByte s a

/-- The answer to a MGMT write: what its four bytes hold is open. -/
def mgmtAnswered (s : State) (fr : Frame) (x : Session) : State :=
  applied { s with free := s.free + 1 } fr x 0x12 0 (toLE 4 (Config.openWord s.free))

end Sys2Proof.Machine.Claim

/-- Requests of a session (R171, R381, R520): WRITE, READ, RELEASE, LAUNCH, CLAIM, HANDOVER and CLOSE that are in turn and may
be performed; a malformed frame consumes its SEQ with STAT 0x04 (R383); an ACK follows 2 µs after a frame without one (R382). -/
def Obligations.HostRequests : Prop :=
  ∀ (s : State) (fr : Frame) (x : Session),
    let u := Claim.heard s x
    (∀ ts, Claim.inTurn s fr x 1 true → 1 ≤ fr.payload.length → fr.payload.length ≤ 8192 →
      hostHeld s fr fr.payload.length rightW = false →
      hostParts u (u.getCtx x.ctx).asid fr.addr fr.payload.length rightW = some ts →
      meetsObject (u.getCtx x.ctx) fr.addr fr.payload.length = false →
      exec (.write fr) s = .next (Claim.applied
        (ts.foldl (fun s t => l2Write s t.pa ((fr.payload.drop (t.part.va - fr.addr)).take t.part.n)) u) fr x 0 0 [])) ∧
    (∀ ts, Claim.inTurn s fr x 2 false → fr.payload.length = 4 → 1 ≤ readLength fr → readLength fr ≤ 8192 →
      hostHeld s fr (readLength fr) rightR = false → hostParts u (u.getCtx x.ctx).asid fr.addr (readLength fr) rightR = some ts →
      exec (.read fr) s = .next (Claim.applied u fr x 0x11
        (if ts.any (fun t => (List.range t.part.n).any (fun i => blockPoison u (t.pa + i))) then 6 else 0)
        (ts.flatMap (fun t => (List.range t.part.n).map (fun i => Claim.hostByte u (t.pa + i)))))) ∧
    (∀ t, Claim.inTurn s fr x 3 true → fr.payload = [] → hostHeld s fr 8 rightW = false → fr.addr % 64 = 0 →
      hostParts u (u.getCtx x.ctx).asid fr.addr 8 rightW = some [t] → blockPoison u t.pa = false →
      fr.addr ≠ (u.getCtx x.ctx).loadObj →
      exec (.release fr) s = .next (Claim.applied (l2Write u t.pa (toLE 8 (memNat u t.pa 8 + 1))) fr x 0 0 [])) ∧
    (Claim.inTurn s fr x 4 true → fr.payload.length = 256 → fr.addr = 0 →
      let q := (u.getCtx x.ctx).queues.get [] 0
      let new : QRec := { lid := u.nextLid, bytes := fr.payload, host := true, owner := true, prio := 0 }
      let t : State := { u with nextLid := u.nextLid + 1, lids := u.lids.put u.nextLid (x.ctx, 0) }
      (q.length < 256 → exec (.launchFrame fr) s = .next (Claim.applied
        (t.modCtx x.ctx (fun c => { c with queues := c.queues.put 0 (q ++ [new]) })) fr x 0 0 [])) ∧
      (256 ≤ q.length → exec (.launchFrame fr) s = .next (Claim.applied u fr x 0 2 []))) ∧
    (acceptFrame s fr = some x → fr.seq = x.e → (fr.known = false ∨ fr.zeroOk = false) →
      exec (.malformedFrame fr) s = .next (Claim.applied { u with free := u.free + 1 } fr x 0 4 [])) ∧
    (∀ id, s.session id = some x → ackDue s x = true →
      exec (.mailboxAckTimer id) s = .next (sendAck (modSession s id (fun y => { y with unacked := 0 })) x)) ∧
    (Claim.inTurn s fr x 0x24 false → fr.payload = [] →
      (s.owner ≠ none → exec (.claim fr) s = .next (Claim.applied u fr x 0 3 [])) ∧
      (s.owner = none → s.electionDone = true → exec (.claim fr) s =
        .next (Claim.applied (sendFrame (setOwner u (some x.slot)) (claimAnswer x fr)) fr x 0 0 [])) ∧
      (s.owner = none → s.electionDone = false → exec (.claim fr) s =
        .next (Claim.applied { u with claims := u.claims ++ [(x.slot, claimAnswer x fr)] } fr x 0 0 []))) ∧
    (Claim.inTurn s fr x 0x25 true → fr.payload.length = 1 → u.sessions.any (fun y => y.slot = leAt fr.payload 0 1) = true →
      exec (.handover fr) s = .next (Claim.applied (setOwner u (some (leAt fr.payload 0 1))) fr x 0 0 [])) ∧
    (Claim.inTurn s fr x 0x26 false → fr.payload.length = 1 → leAt fr.payload 0 1 ≤ 1 →
      let v := if leAt fr.payload 0 1 = 1 ∧ s.owner = some x.slot then endContext u x.ctx else u
      exec (.close fr) s = .next (Claim.applied (sendAck (closeSession v x) { x with e := (x.e + 1) % 2 ^ 32 }) fr x 0 0 []))

/-- Management registers (R386): reads answer the listed register.  ADDR alone says what a write does: IPADDR, PKGID, PODID, IPCTL
(R379) and a word of a GROUP (R321) act as listed, PODID only while no context exists; a read-only register keeps its value (R7),
and an offset that is not listed is answered with STAT 0x04. -/
def Obligations.ManagementRequests : Prop :=
  ∀ (s : State) (fr : Frame) (x : Session),
    let u := Claim.heard s x
    (∀ v, Claim.inTurn s fr x 5 false → fr.payload.length = 4 → leAt fr.payload 0 4 = 0 → mgmtReg u fr.addr = some v →
      exec (.mgmtRead fr) s = .next (Claim.applied u fr x 0x12 0 (toLE 4 v))) ∧
    (∀ i ∈ [Instr.mgmtWrite fr, .mgmtWritePkgid fr, .mgmtWritePodid fr, .mgmtWriteIpctl fr, .mgmtWriteGroup fr],
      Claim.inTurn s fr x 5 true → fr.payload.length = 8 →
      let v := leAt fr.payload 4 4
      (∀ i' < 4, fr.addr = 0x20 + 4 * i' → exec i s = .next (Claim.mgmtAnswered
        { u with ipaddr := (List.range 16).map (fun k => if k / 4 = i' then bits v (24 - 8 * (k % 4)) 8 else u.ipaddr.getD k 0) }
        fr x)) ∧
      (fr.addr = 0xC → exec i s = .next (Claim.mgmtAnswered { u with pkgidNew := v % 1024 } fr x)) ∧
      (fr.addr = 0x10 → exec i s = .next (Claim.mgmtAnswered
        (if anyContext u then u else { u with podid := v % 65536, nv := { u.nv with podid := v % 65536 } }) fr x)) ∧
      (fr.addr = 0x30 → exec i s = .next (Claim.mgmtAnswered (if bitB v 0 then startAddress u else u) fr x)) ∧
      (fr.addr ∈ [0, 4, 8, 0x14, 0x18] → exec i s = .next (Claim.mgmtAnswered u fr x)) ∧
      (∀ g w, g < 256 → w ≤ 1024 → fr.addr = 0x10000 + 8192 * g + 4 * w →
        let y := u.groups.get Group.init g
        let z : Group := { words := y.words.set 0 w (if w = 0 then v % 2048 else v % 1024), k := 0 }
        let t : State := { u with groups := u.groups.put g z }
        exec i s = .next (Claim.mgmtAnswered ((openColls t g).foldl (fun u c => endColl u c.1 c.2 7) t) fr x)) ∧
      (mgmtReg u fr.addr = none → exec i s =
        .next (Claim.applied { u with free := u.free + 1 } fr x 0x12 4 (toLE 4 (Config.openWord u.free)))))

/-- The host port and sessions (R378, R379, R519, R521): duplicate address detection, answers to neighbour discovery and echo,
training of the port, HELLO with its CHALLENGE, PROVE, handshakes that end after 1 s, the election of an owner, and ownership
that lapses. -/
def Obligations.HostPortAndSessions : Prop :=
  ∀ (s : State) (fr : Frame),
    (s.ipctl = 1 → exec (.ipaddrDadComplete false) s = .next { s with ipctl := 2, dadEnd := 0 } ∧
      exec (.ipaddrDadComplete true) s =
        .next (writeRecord { s with ipctl := 3, dadEnd := 0 } (hubEvent .duplicateAddress 0 6))) ∧
    (∀ peer (pk : Packet), s.open_ = true → answersOn s pk.dst = true → pk.ext = false → pk.size ≤ 9216 →
      (∃ f, exec (.neighbourDiscovery peer pk) s = .next (sendFrame s f) ∧ f.src = pk.dst ∧ f.peer = peer) ∧
      (∃ f, exec (.icmpv6Echo peer pk) s = .next (sendFrame s f) ∧ f.src = pk.dst ∧ f.peer = peer)) ∧
    (∀ peer (pk : Packet), (answersOn s pk.dst = false ∨ pk.ext = true ∨ 9216 < pk.size) →
      exec (.neighbourDiscovery peer pk) s = .next s ∧ exec (.icmpv6Echo peer pk) s = .next s) ∧
    (∀ up, exec (.hostLinkUp up) s =
      .next { s with hostLanes := if 8 ≤ up.lanes then 8 else 4, linkLocal := !up.dup }) ∧
    (taken0 s fr 0x20 = true → helloOk fr = true → s.nv.attKey = true → allZero (slotHash (helloSlot fr)) = false →
      Config.sha256 (helloKey fr) = slotHash (helloSlot fr) →
      ∃ t f, exec (.hello fr) s = .next (sendFrame t f) ∧ f.ftype = 0x21 ∧ f.stat = 0 ∧ f.src = fr.dst ∧ f.peer = fr.peer ∧ f.seq = fr.seq ∧
        f.payload = Config.deviceNonce s.nonces ++
          Config.lmsSign s.nv.attIndex (attested (nextIndex s) (helloNonce fr) (Config.deviceNonce s.nonces)) ∧
        t.nv.attIndex = s.nv.attIndex + 1 ∧ ∃ h ∈ t.handshakes, h.peer = fr.peer ∧ h.slot = helloSlot fr ∧ h.ctx = helloCtx fr ∧
          h.devNonce = Config.deviceNonce s.nonces ∧ h.since = s.now) ∧
    (∀ h, taken0 s fr 0x22 = true → s.handshakes.find? (fun h => h.peer = fr.peer && !handshakeOver s h) = some h → fr.zeroOk = true →
      Config.lmsVerify h.key (proveMsg h) fr.payload = true →
      exec (.prove fr) s = .next (openSession { s with handshakes := s.handshakes.erase h } fr h)) ∧
    (∀ h, taken0 s fr 0x22 = true → s.handshakes.find? (fun h => h.peer = fr.peer && !handshakeOver s h) = some h → fr.zeroOk = true →
      Config.lmsVerify h.key (proveMsg h) fr.payload = false →
      exec (.prove fr) s = .next (proveFailed (answer0 { s with handshakes := s.handshakes.erase h } fr 0x23 9 []))) ∧
    (∀ i h, s.handshakes[i]? = some h → h.since + 2100000000 ≤ s.now →
      exec (.proveTimeout i) s = .next { s with handshakes := s.handshakes.erase h }) ∧
    (electionOver s = true → s.claims = [] → exec .electionWindowClose s = .next { s with electionDone := true }) ∧
    (∀ slot f, electionOver s = true → s.claims = [(slot, f)] → slot < 8 → exec .electionWindowClose s =
      .next (let t : State := { s with electionDone := true, claims := [] }
        setOwner (sendFrame t { f with ack := ((t.session f.sess).map (·.e)).getD f.ack }) (some slot))) ∧
    (∀ slot, s.owner = some slot → s.ownerSeen + 21000000000 ≤ s.now → exec .ownershipLapse s = .next (setOwner s none))

/-- Load requests of a context (R393 to R399), each once it stands first.  LOAD of a container that can be read and passes every check
of R394 stores its pieces, enters the load and writes STATE 1, and one that fails a check is refused with its reason; UNLOAD of a
load of which nothing is in use takes it out and writes STATE 3; INSTALL_SUPERVISOR and SET_SAVE_POOL; and the end of a translation
(R406). -/
def Obligations.LoadRequests : Prop :=
  ∀ (s : State) (ctx : Nat) (r : LoadReq),
    (headReq s ctx = some r →
      (∀ bs, r.opc = 1 → r.clen < 2 ^ 32 →
        let t := popReq s ctx
        let why := loadReason t ctx r bs
        kettleRead t (t.getCtx ctx).asid r.caddr r.clen = some bs →
        (why = 0 → exec (.load ctx) s = .next (acceptLoad t ctx r bs)) ∧
        (why ≠ 0 → exec (.load ctx) s = .next (refuseLoad t ctx r bs why))) ∧
      (r.opc = 1 → kettleRead (popReq s ctx) ((popReq s ctx).getCtx ctx).asid r.caddr r.clen = none →
        exec (.load ctx) s = .next (writeResult (popReq s ctx) ((popReq s ctx).getCtx ctx).asid r.res 2
          (resultHead (if r.clen < 2 ^ 32 then 9 else 1) 0 0 0 0) [])) ∧
      (∀ L, r.opc = 2 →
        let t := popReq s ctx
        let c := t.getCtx ctx
        let super : Prop := c.tvec ≠ none ∧ c.superLoad = r.loadId
        loadOf t ctx r.loadId = some L →
        (sectionsUsed t ctx L = false → ¬ (super ∧ ctxBusy t ctx = true) → exec (.unload ctx) s = .next (writeResult
          (t.modCtx ctx (fun c =>
            let ls := c.loads.filter (fun x => x.id ≠ r.loadId)
            let d : Ctx := { c with loads := ls, compat := c.compat && ls ≠ [] }
            if super then { d with tvec := none, tvecLen := 0, superLoad := 0 } else d))
          c.asid r.res 3 (resultHead 0 r.loadId 0 0 0) [])) ∧
        (sectionsUsed t ctx L = true ∨ (super ∧ ctxBusy t ctx = true) →
          exec (.unload ctx) s = .next (writeResult t c.asid r.res 4 (resultHead 0x0B r.loadId 0 0 0) []))) ∧
      (∀ L k, r.opc = 3 → loadOf (popReq s ctx) ctx r.loadId = some L → L.kernels[r.kix]? = some k → k.form = 0 →
        ctxBusy (popReq s ctx) ctx = false →
        let t := (popReq s ctx).modCtx ctx (fun c => { c with tvec := some k.sect, tvecLen := k.len, superLoad := r.loadId })
        exec (.installSupervisor ctx) s = .next (writeResult t ((popReq s ctx).getCtx ctx).asid r.res 5
          (resultHead 0 r.loadId 0 0 0) [])) ∧
      (r.opc = 4 → r.caddr % 2 ^ 21 = 0 → r.clen % 2 ^ 21 = 0 → 2 ^ 26 ≤ r.clen →
        pagesMeet (popReq s ctx) ((popReq s ctx).getCtx ctx).asid r.caddr r.clen (fun e => e.priv && e.rd && e.wr && e.mt = 0) = true →
        ctxBusy (popReq s ctx) ctx = false →
        let t := (popReq s ctx).modCtx ctx (fun c => { c with poolBase := r.caddr, poolLen := r.clen })
        exec (.setSavePool ctx) s = .next (writeResult t ((popReq s ctx).getCtx ctx).asid r.res 5 (resultHead 0 0 0 0 0) []))) ∧
    (∀ load kix L k res, loadOf s ctx load = some L → L.kernels[kix]? = some k → k.form = 1 →
      exec (.qpfTranslationComplete ctx load kix res) s = .next (translationEnds s ctx load kix L k res))

/-- The supply, links and hold (R507 to R512): levels change and are recorded; hold begins with every operation written back,
scans ended and steps completed, and ends with every time limit extended by its length and the counter that much further;
power loss leaves the non-volatile store; a link retrains and comes back narrower or not at all. -/
def Obligations.SupplyAndLinks : Prop :=
  ∀ (s : State),
    (∀ l, s.runs = true → s.level < l → l ≤ 2 → exec (.supplyDroop l) s = .next (setLevel s l)) ∧
    (s.runs = true → 0 < s.level → exec .supplyLevelRecovery s = .next (setLevel s (s.level - 1))) ∧
    (s.runs = true → ∃ t, exec .holdEntry s = .next t ∧ t.power = .hold t.now) ∧
    (∀ since n, s.power = .hold since → exec (.holdExit n) s = .next
      (let h := max n (s.now - since)
       writeRecord { extendTimes s h with power := .running, cyc := BitVec.ofNat 64 (since + h), level := 0, reducedSince := 0 }
         { hubEvent .holdExit 5 7 with detail := min h 0xFFFFFFFF })) ∧
    (s.power ≠ .off → ∃ t, exec .powerFail s = .next t ∧ t.power = .off ∧ t.ctxs = [] ∧ t.wgs = [] ∧ t.warps = [] ∧
      t.launches = [] ∧ t.sessions = [] ∧ t.owner = none ∧ t.mem = []) ∧
    (∀ n, isLink n = true → (linkOf s n).lanes ≠ 0 → exec (.linkRetrain n) s = .next
      (countEvent (writeRecord { s with links := s.links.put n { (linkOf s n) with retraining := true } }
        { hubEvent .linkRetrain 0 6 with kind := (linkKind n).1, inst := (linkKind n).2 }) (linkKind n).1 (linkKind n).2)) ∧
    (∀ n lanes, isLink n = true → (linkOf s n).retraining = true → s.runs = true →
      exec (.linkRetrainComplete n lanes) s =
        .next (setLanes s n (if 4 ≤ lanes then 4 else if 2 ≤ lanes then 2 else lanes)))

/-- Reset, self-test, sensor and alarms (R516, R522, R525, R526). -/
def Obligations.ResetAndAlarms : Prop :=
  ∀ (s : State),
    (Config.firmwareAccepted s.free = false → ∃ t, exec .deviceReset s = .next t ∧ t.power = .recovery) ∧
    (Config.firmwareAccepted s.free = true → ∃ t, exec .deviceReset s = .next t ∧
      t.power = .booting ((if s.power = .reset ∨ s.power = .off then s.nv.shock else s.shockAtPower) || s.nv.streq) ∧ t.cyc = 0 ∧
      t.ctxs = [] ∧ t.launches = [] ∧ t.sessions = [] ∧ t.mask = s.nv.mask ∧ t.epoch = s.nv.epoch ∧ t.podid = s.nv.podid ∧
      t.held = s.held) ∧
    (∀ full, s.power = .booting full → ∃ t, exec (.selfTestComplete [] false) s = .next t ∧ t.power = .running ∧
      t.stpass = true ∧ t.held = false ∧ t.pkgid = s.pkgidNew) ∧
    (∀ full, s.power = .booting full → ∃ t, exec (.selfTestComplete [] true) s = .next t ∧ t.power = .running ∧
      t.stpass = false ∧ t.held = true) ∧
    (exec .shockSensorLatch s = .next { s with nv := { s.nv with shock := true } }) ∧
    (s.power ≠ .off → exec .tamperAlarm s = .next (alarm s (alarmPolicy 2))) ∧
    (s.power ≠ .off → exec .glitchAlarm s = .next (alarm s (alarmPolicy 4))) ∧
    (∀ t, s.power ≠ .off → alarmPolicy 2 = 3 → exec .tamperAlarm s = .next t →
      t.sessions = [] ∧ t.owner = none ∧ t.nv.attKey = false ∧
      ∀ a, paPkg a = t.pkgid → inHBM (paLocal a) = true → memByte t a = 0)

namespace Sys2Proof.Machine.Claim

/-! ### Encoding -/

/-- Fields all zero. -/
def zeroFields : Fields := { stall := 0, gp := 0, gn := false, d := 0, a := 0, b := 0, fs := 0, sp := false, st := 0, wm := 0,
                             c := 0, y := false, imm := 0 }

/-- Stored bytes that the spec prints beside the instruction they encode, and the instruction. -/
def specWords : List (List Byte × Instr) :=
  let z := zeroFields
  [([0, 0, 0, 0], .nop z),
   ([0x09, 0xC0, 0xC0, 0x40, 0x80, 0], .iadd { z with stall := 3, d := 3, a := 1, b := 2 }),
   ([0x0A, 0xC0, 0xC0, 0x40, 0x80, 0, 2, 0], .iadd { z with stall := 3, d := 3, a := 1, b := 2, sp := true }),
   ([0x42, 0x4C, 0x01, 0x41, 0x81, 0x41, 0x2A, 0x38],
    .ffma { z with stall := 5, d := 4, a := 5, b := 6, fs := 1, sp := true, st := 2, wm := 1, c := 7 }),
   ([0x0B, 0x20, 0x40, 0x1C, 0xC1, 0x3F, 0, 0, 0x40, 0x06, 0, 0x02],
    .icmp { z with d := 0x71, a := 4, b := 255, imm := 0x200064 }),
   ([0x82, 0, 0, 0x81, 0, 0, 0x04, 0], .ld { z with d := 4, a := 2, st := 1 }),
   ([0x83, 0, 0, 0x81, 0, 0, 0x04, 0, 0, 0x04, 0, 0], .ld { z with d := 4, a := 2, st := 1, imm := 0x40 }),
   ([0x83, 0x04, 0, 0, 0x11, 0x01, 0, 0, 0, 0xFF, 0x0F, 0], .st { z with a := 0x44, b := 4, imm := 0xFFF0 }),
   ([0x82, 0x0C, 0, 0x82, 0x10, 0x81, 0x0A, 0], .ldpk { z with d := 8, a := 0x42, b := 4, fs := 2, sp := true, st := 2 }),
   ([0xE1, 0x0C, 0x80, 0x1E, 0x41, 0x01], .reverse { z with d := 0x7A, a := 4, b := 5 }),
   ([0xF0, 0x10, 0, 0x02], .cycrd { z with d := 8 }),
   ([0xC7, 0, 0x40, 0x1E, 0, 0, 0, 0, 0, 0, 0x25, 0x01], .tmma { z with d := 0x79, imm := 0x125000 }),
   ([0xC7, 0x04, 0x40, 0x1E, 0, 0, 0x14, 0, 0x80, 0, 0x10, 0x20], .tmmab { z with d := 0x79, st := 5, imm := 0x2010008 }),
   ([0xC7, 0x08, 0x80, 0x1E, 0, 0, 0x14, 0, 0x10, 0, 0, 0x32], .tact { z with d := 0x7A, st := 5, imm := 0x3200001 }),
   ([0xC7, 0x2C, 0x80, 0x5F, 0x12, 0, 0x18, 0, 0x70, 0, 0, 0x65],
    .tdrain { z with d := 0x7E, a := 0x49, st := 6, imm := 0x6500007 }),
   ([0x04, 0x0C, 0, 0], .rjwait z),
   ([0x4F, 0xC4, 0x41, 0x46, 0x41, 0x30, 0, 0, 0, 0, 0, 0x61],
    .shfl { z with stall := 7, d := 0x19, a := 5, b := 0xC1, imm := 0x6100000 }),
   ([0x8B, 0, 0xC0, 0x01, 0x11, 0x01, 0x08, 0, 0, 0, 0, 0x10], .atom { z with d := 7, a := 0x44, b := 4, st := 2, imm := 0x1000000 }),
   ([0x8F, 0x20, 0x10, 0, 0x30, 0x12, 0, 0x90, 0x02, 0, 0x40, 0x05],
    .rrmodeRec { z with gp := 4, a := 0xC0, b := 0x48, c := 0x52, imm := 0x540000 }),
   ([0xF1, 0x18, 0, 0, 0x91, 0x11], .tlbi { z with a := 0x44, b := 0x46 }),
   ([0xF7, 0, 0x88, 0x40, 0, 0, 0x0C, 0, 0, 0, 0, 0x80],
    .scango { z with gp := 2, d := 2, a := 1, st := 3, imm := 0x8000000 }),
   ([0xF3, 0, 0, 0, 0, 0, 0, 0, 0x10, 0x05, 0, 0], .trap { z with imm := 0x51 })]

end Sys2Proof.Machine.Claim

/-- Decoding and encoding agree (R186, R190, R200): every instruction that has a word and whose distinguishing sub-field is
its row's stands in stored bytes from which it is read again, with their length, whatever follows them; every canonical word
that decodes is the word of what it decodes to; and an event of the device has no word. -/
def Obligations.EncodingAndDecodingAgree : Prop :=
  (∀ i : Instr, opFn i ≠ none → i.rowOk = true →
    ∃ bs, encode i = some bs ∧ bs.length ∈ [4, 6, 8, 12] ∧ ∀ rest, decodeBytes (bs ++ rest) = .ok (i, bs.length)) ∧
  (∀ (w : CWord) (i : Instr), w.toNat < 2 ^ 94 → decodeWord w = .ok i →
    encodeWord i = some w ∧ opFn i = some (wordOp w, wordFn w) ∧ i.fields = some (fieldsOf w)) ∧
  (∀ i : Instr, opFn i = none → encode i = none ∧ ∀ w, decodeWord w ≠ .ok i)

/-- Stored forms (R190): the code and the carried bits stand in the little-endian number; every form that carries the nonzero
bits of a word is read as that word, so that all of them decode alike; the bits above those carried are zero; what needs 8
and what needs 12 bytes. -/
def Obligations.StoredForms : Prop :=
  (∀ (w : CWord) (code : Nat) (rest : List Byte), code < 4 → w.toNat < 2 ^ (8 * formLength code - 2) →
    let bs := toLE (formLength code) (w.toNat * 4 + code)
    bs.length = formLength code ∧ ofLE bs % 4 = code ∧ ofLE bs / 4 = w.toNat ∧
    expandForm (bs ++ rest) = some (w, formLength code) ∧
    decodeBytes (bs ++ rest) = (decodeWord w).map (fun i => (i, formLength code)) ∧
    ((fieldsOf w).sp = true ∨ (fieldsOf w).st ≠ 0 ∨ (fieldsOf w).wm ≠ 0 ∨ 4 ≤ (fieldsOf w).fs.toNat → 8 ≤ bs.length) ∧
    ((fieldsOf w).imm ≠ 0 ∨ (fieldsOf w).y = true ∨ 31 < (fieldsOf w).c.toNat → bs.length = 12)) ∧
  (∀ (b : Byte) (bs : List Byte) (w : CWord) (n : Nat), expandForm (b :: bs) = some (w, n) →
    n = [4, 6, 8, 12].getD (b.toNat % 4) 0 ∧ n ≤ (b :: bs).length ∧ w.toNat = ofLE ((b :: bs).take n) / 4 ∧
    w.toNat < 2 ^ (8 * n - 2))

/-- The words that the spec works out decode to the instructions it gives for them, and are what the encoder writes in the
shortest form; OP 0x06 is reserved (R459, R448). -/
def Obligations.SpecWordsDecode : Prop :=
  (∀ e ∈ Claim.specWords, decodeBytes e.1 = .ok (e.2, e.1.length) ∧ encode e.2 = some e.1) ∧
  decodeBytes [0x18, 0x00, 0xC0, 0x40] = .error (.reservedOpFn 6 0)

namespace Sys2Proof.Machine.Claim

/-- The package runs, nothing from outside and nothing of its own is due, and `r` is the warp and entry that goes first. -/
def atIssue (s : State) (r : Ready) : Prop :=
  s.power = .running ∧ nextOutside s = none ∧ due s = none ∧ dueCollective s = none ∧ pick s = some r

/-- The entry of `r` is `x`'s, its bundle `l` is in the instruction cache, fetched without a fault and free of poison. -/
def fetched (s : State) (r : Ready) (x : Warp) (l : ICLine) : Prop :=
  todo s r.wg r.warp x r.entry = some r.todo ∧
  icLine s (s.getWg r.wg).core (s.wgAsid r.wg) r.entry.pc.toNat x.modeS = some l ∧ l.fault = 0 ∧ l.poison = false

end Sys2Proof.Machine.Claim

/-- A step runs the decoded instruction (R39, R42, R191, R192, R402, R448).  The warp that goes first has the entry in its
table; where the bytes at the entry's PC, the start of a form of a well-formed bundle, decode to `i` and the entry does not
stop there, the step is `exec i` with the partition's other warps passed over, the next PC that of the following form or of the
next bundle, and the partition then has issued; a word of a reserved OP and FN traps with CAUSE 0x0101; a word of QPF code
issues what it means; an absent bundle is filled.  One warp with one entry that is ready, with no trap to take first, is the one that goes. -/
def Obligations.StepRunsDecoded : Prop :=
  (∀ (s : State) (r : Ready), Claim.atIssue s r →
    (∃ x, (warpKey r.wg r.warp, x) ∈ s.warps ∧ r.entry ∈ x.table ∧ todo s r.wg r.warp x r.entry = some r.todo) ∧
    (∀ (x : Warp) (l : ICLine) (fs : List Nat), Claim.fetched s r x l → runsQpf s r.wg x.modeS = false →
      bundleForms l.bytes = some fs → r.entry.pc.toNat % 64 ∈ fs →
      let pc := r.entry.pc.toNat
      (∀ i n f, decodeBytes (l.bytes.drop (pc % 64)) = .ok (i, n) → i.fields = some f → stopsHere x r.entry f.sp = false →
        step s = afterIssue r (exec i (cursorAt (passOver s r) r (nextInBundle l.bytes (pc / 64 * 64) (pc % 64)) (pc / 64 * 64)))) ∧
      (∀ w n op fn, expandForm (l.bytes.drop (pc % 64)) = some (w, n) → decodeWord w = .error (.reservedOpFn op fn) →
        stopsHere x r.entry (fieldsOf w).sp = false →
        ∃ m, step s = .next (served (trapEntry s r { cls := 1, reason := 1, info := op + fn * 2 ^ 8, fmask := m } m false) r))) ∧
    (∀ (x : Warp) (l : ICLine) (i : Instr), Claim.fetched s r x l → runsQpf s r.wg x.modeS = true →
      (r.entry.pc.toNat - (sectionOf s r.wg x.modeS).1) % 16 = 0 →
      stopsHere x r.entry (isBackTarget s r.wg (r.entry.pc.toNat - (sectionOf s r.wg x.modeS).1)) = false →
      (qpfForm (l.bytes.drop (r.entry.pc.toNat % 64))).instr = some i →
      (qpfForm (l.bytes.drop (r.entry.pc.toNat % 64))).fails = [] →
      step s = afterIssue r (exec i (cursorAt (passOver s r) r (r.entry.pc.toNat + 16) r.entry.pc.toNat))) ∧
    (∀ (x : Warp), todo s r.wg r.warp x r.entry = some r.todo →
      icLine s (s.getWg r.wg).core (s.wgAsid r.wg) r.entry.pc.toNat x.modeS = none →
      step s = exec (.icacheFill (s.getWg r.wg).core (s.wgAsid r.wg) r.entry.pc.toNat) s)) ∧
  (∀ (s : State) (wg w : Nat) (x : Warp) (e : Entry) (t : Todo), w < 32 → s.warps = [(warpKey wg w, x)] → x.table = [e] →
    (s.getWg wg).alive = true → (s.getWg wg).det.held = false → partOf s wg x ∉ s.served →
    nextReport x (fun _ => true) = none → todo s wg w x e = some t →
    ∃ r, pick s = some r ∧ r.wg = wg ∧ r.warp = w ∧ r.entry = e ∧ r.todo = t)

/-- No run stops of itself: every instruction and every event answers a next state in every state, and a step ends in a fault
only without supply or with a refused image while nothing but a device reset or the shock sensor could come (R508, R522). -/
def Obligations.EveryStepGoesOn : Prop :=
  (∀ (i : Instr) (s : State), ∃ t, exec i s = .next t) ∧
  (∀ s : State, s.power ≠ .off → s.power ≠ .recovery → ∃ t, step s = .next t) ∧
  (∀ s : State, s.power = .off →
    step s = (match s.agenda with
      | .deviceReset :: _ => exec .deviceReset { s with agenda := s.agenda.tail }
      | .shockSensorLatch :: _ => exec .shockSensorLatch { s with agenda := s.agenda.tail }
      | _ => .fault .unpowered)) ∧
  (∀ s : State, s.power = .recovery → s.agenda = [] → step s = .fault .firmwareRefused) ∧
  (∀ s : State, s.power = .reset → step s = exec .deviceReset s)

namespace Sys2Proof.Machine.Claim

/-- The level a thread runs at (R348): P, S, or M in mode S of a launch with the maintenance right. -/
def level (c : Iss) : Nat := if c.maint then 2 else if c.warp.modeS then 1 else 0

/-- The trap of the issuing entry, and what a rejoin deadlock that it leaves then does (R458). -/
def trapsWith (s : State) (i : Instr) (c : Iss) (t : Trap) : Prop :=
  exec i s = .next (settleDeadlock (takeTrap s c.wg c.w c.entry.pc c.amask c.entry.pc.toNat t false) c.wg c.w)

end Sys2Proof.Machine.Claim

/-- The checks that every instruction passes before its own part (R348, R443, R445, R448, R451, R479, R480), for all
instructions alike, once the results that the entry still waits for have come.  ST = 7 is a reserved encoding, class 0x01
reason 0x02; then a required level above the thread's traps with class 0x02; then the first failing encoding check, with its
reason and field, a literal with bits above its slot's width among those of reason 0x05 (R189); all of these whether or not a
lane is active, and with no other effect than the trap.  With no active lane and these checks passed, the instruction only
moves on.  A declared count exceeded, a stall error and a poisoned source trap in this order. -/
def Obligations.CommonChecks : Prop :=
  ∀ (s : State) (i : Instr) (c : Iss), issuing s i = some c → c.warp.owes = false →
    (c.f.st = 7 → shape i ≠ none → ∃ t, t.cause = 0x0102 ∧ t.fmask = c.amask ∧ t.info = c.op + c.fn * 2 ^ 8 + 7 * 2 ^ 12 + 7 * 2 ^ 16 ∧
      Claim.trapsWith s i c t) ∧
    (c.f.st ≠ 7 → Claim.level c < privLevel i → ∃ t, t.cls = 2 ∧ t.info = c.op + c.fn * 2 ^ 8 ∧ t.fmask = c.amask ∧
      (t.reason = 1 ∨ t.reason = 2) ∧ Claim.trapsWith s i c t) ∧
    (∀ reason fld, c.f.st ≠ 7 → privLevel i ≤ Claim.level c → encodingFail c i = some (reason, fld) →
      Claim.trapsWith s i c (c.illegal ⟨reason, fld, fieldValue c.f fld, c.amask⟩)) ∧
    (WellFormed i → encodingFail c i = if litBad c i then some (5, .imm) else none) ∧
    (litBad c i = false → encodingFail c i = encodingFailure i) ∧
    (∀ x, encodingFail c i = none → privLevel i ≤ Claim.level c → declFail c i = some x → Claim.trapsWith s i c (c.illegal x)) ∧
    (encodingFail c i = none → privLevel i ≤ Claim.level c → declFail c i = none →
      (c.act = [] → ∃ flagged draws, exec i s = .next (issued c i flagged { s := s, draws := draws })) ∧
      (c.act ≠ [] → ∀ t, stallTrap c i = some t → Claim.trapsWith s i c t) ∧
      (c.act ≠ [] → stallTrap c i = none → ∀ t, poisonTrap c i = some t → Claim.trapsWith s i c t))

/-- Taking a trap (R351, R398, R430, R433).  In mode P with a supervisor installed: the frame has been written at TFBASE, the
warp enters mode S with TCAUSE the cause, the entry's lanes are the table's only entry, at TVEC + 4, every other entry stands
aside unchanged, and no register, flag, rejoin set, stream or hold is changed beside what the operations under way that wait for
nothing wrote; other warps and the mode of no other warp change.  In mode S, or when the frame cannot be written, it is a double
fault: no frame, and the workgroup ends with a record of the second trap's class and reason and DETAIL 0xFFFF.  Without a
supervisor the workgroup ends with DETAIL 0xFFFD.  The frame is 2,304 bytes, laid out as R430 gives. -/
def Obligations.TrapEntry : Prop :=
  ∀ (s : State) (wg w : Nat) (pc : Va) (amask : LaneSet) (rpc : Nat) (t : Trap) (held : Bool) (e : Entry),
    (t.cls = 6 → t.reason ≠ 3) →
    let s0 := s.modWarp wg w Warp.flush
    let x := s0.getWarp wg w
    let u := takeTrap s wg w pc amask rpc t held
    let fr := frameBytes s0 wg w t e.mask amask rpc held
    x.entryAt pc = some e →
    (x.modeS = true → u = endWorkgroup s0 wg { wgErr s0 wg t.cls t.reason 2 2 with addr := pc.toNat, detail := 0xFFFF }) ∧
    (x.modeS = false → (s0.getCtx (s0.wgCtx wg)).tvec = none →
      u = endWorkgroup s0 wg { wgErr s0 wg t.cls t.reason 2 2 with addr := pc.toNat, detail := 0xFFFD }) ∧
    (x.modeS = false → (s0.getCtx (s0.wgCtx wg)).tvec ≠ none → superWrite s0 wg x.tfbase fr = .fault →
      u = endWorkgroup s0 wg { wgErr s0 wg t.cls t.reason 2 2 with addr := pc.toNat, detail := 0xFFFF }) ∧
    (∀ v, x.modeS = false → (s0.getCtx (s0.wgCtx wg)).tvec ≠ none → superWrite s0 wg x.tfbase fr = .instead v → u = v) ∧
    (∀ tvec s1, x.modeS = false → (s0.getCtx (s0.wgCtx wg)).tvec = some tvec → superWrite s0 wg x.tfbase fr = .done s1 →
      poisonedSlots x e.mask = [] →
      let z := s1.getWarp wg w
      let y := u.getWarp wg w
      y.modeS = true ∧ y.tcause = BitVec.ofNat 32 (t.reason + 256 * t.cls) ∧ y.trapLanes = e.mask ∧
      y.table = [{ Entry.fresh (BitVec.ofNat 80 (tvec + 4)) e.mask with stall := 1 }] ∧
      y.aside = z.table.filter (fun b => b.pc ≠ pc) ∧ y.reports = z.reports.map (fun r => { r with held := true }) ∧
      y.v = z.v ∧ y.k = z.k ∧ y.p = z.p ∧ y.h = z.h ∧ y.j = z.j ∧ y.s = z.s ∧ y.chain = z.chain ∧ y.flags = z.flags ∧ y.wcr = z.wcr ∧
      y.tokens = z.tokens ∧ y.yp = z.yp ∧ y.part = z.part ∧
      (∀ l, (y.lane l).hold = (z.lane l).hold ∧ (y.lane l).fp = (z.lane l).fp ∧ (y.lane l).depth = (z.lane l).depth) ∧
      (∀ wg' w', warpKey wg' w' ≠ warpKey wg w → u.getWarp wg' w' = s1.getWarp wg' w') ∧
      u.mem = s1.mem ∧ u.cores = s1.cores ∧ u.ctxs = s1.ctxs ∧ u.wgs = s1.wgs ∧ u.engs = s1.engs) ∧
    fr.length = 2304 ∧ leAt fr 0 4 = t.cause % 2 ^ 32 ∧ leAt fr 4 4 = b2n x.yp + 2 * b2n held ∧ leAt fr 8 8 = t.info % 2 ^ 64 ∧
    leAt fr 0x10 10 = rpc % 2 ^ 80 ∧ leAt fr 0x1A 6 = 0 ∧ leAt fr 0x20 4 = e.mask.toNat ∧ leAt fr 0x24 4 = amask.toNat ∧
    leAt fr 0x28 4 = readWcr s0 wg w % 2 ^ 32 ∧ leAt fr 0x2C 4 = t.fmask.toNat ∧ leAt fr 0x30 8 = t.info2 % 2 ^ 64 ∧
    leAt fr 0x38 8 = s0.sample (coreDie (s0.getWg wg).core) % 2 ^ 64 ∧ (∀ i, i < 8 → leAt fr (0x40 + 4 * i) 4 = (x.getK i).toNat) ∧
    (∀ l n, l < 32 → 1 ≤ n → n < 8 → bitB (leAt fr (0x60 + l) 1) n = x.getP l n) ∧ (∀ l, l < 32 → leAt fr (0x60 + l) 1 % 2 = 0) ∧
    leAt fr 0x80 128 = 0 ∧
    (∀ r l, r < 16 → l < 32 → leAt fr (0x100 + 128 * r + 4 * l) 4 = if e.mask.getLsbD l then (x.getV l (x.pos l r)).toNat else 0)

/-- What an issue changes, and what it leaves (R39, R42, R88, R195, R196, R277): with no deadlock of rejoin sets, the state is
that of the instruction's own effects, but for its warp, the count of free values, and LR holds that end.  Memory, caches,
translations, contexts, launches, workgroups, engines, records and every other warp are as the instruction's own effects left
them.  In the warp, registers, predicates, handles, flags, sets, streams, mode and trap registers are not changed by the issue:
what it writes is under way, one operation at the end of the list, which holds the token of ST and, at a fixed latency, is due
Lat cycles later, two more for a k destination.  The entry's lanes stand at the next PC, with STALL + 1 cycles to go, unless the
instruction moves them; a lane that it parks keeps those cycles too. -/
def Obligations.IssueFrame : Prop :=
  ∀ (c : Iss) (i : Instr) (flagged : Bool) (o : Out),
    let t := issued c i flagged o
    let x := o.s.getWarp c.wg c.w
    let y := t.getWarp c.wg c.w
    let pending : Prop := o.writes ≠ [] ∨ c.f.st ≠ 0 ∨ o.flags ≠ 0 ∨ o.awaits ≠ 0
    rejoinDeadlock ((commit c i { flagged := flagged, run := fun _ => .wait } o).getWarp c.wg c.w) = false →
    (∃ ws free holds, t = { o.s with warps := ws, free := free, holdsLR := holds } ∧ (∀ h ∈ holds, h ∈ o.s.holdsLR) ∧
      (latOf i ≠ none → free = o.s.free)) ∧
    (∀ a, memByte t a = memByte o.s a) ∧ (∀ p a, l1Peek t p a = l1Peek o.s p a) ∧
    (∀ wg w, warpKey wg w ≠ warpKey c.wg c.w → t.getWarp wg w = o.s.getWarp wg w) ∧
    y.v = x.v ∧ y.k = x.k ∧ y.p = x.p ∧ y.h = x.h ∧ y.poison = x.poison ∧ y.j = x.j ∧ y.s = x.s ∧ y.chain = x.chain ∧
    y.part = x.part ∧ y.flags = x.flags ∧ y.wcr = x.wcr ∧ y.modeS = x.modeS ∧ y.tcause = x.tcause ∧ y.tfbase = x.tfbase ∧
    y.spbase = x.spbase ∧ y.trapLanes = x.trapLanes ∧ y.aside = x.aside ∧ y.reports = x.reports ∧ y.yp = x.yp ∧
    y.lastIssue = c.s.now ∧ y.skip = c.f.y ∧
    (∃ b, b = issueWb c i o x ∧ (pending → y.pend = x.pend ++ [b]) ∧ (y.pend = x.pend ∨ y.pend = x.pend ++ [b]) ∧
      b.token = c.f.st.toNat ∧ b.lanes = c.amask ∧ b.flags = BitVec.ofNat 5 o.flags ∧ b.issued = c.s.now ∧
      (c.strm = [] → b.writes = o.writes) ∧
      (∀ n, latOf i = some n → b.isVar = false ∧ b.due = c.s.now + n) ∧
      (∀ n, fixedLat i = some n → namesStream i = false →
        latOf i = some (if (usedFields i).any (fun e => e.1 = .d && isK e.2.1) then n + 2 else n))) ∧
    (pending → ∀ n, y.token n = x.token n + (if n = c.f.st.toNat ∧ n ≠ 0 then 1 else 0)) ∧
    (∀ l, (y.lane l).resv = (x.lane l).resv ∧ (y.lane l).fp = (x.lane l).fp ∧ (y.lane l).depth = (x.lane l).depth ∧
      (y.lane l).rb = (x.lane l).rb ∧
      (y.lane l).hold = if (l, none) ∈ o.moves then (x.lane l).hold.map (fun h => { h with stall := c.f.stall.toNat + 1 })
        else (x.lane l).hold) ∧
    (o.moves = [] → c.entry.mask ≠ 0 → ∃ e ∈ y.table, e.pc.toNat = c.cur.npc.toNat ∧ e.mask &&& c.entry.mask = c.entry.mask ∧
      c.f.stall.toNat + 1 ≤ e.stall)

/-- An operation under way completes (R82, R88, R114, R196): of a register that only one of its writes names, that write's value
is then read; a register that none names is as before; the token of ST counts one less, the flags are ORed in, and nothing else
of the warp changes but what waits for it.  At the end of a cycle every operation of fixed latency that is due has completed and
every other stays under way, stall counts have fallen by one, and the cycle counter has advanced by one (R16, R40, R195).
A sample of the counter on a die is within 2 counts of it, no less than an earlier one of that die, and no less than an earlier
one of another die minus 4 (R16). -/
def Obligations.OperationsComplete : Prop :=
  (∀ (x : Warp) (b : Writeback),
    let y := x.complete b
    (∀ n v, .k n (some v) ∈ b.writes → (∀ v', RegWrite.k n v' ∈ b.writes → v' = some v) → y.getK n = v) ∧
    (∀ n, (∀ v, RegWrite.k n v ∉ b.writes) → y.getK n = x.getK n) ∧
    (∀ l p v, .v l p (some v) ∈ b.writes → (∀ l' p' v', RegWrite.v l' p' v' ∈ b.writes → vKey p' l' = vKey p l → v' = some v) →
      y.getV l p = v) ∧
    (∀ l p, (∀ l' p' v, RegWrite.v l' p' v ∈ b.writes → vKey p' l' ≠ vKey p l) → y.getV l p = x.getV l p) ∧
    (∀ l n, (∀ l' n' v, RegWrite.h l' n' v ∈ b.writes → 32 * n' + l' ≠ 32 * n + l) → y.getH l n = x.getH l n) ∧
    (∀ l n v, .h l n (some v) ∈ b.writes → (∀ l' n' v', RegWrite.h l' n' v' ∈ b.writes → 32 * n' + l' = 32 * n + l → v' = some v) →
      y.getH l n = v) ∧
    (∀ l n v, l < 32 → n ≠ 0 → .p l n v ∈ b.writes → (∀ v', RegWrite.p l n v' ∈ b.writes → v' = v) → y.getP l n = v) ∧
    (∀ l n, (∀ v, RegWrite.p l n v ∉ b.writes) → y.getP l n = x.getP l n) ∧
    (∀ l, y.getP l 0 = true) ∧
    (∀ n, y.token n = if n = b.token ∧ n ≠ 0 then x.token n - 1 else x.token n) ∧
    y.flags = x.flags ||| b.flags ∧ y.pend = x.pend.filter (fun a => a.idx ≠ b.idx) ∧
    y.j = x.j ∧ y.s = x.s ∧ y.chain = x.chain ∧ y.part = x.part ∧ y.wcr = x.wcr ∧ y.lanes = x.lanes ∧ y.modeS = x.modeS ∧
    y.tcause = x.tcause ∧ y.tfbase = x.tfbase ∧ y.yp = x.yp ∧
    y.table.map (fun e => (e.pc, e.mask, e.stall, e.fair)) = x.table.map (fun e => (e.pc, e.mask, e.stall, e.fair)) ∧
    (b.flagLanes = 0 → y.reports = x.reports) ∧
    (b.flagLanes ≠ 0 → ∃ r, y.reports = x.reports ++ [r] ∧ r.cause = 0x0801 ∧ r.fmask = b.flagLanes)) ∧
  (∀ (x : Warp) (now : Nat) (down : Bool) (b : Writeback), b ∈ x.pend →
    (b.isVar = false → b.due ≤ now → b.awaits = 0 → b ∉ (x.tick now down).pend) ∧
    ((∀ a ∈ x.pend, a.idx = b.idx → a = b) → (b.isVar = true ∨ now < b.due ∨ b.awaits ≠ 0) → b ∈ (x.tick now down).pend)) ∧
  (∀ (x : Warp) (now : Nat) (down : Bool),
    (x.tick now down).table.map (fun e => (e.pc, e.mask, e.stall)) = x.table.map (fun e => (e.pc, e.mask, e.stall - 1))) ∧
  (∀ (g : Wg), (g.fmtNext = [] → g.amrNext = none → g.tick = g) ∧
    (∀ n x, g.fmtNext = [(n, x)] → g.amrNext = none → g.tick = { g with fmt := g.fmt.put n x, fmtNext := [] }) ∧
    (∀ x, g.fmtNext = [] → g.amrNext = some x → g.tick = { g with amr := x, amrNext := none })) ∧
  (∀ s : State, s.power = .running → nextOutside s = none → due s = none → dueCollective s = none → pick s = none →
    step s = .next (tick s) ∧ ((∀ y ∈ s.warps, y.2.chain = none) → (tick s).cyc = s.cyc + 1 ∧ (tick s).mem = s.mem ∧
      (tick s).cores = s.cores ∧ (tick s).wgs = s.wgs.map (fun y => (y.1, y.2.tick)) ∧ (tick s).engs = s.engs ∧
      ∀ wg w, w < 32 → s.warps.find? (warpKey wg w) ≠ none → (tick s).getWarp wg w =
        (s.getWarp wg w).tick (s.cyc + 1).toNat (remoteDown s (s.getWg wg).core))) ∧
  (∀ (s : State) (d : Nat), s.cyc.toNat ≤ s.sample d + 2 ∧ s.sample d ≤ s.cyc.toNat + 2 ∧
    (∀ (t : State) (e : Nat), s.cyc.toNat ≤ t.cyc.toNat → s.sample d ≤ t.sample e + 4 ∧ s.sample d ≤ t.sample d))

/-- Memory (R4, R136, R139, R140, R155): a write at the owning L2 is what is then read there, every other byte of memory reads
as before, and a canonical memory stays canonical; a wipe keeps it canonical too.  A weak store
to a line that its core holds, or that it allocates with room made in the line's set, is what the core then reads, byte by byte
under its masks, and changes no byte that another core or the L2 reads; a set that is not full has room as it stands.  Reset memory is
canonical and reads zero everywhere, which is the model's choice (log entry 1). -/
def Obligations.MemoryBytes : Prop :=
  (∀ (s : State) (pa : Nat) (bs : List Byte), bs ≠ [] →
    (∀ k, k < bs.length → ownHub s (pa + k) = false) →
    (∀ a, ownHub s a = false →
      memByte (l2Write s pa bs) a = if pa ≤ a ∧ a < pa + bs.length then bs.getD (a - pa) 0 else memByte s a) ∧
    (∀ p a, ((s.getCore p).l1.find? a) = none → ownHub s a = false →
      l1Peek (l2Write s pa bs) p a = if pa ≤ a ∧ a < pa + bs.length then bs.getD (a - pa) 0 else l1Peek s p a) ∧
    (l2Write s pa bs).cores = s.cores ∧ (l2Write s pa bs).engs = s.engs ∧ (l2Write s pa bs).ctxs = s.ctxs ∧
    (Memory.wf s.mem = true → Memory.wf (l2Write s pa bs).mem = true)) ∧
  (∀ s : State, Memory.wf s.mem = true → Memory.wf (wipeMemory s).mem = true) ∧
  (∀ (s u : State) (p pa hint asid va : Nat) (bs : List (Byte × Byte)),
    (l1Present (s.getCore p) pa = true ∧ u = s) ∨
      (l1Present (s.getCore p) pa = false ∧ hintAllocates hint 0 = true ∧ l1Room s p (pa / 128) = some u) →
    let t := l1Store s p pa bs hint 0 asid va
    (∀ k x m, bs[k]? = some (x, m) →
      l1Peek t p (pa + k) = (x &&& m) ||| (l1Peek u p (pa + k) &&& ~~~m)) ∧
    (∀ a, (a < pa ∨ pa + bs.length ≤ a) → l1Peek t p a = l1Peek u p a) ∧
    (∀ q a, q ≠ p → l1Peek t q a = l1Peek u q a) ∧ (∀ a, memByte t a = memByte u a) ∧ t.mem = u.mem) ∧
  (∀ (s : State) (p line : Nat), ((s.getCore p).setOf line).length < (s.getCore p).ways → l1Room s p line = some s) ∧
  Memory.wf State.reset.mem = true ∧ (∀ a, paPkg a ≠ 0 ∨ inHub (paLocal a) = false → memByte State.reset a = 0)

/-- Reset (R16, R386, R508, R516, R522): the cycle counter is 0; nothing runs, no context, launch, session or queue exists; and
the first step is the device reset of the boot ROM, after which, with a good image, the self-test runs and cyc is 0. -/
def Obligations.ResetState : Prop :=
  State.reset.cyc = 0 ∧ State.reset.power = .reset ∧ State.reset.ctxs = [] ∧ State.reset.launches = [] ∧ State.reset.wgs = [] ∧
  State.reset.warps = [] ∧ State.reset.sessions = [] ∧ State.reset.owner = none ∧ State.reset.mem = [] ∧
  Memory.wf State.reset.mem = true ∧ State.reset.engs = [] ∧
  step State.reset = exec .deviceReset State.reset ∧
  (∀ s : State, s.power = .reset → Config.firmwareAccepted s.free = true →
    ∃ t, step s = .next t ∧ t.power = .booting (s.nv.shock || s.nv.streq) ∧ t.cyc = 0 ∧ t.ctxs = [] ∧ t.launches = [] ∧ t.wgs = [] ∧ t.warps = [] ∧
      t.sessions = [] ∧ t.owner = none ∧ t.nv.podid = s.nv.podid ∧ t.mask = s.nv.mask)

namespace Sys2Proof.Machine.Claim

/-- Bit `j` of an operand extended without bound (R221): its sign bit when U = 0, zeros when U = 1. -/
def extBit (w : Nat) (u : Bool) (a j : Nat) : Bool := if j < w then a.testBit j else !u && a.testBit (w - 1)

end Sys2Proof.Machine.Claim

/-- The number forms of integer results, and the field instructions (R210, R214, R221).  A result written without SAT is the exact
integer modulo 2^w, with SAT the exact integer clamped into the range of U.  ISAT clamps into a field of n[6:0] bits.  BFE reads
the bits [p+k-1 : p] of its operand extended without bound, extended in turn from bit k-1; BFI replaces the bits p+i, i < k, that
lie below w; what they and ISAT land in D is that. -/
def Obligations.IntegerFormsAndFields : Prop :=
  (∀ (w : Nat) (u : Bool) (x : Int), w = 32 ∨ w = 64 →
    let lo : Int := if u then 0 else -2 ^ (w - 1)
    let hi : Int := if u then 2 ^ w - 1 else 2 ^ (w - 1) - 1
    writeInt w u false x < 2 ^ w ∧ ((writeInt w u false x : Nat) : Int) = x % 2 ^ w ∧ writeInt w u true x < 2 ^ w ∧
    readInt w u (writeInt w u true x) = if x < lo then lo else if hi < x then hi else x) ∧
  (∀ (w : Nat) (u : Bool) (a n : Nat), w = 32 ∨ w = 64 → a < 2 ^ w →
    let k := n % 2 ^ 7
    let x := readInt w u a
    let lo : Int := if u then 0 else -2 ^ (k - 1)
    let hi : Int := if u then 2 ^ k - 1 else 2 ^ (k - 1) - 1
    (k = 0 → isatVal w u a n = 0) ∧ (w ≤ k → isatVal w u a n = a) ∧
    (1 ≤ k → k < w → isatVal w u a n < 2 ^ w ∧ readInt w u (isatVal w u a n) = if x < lo then lo else if hi < x then hi else x)) ∧
  (∀ (w : Nat) (u : Bool) (a t fd j : Nat), w = 32 ∨ w = 64 → a < 2 ^ w → t < 2 ^ w → j < w →
    let p := fd % 2 ^ 8
    let k := min (fd / 2 ^ 8 % 2 ^ 8) w
    bfeVal w u a fd < 2 ^ w ∧ bfiVal w a fd t < 2 ^ w ∧
    (bfeVal w u a fd).testBit j =
      (if k = 0 then false else if j < k then Claim.extBit w u a (p + j) else !u && Claim.extBit w u a (p + k - 1)) ∧
    (bfiVal w a fd t).testBit j = (if p ≤ j ∧ j < p + k then a.testBit (j - p) else t.testBit j)) ∧
  (∀ (s : State) (f : Fields) (c0 c1 c : Iss),
    (Issues s (.isat f) c0 c1 c →
      Lands s c (.isat f) false { s := c.s } c.f.mW (c.act.map (fun l => (l, isatVal c.width c.f.mU (c.a c.f.mW l) (c.b false l))))) ∧
    (Issues s (.bfe f) c0 c1 c →
      Lands s c (.bfe f) false { s := c.s } c.f.mW (c.act.map (fun l => (l, bfeVal c.width c.f.mU (c.a c.f.mW l) (c.b false l))))) ∧
    (Issues s (.bfi f) c0 c1 c →
      Lands s c (.bfi f) false { s := c.s } c.f.mW
        (c.act.map (fun l => (l, bfiVal c.width (c.a c.f.mW l) (c.b false l) (c.c c.f.mW l))))))

/-- Whatever stands in the state, a step from memory in its canonical form leaves memory in its canonical form: addresses
strictly rising and no entry equal to what an unlisted address reads as.  The form is the model's own (log entry 1 for what an
unlisted address reads as); the writes it speaks of are those of stores, atomics, engines, frames of the host, Kettle firmware,
images and records alike, and of reset and power loss. -/
def Obligations.MemoryStaysCanonical : Prop :=
  ∀ s t : State, Memory.wf s.mem = true → step s = .next t → Memory.wf t.mem = true
end

