-- ==== Sys2Proof/Laws/Sparse.lean ====
section
/-!
SUPPORT. Laws of the canonical finite maps: reading after writing, writing elsewhere, and that every operation keeps
the canonical form.
-/

namespace Sys2Proof.Sparse

variable {α : Type}

@[simp] theorem find?_nil (i : Nat) : find? ([] : Sparse α) i = none := rfl

/-- Reading a key after listing it. -/
@[simp] theorem find?_put_same (m : Sparse α) (i : Nat) (v : α) : find? (put m i v) i = some v := by
  induction m with
  | nil => simp [put, find?]
  | cons e m ih =>
    obtain ⟨k, w⟩ := e
    simp only [put]
    split
    · simp [find?]
    · split
      · simp [find?]
      · rename_i h1 h2
        have : k ≠ i := fun h => h2 h.symm
        simp [find?, this, ih]

/-- An entry that a lookup finds stands in the map. -/
theorem mem_of_find? (m : Sparse α) {i : Nat} {v : α} (h : find? m i = some v) : (i, v) ∈ m := by
  induction m with
  | nil => cases h
  | cons e m ih =>
    obtain ⟨k, u⟩ := e
    simp only [find?] at h
    split at h
    · rename_i hk; cases h; simp [hk]
    · exact List.mem_cons_of_mem _ (ih h)

/-- Listing one key leaves every other. -/
theorem find?_put_other (m : Sparse α) {i j : Nat} (v : α) (h : j ≠ i) : find? (put m i v) j = find? m j := by
  induction m with
  | nil => simp [put, find?, Ne.symm h]
  | cons e m ih =>
    obtain ⟨k, w⟩ := e
    simp only [put]
    split
    · simp [find?, Ne.symm h]
    · split
      · rename_i h1 h2
        subst h2
        simp [find?, Ne.symm h]
      · simp only [find?]
        split <;> simp [ih]

/-- Keys that rise from `n` are above it, so `n` is not listed. -/
theorem find?_of_risesFrom (m : Sparse α) {n i : Nat} (h : risesFrom m n = true) (hi : i ≤ n) : find? m i = none := by
  induction m generalizing n with
  | nil => rfl
  | cons e m ih =>
    obtain ⟨k, w⟩ := e
    simp only [risesFrom, Bool.and_eq_true, decide_eq_true_eq] at h
    have : k ≠ i := by omega
    simp only [find?, this, if_false]
    exact ih h.2 (by omega)

/-- Removing a key leaves every other. -/
theorem find?_del_other (m : Sparse α) {i j : Nat} (h : j ≠ i) : find? (del m i) j = find? m j := by
  induction m with
  | nil => rfl
  | cons e m ih =>
    obtain ⟨k, w⟩ := e
    simp only [del]
    split
    · rename_i hk
      subst hk
      simp [find?, Ne.symm h, ih]
    · simp only [find?]
      split <;> simp [ih]

theorem risesFrom_mono (m : Sparse α) {n n' : Nat} (h : risesFrom m n = true) (hn : n' ≤ n) : risesFrom m n' = true := by
  cases m with
  | nil => rfl
  | cons e m =>
    obtain ⟨k, w⟩ := e
    simp only [risesFrom, Bool.and_eq_true, decide_eq_true_eq] at h ⊢
    exact ⟨by omega, h.2⟩

theorem sorted_of_risesFrom (m : Sparse α) {n : Nat} (h : risesFrom m n = true) : sorted m = true := by
  cases m with
  | nil => rfl
  | cons e m =>
    obtain ⟨k, w⟩ := e
    simp only [risesFrom, Bool.and_eq_true] at h
    exact h.2

/-- A removed key is not listed. -/
@[simp] theorem find?_del_same (m : Sparse α) (i : Nat) : find? (del m i) i = none := by
  induction m with
  | nil => rfl
  | cons e m ih =>
    obtain ⟨k, w⟩ := e
    simp only [del]
    split
    · exact ih
    · rename_i hk
      simpa only [find?, hk, if_false] using ih

theorem put_risesFrom (m : Sparse α) {n i : Nat} (v : α) (h : risesFrom m n = true) (hi : n < i) :
    risesFrom (put m i v) n = true := by
  induction m generalizing n with
  | nil => simp [put, risesFrom, hi]
  | cons e m ih =>
    obtain ⟨k, w⟩ := e
    simp only [risesFrom, Bool.and_eq_true, decide_eq_true_eq] at h
    simp only [put]
    split
    · simp [risesFrom, hi, h.2, *]
    · split
      · rename_i h1 h2
        subst h2
        simp [risesFrom, hi, h.2]
      · simp only [risesFrom, Bool.and_eq_true, decide_eq_true_eq]
        exact ⟨h.1, ih h.2 (by omega)⟩

/-- Listing keeps the keys rising. -/
theorem put_sorted (m : Sparse α) (i : Nat) (v : α) (h : sorted m = true) : sorted (put m i v) = true := by
  cases m with
  | nil => rfl
  | cons e m =>
    obtain ⟨k, w⟩ := e
    simp only [sorted] at h
    simp only [put]
    split
    · simp [sorted, risesFrom, h, *]
    · split
      · rename_i h1 h2
        subst h2
        exact h
      · exact put_risesFrom m v h (by omega)

theorem del_risesFrom (m : Sparse α) {n : Nat} (i : Nat) (h : risesFrom m n = true) : risesFrom (del m i) n = true := by
  induction m generalizing n with
  | nil => rfl
  | cons e m ih =>
    obtain ⟨k, w⟩ := e
    simp only [risesFrom, Bool.and_eq_true, decide_eq_true_eq] at h
    simp only [del]
    split
    · exact risesFrom_mono (del m i) (ih h.2) (by omega)
    · simp only [risesFrom, Bool.and_eq_true, decide_eq_true_eq]
      exact ⟨h.1, ih h.2⟩

/-- Removing keeps the keys rising. -/
theorem del_sorted (m : Sparse α) (i : Nat) (h : sorted m = true) : sorted (del m i) = true := by
  cases m with
  | nil => rfl
  | cons e m =>
    obtain ⟨k, w⟩ := e
    simp only [sorted] at h
    simp only [del]
    split
    · exact sorted_of_risesFrom (del m i) (del_risesFrom m i h)
    · exact del_risesFrom m i h

theorem put_all (m : Sparse α) (i : Nat) (v : α) (p : Nat × α → Bool) (h : m.all p = true) (hv : p (i, v) = true) :
    (put m i v).all p = true := by
  induction m with
  | nil => simp [put, hv]
  | cons e m ih =>
    obtain ⟨k, w⟩ := e
    simp only [List.all_cons, Bool.and_eq_true] at h
    simp only [put]
    split
    · simp [hv, h.1, h.2]
    · split
      · simp [hv, h.2]
      · simp [h.1, ih h.2]

theorem del_all (m : Sparse α) (i : Nat) (p : Nat × α → Bool) (h : m.all p = true) : (del m i).all p = true := by
  induction m with
  | nil => rfl
  | cons e m ih =>
    obtain ⟨k, w⟩ := e
    simp only [List.all_cons, Bool.and_eq_true] at h
    simp only [del]
    split
    · exact ih h.2
    · simp [h.1, ih h.2]

/-- Reading a key after listing it. -/
@[simp] theorem get_put_same (m : Sparse α) (d : α) (i : Nat) (v : α) : get (put m i v) d i = v := by simp [get]

/-- Listing one key leaves every other. -/
theorem get_put_other (m : Sparse α) (d : α) {i j : Nat} (v : α) (h : j ≠ i) : get (put m i v) d j = get m d j := by
  simp [get, find?_put_other m v h]

/-- Reading anywhere after listing a key. -/
theorem get_put (m : Sparse α) (d : α) (i j : Nat) (v : α) : get (put m i v) d j = if j = i then v else get m d j := by
  split
  · subst_vars; simp
  · exact get_put_other m d v ‹_›

variable [DecidableEq α]

/-- Reading a key after making it read as `v`. -/
@[simp] theorem get_set_same (m : Sparse α) (d : α) (i : Nat) (v : α) : get (set m d i v) d i = v := by
  unfold set
  split
  · simp [get, find?_del_same m i, *]
  · simp

/-- Making one key read as `v` leaves every other. -/
theorem get_set_other (m : Sparse α) (d : α) {i j : Nat} (v : α) (h : j ≠ i) : get (set m d i v) d j = get m d j := by
  unfold set
  split
  · simp [get, find?_del_other m h]
  · exact get_put_other m d v h

/-- The canonical form is kept. -/
theorem set_wf (m : Sparse α) (d : α) (i : Nat) (v : α) (h : wf m d = true) : wf (set m d i v) d = true := by
  simp only [wf, Bool.and_eq_true] at h ⊢
  unfold set
  split
  · exact ⟨del_sorted m i h.1, del_all m i _ h.2⟩
  · exact ⟨put_sorted m i v h.1, put_all m i v _ h.2 (by simpa using ‹_›)⟩

theorem filter_risesFrom (m : Sparse α) {n : Nat} (p : Nat × α → Bool) (h : risesFrom m n = true) :
    risesFrom (m.filter p) n = true := by
  induction m generalizing n with
  | nil => rfl
  | cons e m ih =>
    obtain ⟨k, w⟩ := e
    simp only [risesFrom, Bool.and_eq_true, decide_eq_true_eq] at h
    simp only [List.filter_cons]
    split
    · simp only [risesFrom, Bool.and_eq_true, decide_eq_true_eq]
      exact ⟨h.1, ih h.2⟩
    · exact ih (risesFrom_mono m h.2 (by omega))

/-- A part of a canonical map is canonical. -/
theorem filter_wf (m : Sparse α) (d : α) (p : Nat × α → Bool) (h : wf m d = true) : wf (m.filter p) d = true := by
  simp only [wf, Bool.and_eq_true] at h ⊢
  refine ⟨?_, ?_⟩
  · cases m with
    | nil => rfl
    | cons e m =>
      obtain ⟨k, w⟩ := e
      have hs := h.1
      simp only [sorted] at hs
      simp only [List.filter_cons]
      split
      · exact filter_risesFrom m p hs
      · exact sorted_of_risesFrom _ (filter_risesFrom m p hs)
  · rw [List.all_eq_true] at h ⊢
    exact fun e he => h.2 e (List.mem_of_mem_filter he)

end Sys2Proof.Sparse
end

