-- ==== Sys2Proof/Laws/Memory.lean ====
section
/-!
SUPPORT. What a write at the owning L2 can do to the state, and that memory keeps its canonical form: two operations
change the memory list, `l2Write` and `wipeMemory`.
-/

namespace Sys2Proof.Machine

open Sys2Proof

/-- Clearing reservations changes warps only. -/
theorem clearResv_shape (s : State) (pa : Nat) (p : Nat → Bool) : ∃ w, clearResv s pa p = { s with warps := w } := by
  unfold clearResv; split
  · exact ⟨_, rfl⟩
  · exact ⟨_, rfl⟩

theorem clearResvs_shape (gs : List Nat) (s : State) (p : State → Nat → Bool) :
    ∃ w, gs.foldl (fun s g => clearResv s (g * 32) (p s)) s = { s with warps := w } := by
  induction gs generalizing s with
  | nil => exact ⟨_, rfl⟩
  | cons g gs ih =>
    obtain ⟨w, h⟩ := clearResv_shape s (g * 32) (p s)
    rw [List.foldl_cons, h]
    exact ih _

/-- A write at the owning L2, outside the hub's registers: memory takes its bytes, in order; reservations and the poison of its
blocks may be cleared; nothing else changes. -/
theorem l2Write_shape (s : State) (pa : Nat) (bs : List Byte) (h : ownHub s pa = false) :
    ∃ w mp, l2Write s pa bs = { s with
      warps := w, memPoison := mp, mem := ((List.range bs.length).zip bs).foldl (fun m e => memSet m (pa + e.1) e.2) s.mem } := by
  unfold l2Write
  rw [if_neg (by rw [h]; simp)]
  obtain ⟨w, hw⟩ := clearResvs_shape (granules pa bs.length)
    { s with mem := ((List.range bs.length).zip bs).foldl (fun m e => memSet m (pa + e.1) e.2) s.mem } (fun s wg => !s.wgDet wg)
  dsimp only
  rw [hw]
  exact ⟨w, _, rfl⟩

/-- Bytes written one after another: the memory list stays canonical. -/
theorem memSets_wf (es : List (Nat × Byte)) (pa : Nat) (m : List Host.Cell) (h : Memory.wf m = true) :
    Memory.wf (es.foldl (fun m e => memSet m (pa + e.1) e.2) m) = true := by
  induction es generalizing m with
  | nil => exact h
  | cons e es ih => exact ih _ (Sparse.set_wf _ _ _ _ h)

/-- What they are read as afterwards. -/
theorem memSets_get (bs : List Byte) (k pa : Nat) (m : List Host.Cell) (a : Nat) :
    Sparse.get (((List.range' k bs.length).zip bs).foldl (fun m e => memSet m (pa + e.1) e.2) m) memDefault a =
      if pa + k ≤ a ∧ a < pa + k + bs.length then bs.getD (a - pa - k) 0 else Sparse.get m memDefault a := by
  induction bs generalizing k m with
  | nil => rw [if_neg (by simp)]; rfl
  | cons b bs ih =>
    refine (ih (k + 1) (memSet m (pa + k) b)).trans ?_
    by_cases ha : a = pa + k
    · subst ha
      rw [if_neg (by omega), if_pos (by simp), show pa + k - pa - k = 0 by omega]
      exact Sparse.get_set_same _ _ _ _
    · rw [show Sparse.get (memSet m (pa + k) b) memDefault a = Sparse.get m memDefault a from Sparse.get_set_other _ _ _ ha]
      by_cases hr : pa + (k + 1) ≤ a ∧ a < pa + (k + 1) + bs.length
      · rw [if_pos hr, if_pos (by simp only [List.length_cons]; omega), show a - pa - k = (a - pa - (k + 1)) + 1 by omega]; rfl
      · rw [if_neg hr, if_neg (by simp only [List.length_cons]; omega)]

/-- `clearResv` leaves memory. -/
@[simp] theorem clearResv_mem (s : State) (pa : Nat) (p : Nat → Bool) : (clearResv s pa p).mem = s.mem := by
  obtain ⟨w, h⟩ := clearResv_shape s pa p; rw [h]

end Sys2Proof.Machine
end

