-- ==== Sys2Proof/Laws/State.lean ====
section
/-!
SUPPORT. One lemma per field of State per named update: what setting a warp, a workgroup, a core, a context, an engine
context or a launch leaves, and what it makes the accessors read.
-/

namespace Sys2Proof.Machine

variable (s : State)


/-! ### setWarp -/

@[simp] theorem State.setWarp_cyc (wg w : Nat) (x : Warp) : (s.setWarp wg w x).cyc = s.cyc := rfl
@[simp] theorem State.setWarp_power (wg w : Nat) (x : Warp) : (s.setWarp wg w x).power = s.power := rfl
@[simp] theorem State.setWarp_level (wg w : Nat) (x : Warp) : (s.setWarp wg w x).level = s.level := rfl
@[simp] theorem State.setWarp_reducedSince (wg w : Nat) (x : Warp) : (s.setWarp wg w x).reducedSince = s.reducedSince := rfl
@[simp] theorem State.setWarp_holds (wg w : Nat) (x : Warp) : (s.setWarp wg w x).holds = s.holds := rfl
@[simp] theorem State.setWarp_held (wg w : Nat) (x : Warp) : (s.setWarp wg w x).held = s.held := rfl
@[simp] theorem State.setWarp_stpass (wg w : Nat) (x : Warp) : (s.setWarp wg w x).stpass = s.stpass := rfl
@[simp] theorem State.setWarp_shockAtPower (wg w : Nat) (x : Warp) : (s.setWarp wg w x).shockAtPower = s.shockAtPower := rfl
@[simp] theorem State.setWarp_agenda (wg w : Nat) (x : Warp) : (s.setWarp wg w x).agenda = s.agenda := rfl
@[simp] theorem State.setWarp_free (wg w : Nat) (x : Warp) : (s.setWarp wg w x).free = s.free := rfl
@[simp] theorem State.setWarp_mem (wg w : Nat) (x : Warp) : (s.setWarp wg w x).mem = s.mem := rfl
@[simp] theorem State.setWarp_memPoison (wg w : Nat) (x : Warp) : (s.setWarp wg w x).memPoison = s.memPoison := rfl
@[simp] theorem State.setWarp_cores (wg w : Nat) (x : Warp) : (s.setWarp wg w x).cores = s.cores := rfl
@[simp] theorem State.setWarp_quadTlb (wg w : Nat) (x : Warp) : (s.setWarp wg w x).quadTlb = s.quadTlb := rfl
@[simp] theorem State.setWarp_dieTlb (wg w : Nat) (x : Warp) : (s.setWarp wg w x).dieTlb = s.dieTlb := rfl
@[simp] theorem State.setWarp_walkCache (wg w : Nat) (x : Warp) : (s.setWarp wg w x).walkCache = s.walkCache := rfl
@[simp] theorem State.setWarp_walks (wg w : Nat) (x : Warp) : (s.setWarp wg w x).walks = s.walks := rfl
@[simp] theorem State.setWarp_invals (wg w : Nat) (x : Warp) : (s.setWarp wg w x).invals = s.invals := rfl
@[simp] theorem State.setWarp_ctxs (wg w : Nat) (x : Warp) : (s.setWarp wg w x).ctxs = s.ctxs := rfl
@[simp] theorem State.setWarp_launches (wg w : Nat) (x : Warp) : (s.setWarp wg w x).launches = s.launches := rfl
@[simp] theorem State.setWarp_nextLid (wg w : Nat) (x : Warp) : (s.setWarp wg w x).nextLid = s.nextLid := rfl
@[simp] theorem State.setWarp_lids (wg w : Nat) (x : Warp) : (s.setWarp wg w x).lids = s.lids := rfl
@[simp] theorem State.setWarp_slots (wg w : Nat) (x : Warp) : (s.setWarp wg w x).slots = s.slots := rfl
@[simp] theorem State.setWarp_wgs (wg w : Nat) (x : Warp) : (s.setWarp wg w x).wgs = s.wgs := rfl
@[simp] theorem State.setWarp_warps (wg w : Nat) (x : Warp) : (s.setWarp wg w x).warps = s.warps.put (warpKey wg w) x := rfl
@[simp] theorem State.setWarp_nextCreated (wg w : Nat) (x : Warp) : (s.setWarp wg w x).nextCreated = s.nextCreated := rfl
@[simp] theorem State.setWarp_engs (wg w : Nat) (x : Warp) : (s.setWarp wg w x).engs = s.engs := rfl
@[simp] theorem State.setWarp_atomQ (wg w : Nat) (x : Warp) : (s.setWarp wg w x).atomQ = s.atomQ := rfl
@[simp] theorem State.setWarp_holdsLR (wg w : Nat) (x : Warp) : (s.setWarp wg w x).holdsLR = s.holdsLR := rfl
@[simp] theorem State.setWarp_rr (wg w : Nat) (x : Warp) : (s.setWarp wg w x).rr = s.rr := rfl
@[simp] theorem State.setWarp_served (wg w : Nat) (x : Warp) : (s.setWarp wg w x).served = s.served := rfl
@[simp] theorem State.setWarp_cur (wg w : Nat) (x : Warp) : (s.setWarp wg w x).cur = s.cur := rfl
@[simp] theorem State.setWarp_nextLoad (wg w : Nat) (x : Warp) : (s.setWarp wg w x).nextLoad = s.nextLoad := rfl
@[simp] theorem State.setWarp_groups (wg w : Nat) (x : Warp) : (s.setWarp wg w x).groups = s.groups := rfl
@[simp] theorem State.setWarp_plogCount (wg w : Nat) (x : Warp) : (s.setWarp wg w x).plogCount = s.plogCount := rfl
@[simp] theorem State.setWarp_plog (wg w : Nat) (x : Warp) : (s.setWarp wg w x).plog = s.plog := rfl
@[simp] theorem State.setWarp_errs (wg w : Nat) (x : Warp) : (s.setWarp wg w x).errs = s.errs := rfl
@[simp] theorem State.setWarp_cnt (wg w : Nat) (x : Warp) : (s.setWarp wg w x).cnt = s.cnt := rfl
@[simp] theorem State.setWarp_mapbuf (wg w : Nat) (x : Warp) : (s.setWarp wg w x).mapbuf = s.mapbuf := rfl
@[simp] theorem State.setWarp_mapStat (wg w : Nat) (x : Warp) : (s.setWarp wg w x).mapStat = s.mapStat := rfl
@[simp] theorem State.setWarp_mapScan (wg w : Nat) (x : Warp) : (s.setWarp wg w x).mapScan = s.mapScan := rfl
@[simp] theorem State.setWarp_mapNew (wg w : Nat) (x : Warp) : (s.setWarp wg w x).mapNew = s.mapNew := rfl
@[simp] theorem State.setWarp_mapEpoch (wg w : Nat) (x : Warp) : (s.setWarp wg w x).mapEpoch = s.mapEpoch := rfl
@[simp] theorem State.setWarp_mask (wg w : Nat) (x : Warp) : (s.setWarp wg w x).mask = s.mask := rfl
@[simp] theorem State.setWarp_epoch (wg w : Nat) (x : Warp) : (s.setWarp wg w x).epoch = s.epoch := rfl
@[simp] theorem State.setWarp_streq (wg w : Nat) (x : Warp) : (s.setWarp wg w x).streq = s.streq := rfl
@[simp] theorem State.setWarp_meas (wg w : Nat) (x : Warp) : (s.setWarp wg w x).meas = s.meas := rfl
@[simp] theorem State.setWarp_nv (wg w : Nat) (x : Warp) : (s.setWarp wg w x).nv = s.nv := rfl
@[simp] theorem State.setWarp_pkgidNew (wg w : Nat) (x : Warp) : (s.setWarp wg w x).pkgidNew = s.pkgidNew := rfl
@[simp] theorem State.setWarp_pkgid (wg w : Nat) (x : Warp) : (s.setWarp wg w x).pkgid = s.pkgid := rfl
@[simp] theorem State.setWarp_podid (wg w : Nat) (x : Warp) : (s.setWarp wg w x).podid = s.podid := rfl
@[simp] theorem State.setWarp_ipaddr (wg w : Nat) (x : Warp) : (s.setWarp wg w x).ipaddr = s.ipaddr := rfl
@[simp] theorem State.setWarp_ipctl (wg w : Nat) (x : Warp) : (s.setWarp wg w x).ipctl = s.ipctl := rfl
@[simp] theorem State.setWarp_dadEnd (wg w : Nat) (x : Warp) : (s.setWarp wg w x).dadEnd = s.dadEnd := rfl
@[simp] theorem State.setWarp_linkLocal (wg w : Nat) (x : Warp) : (s.setWarp wg w x).linkLocal = s.linkLocal := rfl
@[simp] theorem State.setWarp_hostLanes (wg w : Nat) (x : Warp) : (s.setWarp wg w x).hostLanes = s.hostLanes := rfl
@[simp] theorem State.setWarp_links (wg w : Nat) (x : Warp) : (s.setWarp wg w x).links = s.links := rfl
@[simp] theorem State.setWarp_sessions (wg w : Nat) (x : Warp) : (s.setWarp wg w x).sessions = s.sessions := rfl
@[simp] theorem State.setWarp_handshakes (wg w : Nat) (x : Warp) : (s.setWarp wg w x).handshakes = s.handshakes := rfl
@[simp] theorem State.setWarp_nextSess (wg w : Nat) (x : Warp) : (s.setWarp wg w x).nextSess = s.nextSess := rfl
@[simp] theorem State.setWarp_nonces (wg w : Nat) (x : Warp) : (s.setWarp wg w x).nonces = s.nonces := rfl
@[simp] theorem State.setWarp_owner (wg w : Nat) (x : Warp) : (s.setWarp wg w x).owner = s.owner := rfl
@[simp] theorem State.setWarp_electionEnd (wg w : Nat) (x : Warp) : (s.setWarp wg w x).electionEnd = s.electionEnd := rfl
@[simp] theorem State.setWarp_electionOpen (wg w : Nat) (x : Warp) : (s.setWarp wg w x).electionOpen = s.electionOpen := rfl
@[simp] theorem State.setWarp_electionDone (wg w : Nat) (x : Warp) : (s.setWarp wg w x).electionDone = s.electionDone := rfl
@[simp] theorem State.setWarp_claims (wg w : Nat) (x : Warp) : (s.setWarp wg w x).claims = s.claims := rfl
@[simp] theorem State.setWarp_ownerSeen (wg w : Nat) (x : Warp) : (s.setWarp wg w x).ownerSeen = s.ownerSeen := rfl
@[simp] theorem State.setWarp_authFails (wg w : Nat) (x : Warp) : (s.setWarp wg w x).authFails = s.authFails := rfl
@[simp] theorem State.setWarp_hostOut (wg w : Nat) (x : Warp) : (s.setWarp wg w x).hostOut = s.hostOut := rfl
@[simp] theorem State.setWarp_kettle (wg w : Nat) (x : Warp) : (s.setWarp wg w x).kettle = s.kettle := rfl
@[simp] theorem State.modWarp_eq (wg w : Nat) (g : Warp → Warp) : s.modWarp wg w g = s.setWarp wg w (g (s.getWarp wg w)) := rfl
@[simp] theorem State.getWarp_setWarp_same (wg w : Nat) (x : Warp) : (s.setWarp wg w x).getWarp wg w = x := by
  simp [State.getWarp, State.setWarp]
@[simp] theorem State.getWg_setWarp (wg w : Nat) (x : Warp) (j : Nat) : (s.setWarp wg w x).getWg j = s.getWg j := rfl
@[simp] theorem State.getCore_setWarp (wg w : Nat) (x : Warp) (j : Nat) : (s.setWarp wg w x).getCore j = s.getCore j := rfl
@[simp] theorem State.getCtx_setWarp (wg w : Nat) (x : Warp) (j : Nat) : (s.setWarp wg w x).getCtx j = s.getCtx j := rfl
@[simp] theorem State.getEng_setWarp (wg w : Nat) (x : Warp) (j : Nat) : (s.setWarp wg w x).getEng j = s.getEng j := rfl
@[simp] theorem State.getLaunch_setWarp (wg w : Nat) (x : Warp) (j : Nat) : (s.setWarp wg w x).getLaunch j = s.getLaunch j := rfl
@[simp] theorem State.now_setWarp (wg w : Nat) (x : Warp) : (s.setWarp wg w x).now = s.now := rfl

/-! ### setWg -/

@[simp] theorem State.setWg_cyc (k : Nat) (x : Wg) : (s.setWg k x).cyc = s.cyc := rfl
@[simp] theorem State.setWg_power (k : Nat) (x : Wg) : (s.setWg k x).power = s.power := rfl
@[simp] theorem State.setWg_level (k : Nat) (x : Wg) : (s.setWg k x).level = s.level := rfl
@[simp] theorem State.setWg_reducedSince (k : Nat) (x : Wg) : (s.setWg k x).reducedSince = s.reducedSince := rfl
@[simp] theorem State.setWg_holds (k : Nat) (x : Wg) : (s.setWg k x).holds = s.holds := rfl
@[simp] theorem State.setWg_held (k : Nat) (x : Wg) : (s.setWg k x).held = s.held := rfl
@[simp] theorem State.setWg_stpass (k : Nat) (x : Wg) : (s.setWg k x).stpass = s.stpass := rfl
@[simp] theorem State.setWg_shockAtPower (k : Nat) (x : Wg) : (s.setWg k x).shockAtPower = s.shockAtPower := rfl
@[simp] theorem State.setWg_agenda (k : Nat) (x : Wg) : (s.setWg k x).agenda = s.agenda := rfl
@[simp] theorem State.setWg_free (k : Nat) (x : Wg) : (s.setWg k x).free = s.free := rfl
@[simp] theorem State.setWg_mem (k : Nat) (x : Wg) : (s.setWg k x).mem = s.mem := rfl
@[simp] theorem State.setWg_memPoison (k : Nat) (x : Wg) : (s.setWg k x).memPoison = s.memPoison := rfl
@[simp] theorem State.setWg_cores (k : Nat) (x : Wg) : (s.setWg k x).cores = s.cores := rfl
@[simp] theorem State.setWg_quadTlb (k : Nat) (x : Wg) : (s.setWg k x).quadTlb = s.quadTlb := rfl
@[simp] theorem State.setWg_dieTlb (k : Nat) (x : Wg) : (s.setWg k x).dieTlb = s.dieTlb := rfl
@[simp] theorem State.setWg_walkCache (k : Nat) (x : Wg) : (s.setWg k x).walkCache = s.walkCache := rfl
@[simp] theorem State.setWg_walks (k : Nat) (x : Wg) : (s.setWg k x).walks = s.walks := rfl
@[simp] theorem State.setWg_invals (k : Nat) (x : Wg) : (s.setWg k x).invals = s.invals := rfl
@[simp] theorem State.setWg_ctxs (k : Nat) (x : Wg) : (s.setWg k x).ctxs = s.ctxs := rfl
@[simp] theorem State.setWg_launches (k : Nat) (x : Wg) : (s.setWg k x).launches = s.launches := rfl
@[simp] theorem State.setWg_nextLid (k : Nat) (x : Wg) : (s.setWg k x).nextLid = s.nextLid := rfl
@[simp] theorem State.setWg_lids (k : Nat) (x : Wg) : (s.setWg k x).lids = s.lids := rfl
@[simp] theorem State.setWg_slots (k : Nat) (x : Wg) : (s.setWg k x).slots = s.slots := rfl
@[simp] theorem State.setWg_wgs (k : Nat) (x : Wg) : (s.setWg k x).wgs = s.wgs.put k x := rfl
@[simp] theorem State.setWg_warps (k : Nat) (x : Wg) : (s.setWg k x).warps = s.warps := rfl
@[simp] theorem State.setWg_nextCreated (k : Nat) (x : Wg) : (s.setWg k x).nextCreated = s.nextCreated := rfl
@[simp] theorem State.setWg_engs (k : Nat) (x : Wg) : (s.setWg k x).engs = s.engs := rfl
@[simp] theorem State.setWg_atomQ (k : Nat) (x : Wg) : (s.setWg k x).atomQ = s.atomQ := rfl
@[simp] theorem State.setWg_holdsLR (k : Nat) (x : Wg) : (s.setWg k x).holdsLR = s.holdsLR := rfl
@[simp] theorem State.setWg_rr (k : Nat) (x : Wg) : (s.setWg k x).rr = s.rr := rfl
@[simp] theorem State.setWg_served (k : Nat) (x : Wg) : (s.setWg k x).served = s.served := rfl
@[simp] theorem State.setWg_cur (k : Nat) (x : Wg) : (s.setWg k x).cur = s.cur := rfl
@[simp] theorem State.setWg_nextLoad (k : Nat) (x : Wg) : (s.setWg k x).nextLoad = s.nextLoad := rfl
@[simp] theorem State.setWg_groups (k : Nat) (x : Wg) : (s.setWg k x).groups = s.groups := rfl
@[simp] theorem State.setWg_plogCount (k : Nat) (x : Wg) : (s.setWg k x).plogCount = s.plogCount := rfl
@[simp] theorem State.setWg_plog (k : Nat) (x : Wg) : (s.setWg k x).plog = s.plog := rfl
@[simp] theorem State.setWg_errs (k : Nat) (x : Wg) : (s.setWg k x).errs = s.errs := rfl
@[simp] theorem State.setWg_cnt (k : Nat) (x : Wg) : (s.setWg k x).cnt = s.cnt := rfl
@[simp] theorem State.setWg_mapbuf (k : Nat) (x : Wg) : (s.setWg k x).mapbuf = s.mapbuf := rfl
@[simp] theorem State.setWg_mapStat (k : Nat) (x : Wg) : (s.setWg k x).mapStat = s.mapStat := rfl
@[simp] theorem State.setWg_mapScan (k : Nat) (x : Wg) : (s.setWg k x).mapScan = s.mapScan := rfl
@[simp] theorem State.setWg_mapNew (k : Nat) (x : Wg) : (s.setWg k x).mapNew = s.mapNew := rfl
@[simp] theorem State.setWg_mapEpoch (k : Nat) (x : Wg) : (s.setWg k x).mapEpoch = s.mapEpoch := rfl
@[simp] theorem State.setWg_mask (k : Nat) (x : Wg) : (s.setWg k x).mask = s.mask := rfl
@[simp] theorem State.setWg_epoch (k : Nat) (x : Wg) : (s.setWg k x).epoch = s.epoch := rfl
@[simp] theorem State.setWg_streq (k : Nat) (x : Wg) : (s.setWg k x).streq = s.streq := rfl
@[simp] theorem State.setWg_meas (k : Nat) (x : Wg) : (s.setWg k x).meas = s.meas := rfl
@[simp] theorem State.setWg_nv (k : Nat) (x : Wg) : (s.setWg k x).nv = s.nv := rfl
@[simp] theorem State.setWg_pkgidNew (k : Nat) (x : Wg) : (s.setWg k x).pkgidNew = s.pkgidNew := rfl
@[simp] theorem State.setWg_pkgid (k : Nat) (x : Wg) : (s.setWg k x).pkgid = s.pkgid := rfl
@[simp] theorem State.setWg_podid (k : Nat) (x : Wg) : (s.setWg k x).podid = s.podid := rfl
@[simp] theorem State.setWg_ipaddr (k : Nat) (x : Wg) : (s.setWg k x).ipaddr = s.ipaddr := rfl
@[simp] theorem State.setWg_ipctl (k : Nat) (x : Wg) : (s.setWg k x).ipctl = s.ipctl := rfl
@[simp] theorem State.setWg_dadEnd (k : Nat) (x : Wg) : (s.setWg k x).dadEnd = s.dadEnd := rfl
@[simp] theorem State.setWg_linkLocal (k : Nat) (x : Wg) : (s.setWg k x).linkLocal = s.linkLocal := rfl
@[simp] theorem State.setWg_hostLanes (k : Nat) (x : Wg) : (s.setWg k x).hostLanes = s.hostLanes := rfl
@[simp] theorem State.setWg_links (k : Nat) (x : Wg) : (s.setWg k x).links = s.links := rfl
@[simp] theorem State.setWg_sessions (k : Nat) (x : Wg) : (s.setWg k x).sessions = s.sessions := rfl
@[simp] theorem State.setWg_handshakes (k : Nat) (x : Wg) : (s.setWg k x).handshakes = s.handshakes := rfl
@[simp] theorem State.setWg_nextSess (k : Nat) (x : Wg) : (s.setWg k x).nextSess = s.nextSess := rfl
@[simp] theorem State.setWg_nonces (k : Nat) (x : Wg) : (s.setWg k x).nonces = s.nonces := rfl
@[simp] theorem State.setWg_owner (k : Nat) (x : Wg) : (s.setWg k x).owner = s.owner := rfl
@[simp] theorem State.setWg_electionEnd (k : Nat) (x : Wg) : (s.setWg k x).electionEnd = s.electionEnd := rfl
@[simp] theorem State.setWg_electionOpen (k : Nat) (x : Wg) : (s.setWg k x).electionOpen = s.electionOpen := rfl
@[simp] theorem State.setWg_electionDone (k : Nat) (x : Wg) : (s.setWg k x).electionDone = s.electionDone := rfl
@[simp] theorem State.setWg_claims (k : Nat) (x : Wg) : (s.setWg k x).claims = s.claims := rfl
@[simp] theorem State.setWg_ownerSeen (k : Nat) (x : Wg) : (s.setWg k x).ownerSeen = s.ownerSeen := rfl
@[simp] theorem State.setWg_authFails (k : Nat) (x : Wg) : (s.setWg k x).authFails = s.authFails := rfl
@[simp] theorem State.setWg_hostOut (k : Nat) (x : Wg) : (s.setWg k x).hostOut = s.hostOut := rfl
@[simp] theorem State.setWg_kettle (k : Nat) (x : Wg) : (s.setWg k x).kettle = s.kettle := rfl
@[simp] theorem State.modWg_eq (k : Nat) (g : Wg → Wg) : s.modWg k g = s.setWg k (g (s.getWg k)) := rfl
@[simp] theorem State.getWarp_setWg (k : Nat) (x : Wg) (wg w : Nat) : (s.setWg k x).getWarp wg w = s.getWarp wg w := rfl
@[simp] theorem State.getWg_setWg_same (k : Nat) (x : Wg) : (s.setWg k x).getWg k = x := by
  simp [State.getWg, State.setWg]
@[simp] theorem State.getCore_setWg (k : Nat) (x : Wg) (j : Nat) : (s.setWg k x).getCore j = s.getCore j := rfl
@[simp] theorem State.getCtx_setWg (k : Nat) (x : Wg) (j : Nat) : (s.setWg k x).getCtx j = s.getCtx j := rfl
@[simp] theorem State.getEng_setWg (k : Nat) (x : Wg) (j : Nat) : (s.setWg k x).getEng j = s.getEng j := rfl
@[simp] theorem State.getLaunch_setWg (k : Nat) (x : Wg) (j : Nat) : (s.setWg k x).getLaunch j = s.getLaunch j := rfl
@[simp] theorem State.now_setWg (k : Nat) (x : Wg) : (s.setWg k x).now = s.now := rfl

/-! ### setCore -/

@[simp] theorem State.setCore_cyc (k : Nat) (x : Core) : (s.setCore k x).cyc = s.cyc := rfl
@[simp] theorem State.setCore_power (k : Nat) (x : Core) : (s.setCore k x).power = s.power := rfl
@[simp] theorem State.setCore_level (k : Nat) (x : Core) : (s.setCore k x).level = s.level := rfl
@[simp] theorem State.setCore_reducedSince (k : Nat) (x : Core) : (s.setCore k x).reducedSince = s.reducedSince := rfl
@[simp] theorem State.setCore_holds (k : Nat) (x : Core) : (s.setCore k x).holds = s.holds := rfl
@[simp] theorem State.setCore_held (k : Nat) (x : Core) : (s.setCore k x).held = s.held := rfl
@[simp] theorem State.setCore_stpass (k : Nat) (x : Core) : (s.setCore k x).stpass = s.stpass := rfl
@[simp] theorem State.setCore_shockAtPower (k : Nat) (x : Core) : (s.setCore k x).shockAtPower = s.shockAtPower := rfl
@[simp] theorem State.setCore_agenda (k : Nat) (x : Core) : (s.setCore k x).agenda = s.agenda := rfl
@[simp] theorem State.setCore_free (k : Nat) (x : Core) : (s.setCore k x).free = s.free := rfl
@[simp] theorem State.setCore_mem (k : Nat) (x : Core) : (s.setCore k x).mem = s.mem := rfl
@[simp] theorem State.setCore_memPoison (k : Nat) (x : Core) : (s.setCore k x).memPoison = s.memPoison := rfl
@[simp] theorem State.setCore_cores (k : Nat) (x : Core) : (s.setCore k x).cores = s.cores.put k x := rfl
@[simp] theorem State.setCore_quadTlb (k : Nat) (x : Core) : (s.setCore k x).quadTlb = s.quadTlb := rfl
@[simp] theorem State.setCore_dieTlb (k : Nat) (x : Core) : (s.setCore k x).dieTlb = s.dieTlb := rfl
@[simp] theorem State.setCore_walkCache (k : Nat) (x : Core) : (s.setCore k x).walkCache = s.walkCache := rfl
@[simp] theorem State.setCore_walks (k : Nat) (x : Core) : (s.setCore k x).walks = s.walks := rfl
@[simp] theorem State.setCore_invals (k : Nat) (x : Core) : (s.setCore k x).invals = s.invals := rfl
@[simp] theorem State.setCore_ctxs (k : Nat) (x : Core) : (s.setCore k x).ctxs = s.ctxs := rfl
@[simp] theorem State.setCore_launches (k : Nat) (x : Core) : (s.setCore k x).launches = s.launches := rfl
@[simp] theorem State.setCore_nextLid (k : Nat) (x : Core) : (s.setCore k x).nextLid = s.nextLid := rfl
@[simp] theorem State.setCore_lids (k : Nat) (x : Core) : (s.setCore k x).lids = s.lids := rfl
@[simp] theorem State.setCore_slots (k : Nat) (x : Core) : (s.setCore k x).slots = s.slots := rfl
@[simp] theorem State.setCore_wgs (k : Nat) (x : Core) : (s.setCore k x).wgs = s.wgs := rfl
@[simp] theorem State.setCore_warps (k : Nat) (x : Core) : (s.setCore k x).warps = s.warps := rfl
@[simp] theorem State.setCore_nextCreated (k : Nat) (x : Core) : (s.setCore k x).nextCreated = s.nextCreated := rfl
@[simp] theorem State.setCore_engs (k : Nat) (x : Core) : (s.setCore k x).engs = s.engs := rfl
@[simp] theorem State.setCore_atomQ (k : Nat) (x : Core) : (s.setCore k x).atomQ = s.atomQ := rfl
@[simp] theorem State.setCore_holdsLR (k : Nat) (x : Core) : (s.setCore k x).holdsLR = s.holdsLR := rfl
@[simp] theorem State.setCore_rr (k : Nat) (x : Core) : (s.setCore k x).rr = s.rr := rfl
@[simp] theorem State.setCore_served (k : Nat) (x : Core) : (s.setCore k x).served = s.served := rfl
@[simp] theorem State.setCore_cur (k : Nat) (x : Core) : (s.setCore k x).cur = s.cur := rfl
@[simp] theorem State.setCore_nextLoad (k : Nat) (x : Core) : (s.setCore k x).nextLoad = s.nextLoad := rfl
@[simp] theorem State.setCore_groups (k : Nat) (x : Core) : (s.setCore k x).groups = s.groups := rfl
@[simp] theorem State.setCore_plogCount (k : Nat) (x : Core) : (s.setCore k x).plogCount = s.plogCount := rfl
@[simp] theorem State.setCore_plog (k : Nat) (x : Core) : (s.setCore k x).plog = s.plog := rfl
@[simp] theorem State.setCore_errs (k : Nat) (x : Core) : (s.setCore k x).errs = s.errs := rfl
@[simp] theorem State.setCore_cnt (k : Nat) (x : Core) : (s.setCore k x).cnt = s.cnt := rfl
@[simp] theorem State.setCore_mapbuf (k : Nat) (x : Core) : (s.setCore k x).mapbuf = s.mapbuf := rfl
@[simp] theorem State.setCore_mapStat (k : Nat) (x : Core) : (s.setCore k x).mapStat = s.mapStat := rfl
@[simp] theorem State.setCore_mapScan (k : Nat) (x : Core) : (s.setCore k x).mapScan = s.mapScan := rfl
@[simp] theorem State.setCore_mapNew (k : Nat) (x : Core) : (s.setCore k x).mapNew = s.mapNew := rfl
@[simp] theorem State.setCore_mapEpoch (k : Nat) (x : Core) : (s.setCore k x).mapEpoch = s.mapEpoch := rfl
@[simp] theorem State.setCore_mask (k : Nat) (x : Core) : (s.setCore k x).mask = s.mask := rfl
@[simp] theorem State.setCore_epoch (k : Nat) (x : Core) : (s.setCore k x).epoch = s.epoch := rfl
@[simp] theorem State.setCore_streq (k : Nat) (x : Core) : (s.setCore k x).streq = s.streq := rfl
@[simp] theorem State.setCore_meas (k : Nat) (x : Core) : (s.setCore k x).meas = s.meas := rfl
@[simp] theorem State.setCore_nv (k : Nat) (x : Core) : (s.setCore k x).nv = s.nv := rfl
@[simp] theorem State.setCore_pkgidNew (k : Nat) (x : Core) : (s.setCore k x).pkgidNew = s.pkgidNew := rfl
@[simp] theorem State.setCore_pkgid (k : Nat) (x : Core) : (s.setCore k x).pkgid = s.pkgid := rfl
@[simp] theorem State.setCore_podid (k : Nat) (x : Core) : (s.setCore k x).podid = s.podid := rfl
@[simp] theorem State.setCore_ipaddr (k : Nat) (x : Core) : (s.setCore k x).ipaddr = s.ipaddr := rfl
@[simp] theorem State.setCore_ipctl (k : Nat) (x : Core) : (s.setCore k x).ipctl = s.ipctl := rfl
@[simp] theorem State.setCore_dadEnd (k : Nat) (x : Core) : (s.setCore k x).dadEnd = s.dadEnd := rfl
@[simp] theorem State.setCore_linkLocal (k : Nat) (x : Core) : (s.setCore k x).linkLocal = s.linkLocal := rfl
@[simp] theorem State.setCore_hostLanes (k : Nat) (x : Core) : (s.setCore k x).hostLanes = s.hostLanes := rfl
@[simp] theorem State.setCore_links (k : Nat) (x : Core) : (s.setCore k x).links = s.links := rfl
@[simp] theorem State.setCore_sessions (k : Nat) (x : Core) : (s.setCore k x).sessions = s.sessions := rfl
@[simp] theorem State.setCore_handshakes (k : Nat) (x : Core) : (s.setCore k x).handshakes = s.handshakes := rfl
@[simp] theorem State.setCore_nextSess (k : Nat) (x : Core) : (s.setCore k x).nextSess = s.nextSess := rfl
@[simp] theorem State.setCore_nonces (k : Nat) (x : Core) : (s.setCore k x).nonces = s.nonces := rfl
@[simp] theorem State.setCore_owner (k : Nat) (x : Core) : (s.setCore k x).owner = s.owner := rfl
@[simp] theorem State.setCore_electionEnd (k : Nat) (x : Core) : (s.setCore k x).electionEnd = s.electionEnd := rfl
@[simp] theorem State.setCore_electionOpen (k : Nat) (x : Core) : (s.setCore k x).electionOpen = s.electionOpen := rfl
@[simp] theorem State.setCore_electionDone (k : Nat) (x : Core) : (s.setCore k x).electionDone = s.electionDone := rfl
@[simp] theorem State.setCore_claims (k : Nat) (x : Core) : (s.setCore k x).claims = s.claims := rfl
@[simp] theorem State.setCore_ownerSeen (k : Nat) (x : Core) : (s.setCore k x).ownerSeen = s.ownerSeen := rfl
@[simp] theorem State.setCore_authFails (k : Nat) (x : Core) : (s.setCore k x).authFails = s.authFails := rfl
@[simp] theorem State.setCore_hostOut (k : Nat) (x : Core) : (s.setCore k x).hostOut = s.hostOut := rfl
@[simp] theorem State.setCore_kettle (k : Nat) (x : Core) : (s.setCore k x).kettle = s.kettle := rfl
@[simp] theorem State.modCore_eq (k : Nat) (g : Core → Core) : s.modCore k g = s.setCore k (g (s.getCore k)) := rfl
@[simp] theorem State.getWarp_setCore (k : Nat) (x : Core) (wg w : Nat) : (s.setCore k x).getWarp wg w = s.getWarp wg w := rfl
@[simp] theorem State.getWg_setCore (k : Nat) (x : Core) (j : Nat) : (s.setCore k x).getWg j = s.getWg j := rfl
@[simp] theorem State.getCore_setCore_same (k : Nat) (x : Core) : (s.setCore k x).getCore k = x := by
  simp [State.getCore, State.setCore]
@[simp] theorem State.getCtx_setCore (k : Nat) (x : Core) (j : Nat) : (s.setCore k x).getCtx j = s.getCtx j := rfl
@[simp] theorem State.getEng_setCore (k : Nat) (x : Core) (j : Nat) : (s.setCore k x).getEng j = s.getEng j := rfl
@[simp] theorem State.getLaunch_setCore (k : Nat) (x : Core) (j : Nat) : (s.setCore k x).getLaunch j = s.getLaunch j := rfl
@[simp] theorem State.now_setCore (k : Nat) (x : Core) : (s.setCore k x).now = s.now := rfl

/-! ### setCtx -/

@[simp] theorem State.setCtx_cyc (k : Nat) (x : Ctx) : (s.setCtx k x).cyc = s.cyc := rfl
@[simp] theorem State.setCtx_power (k : Nat) (x : Ctx) : (s.setCtx k x).power = s.power := rfl
@[simp] theorem State.setCtx_level (k : Nat) (x : Ctx) : (s.setCtx k x).level = s.level := rfl
@[simp] theorem State.setCtx_reducedSince (k : Nat) (x : Ctx) : (s.setCtx k x).reducedSince = s.reducedSince := rfl
@[simp] theorem State.setCtx_holds (k : Nat) (x : Ctx) : (s.setCtx k x).holds = s.holds := rfl
@[simp] theorem State.setCtx_held (k : Nat) (x : Ctx) : (s.setCtx k x).held = s.held := rfl
@[simp] theorem State.setCtx_stpass (k : Nat) (x : Ctx) : (s.setCtx k x).stpass = s.stpass := rfl
@[simp] theorem State.setCtx_shockAtPower (k : Nat) (x : Ctx) : (s.setCtx k x).shockAtPower = s.shockAtPower := rfl
@[simp] theorem State.setCtx_agenda (k : Nat) (x : Ctx) : (s.setCtx k x).agenda = s.agenda := rfl
@[simp] theorem State.setCtx_free (k : Nat) (x : Ctx) : (s.setCtx k x).free = s.free := rfl
@[simp] theorem State.setCtx_mem (k : Nat) (x : Ctx) : (s.setCtx k x).mem = s.mem := rfl
@[simp] theorem State.setCtx_memPoison (k : Nat) (x : Ctx) : (s.setCtx k x).memPoison = s.memPoison := rfl
@[simp] theorem State.setCtx_cores (k : Nat) (x : Ctx) : (s.setCtx k x).cores = s.cores := rfl
@[simp] theorem State.setCtx_quadTlb (k : Nat) (x : Ctx) : (s.setCtx k x).quadTlb = s.quadTlb := rfl
@[simp] theorem State.setCtx_dieTlb (k : Nat) (x : Ctx) : (s.setCtx k x).dieTlb = s.dieTlb := rfl
@[simp] theorem State.setCtx_walkCache (k : Nat) (x : Ctx) : (s.setCtx k x).walkCache = s.walkCache := rfl
@[simp] theorem State.setCtx_walks (k : Nat) (x : Ctx) : (s.setCtx k x).walks = s.walks := rfl
@[simp] theorem State.setCtx_invals (k : Nat) (x : Ctx) : (s.setCtx k x).invals = s.invals := rfl
@[simp] theorem State.setCtx_ctxs (k : Nat) (x : Ctx) : (s.setCtx k x).ctxs = s.ctxs.put k x := rfl
@[simp] theorem State.setCtx_launches (k : Nat) (x : Ctx) : (s.setCtx k x).launches = s.launches := rfl
@[simp] theorem State.setCtx_nextLid (k : Nat) (x : Ctx) : (s.setCtx k x).nextLid = s.nextLid := rfl
@[simp] theorem State.setCtx_lids (k : Nat) (x : Ctx) : (s.setCtx k x).lids = s.lids := rfl
@[simp] theorem State.setCtx_slots (k : Nat) (x : Ctx) : (s.setCtx k x).slots = s.slots := rfl
@[simp] theorem State.setCtx_wgs (k : Nat) (x : Ctx) : (s.setCtx k x).wgs = s.wgs := rfl
@[simp] theorem State.setCtx_warps (k : Nat) (x : Ctx) : (s.setCtx k x).warps = s.warps := rfl
@[simp] theorem State.setCtx_nextCreated (k : Nat) (x : Ctx) : (s.setCtx k x).nextCreated = s.nextCreated := rfl
@[simp] theorem State.setCtx_engs (k : Nat) (x : Ctx) : (s.setCtx k x).engs = s.engs := rfl
@[simp] theorem State.setCtx_atomQ (k : Nat) (x : Ctx) : (s.setCtx k x).atomQ = s.atomQ := rfl
@[simp] theorem State.setCtx_holdsLR (k : Nat) (x : Ctx) : (s.setCtx k x).holdsLR = s.holdsLR := rfl
@[simp] theorem State.setCtx_rr (k : Nat) (x : Ctx) : (s.setCtx k x).rr = s.rr := rfl
@[simp] theorem State.setCtx_served (k : Nat) (x : Ctx) : (s.setCtx k x).served = s.served := rfl
@[simp] theorem State.setCtx_cur (k : Nat) (x : Ctx) : (s.setCtx k x).cur = s.cur := rfl
@[simp] theorem State.setCtx_nextLoad (k : Nat) (x : Ctx) : (s.setCtx k x).nextLoad = s.nextLoad := rfl
@[simp] theorem State.setCtx_groups (k : Nat) (x : Ctx) : (s.setCtx k x).groups = s.groups := rfl
@[simp] theorem State.setCtx_plogCount (k : Nat) (x : Ctx) : (s.setCtx k x).plogCount = s.plogCount := rfl
@[simp] theorem State.setCtx_plog (k : Nat) (x : Ctx) : (s.setCtx k x).plog = s.plog := rfl
@[simp] theorem State.setCtx_errs (k : Nat) (x : Ctx) : (s.setCtx k x).errs = s.errs := rfl
@[simp] theorem State.setCtx_cnt (k : Nat) (x : Ctx) : (s.setCtx k x).cnt = s.cnt := rfl
@[simp] theorem State.setCtx_mapbuf (k : Nat) (x : Ctx) : (s.setCtx k x).mapbuf = s.mapbuf := rfl
@[simp] theorem State.setCtx_mapStat (k : Nat) (x : Ctx) : (s.setCtx k x).mapStat = s.mapStat := rfl
@[simp] theorem State.setCtx_mapScan (k : Nat) (x : Ctx) : (s.setCtx k x).mapScan = s.mapScan := rfl
@[simp] theorem State.setCtx_mapNew (k : Nat) (x : Ctx) : (s.setCtx k x).mapNew = s.mapNew := rfl
@[simp] theorem State.setCtx_mapEpoch (k : Nat) (x : Ctx) : (s.setCtx k x).mapEpoch = s.mapEpoch := rfl
@[simp] theorem State.setCtx_mask (k : Nat) (x : Ctx) : (s.setCtx k x).mask = s.mask := rfl
@[simp] theorem State.setCtx_epoch (k : Nat) (x : Ctx) : (s.setCtx k x).epoch = s.epoch := rfl
@[simp] theorem State.setCtx_streq (k : Nat) (x : Ctx) : (s.setCtx k x).streq = s.streq := rfl
@[simp] theorem State.setCtx_meas (k : Nat) (x : Ctx) : (s.setCtx k x).meas = s.meas := rfl
@[simp] theorem State.setCtx_nv (k : Nat) (x : Ctx) : (s.setCtx k x).nv = s.nv := rfl
@[simp] theorem State.setCtx_pkgidNew (k : Nat) (x : Ctx) : (s.setCtx k x).pkgidNew = s.pkgidNew := rfl
@[simp] theorem State.setCtx_pkgid (k : Nat) (x : Ctx) : (s.setCtx k x).pkgid = s.pkgid := rfl
@[simp] theorem State.setCtx_podid (k : Nat) (x : Ctx) : (s.setCtx k x).podid = s.podid := rfl
@[simp] theorem State.setCtx_ipaddr (k : Nat) (x : Ctx) : (s.setCtx k x).ipaddr = s.ipaddr := rfl
@[simp] theorem State.setCtx_ipctl (k : Nat) (x : Ctx) : (s.setCtx k x).ipctl = s.ipctl := rfl
@[simp] theorem State.setCtx_dadEnd (k : Nat) (x : Ctx) : (s.setCtx k x).dadEnd = s.dadEnd := rfl
@[simp] theorem State.setCtx_linkLocal (k : Nat) (x : Ctx) : (s.setCtx k x).linkLocal = s.linkLocal := rfl
@[simp] theorem State.setCtx_hostLanes (k : Nat) (x : Ctx) : (s.setCtx k x).hostLanes = s.hostLanes := rfl
@[simp] theorem State.setCtx_links (k : Nat) (x : Ctx) : (s.setCtx k x).links = s.links := rfl
@[simp] theorem State.setCtx_sessions (k : Nat) (x : Ctx) : (s.setCtx k x).sessions = s.sessions := rfl
@[simp] theorem State.setCtx_handshakes (k : Nat) (x : Ctx) : (s.setCtx k x).handshakes = s.handshakes := rfl
@[simp] theorem State.setCtx_nextSess (k : Nat) (x : Ctx) : (s.setCtx k x).nextSess = s.nextSess := rfl
@[simp] theorem State.setCtx_nonces (k : Nat) (x : Ctx) : (s.setCtx k x).nonces = s.nonces := rfl
@[simp] theorem State.setCtx_owner (k : Nat) (x : Ctx) : (s.setCtx k x).owner = s.owner := rfl
@[simp] theorem State.setCtx_electionEnd (k : Nat) (x : Ctx) : (s.setCtx k x).electionEnd = s.electionEnd := rfl
@[simp] theorem State.setCtx_electionOpen (k : Nat) (x : Ctx) : (s.setCtx k x).electionOpen = s.electionOpen := rfl
@[simp] theorem State.setCtx_electionDone (k : Nat) (x : Ctx) : (s.setCtx k x).electionDone = s.electionDone := rfl
@[simp] theorem State.setCtx_claims (k : Nat) (x : Ctx) : (s.setCtx k x).claims = s.claims := rfl
@[simp] theorem State.setCtx_ownerSeen (k : Nat) (x : Ctx) : (s.setCtx k x).ownerSeen = s.ownerSeen := rfl
@[simp] theorem State.setCtx_authFails (k : Nat) (x : Ctx) : (s.setCtx k x).authFails = s.authFails := rfl
@[simp] theorem State.setCtx_hostOut (k : Nat) (x : Ctx) : (s.setCtx k x).hostOut = s.hostOut := rfl
@[simp] theorem State.setCtx_kettle (k : Nat) (x : Ctx) : (s.setCtx k x).kettle = s.kettle := rfl
@[simp] theorem State.modCtx_eq (k : Nat) (g : Ctx → Ctx) : s.modCtx k g = s.setCtx k (g (s.getCtx k)) := rfl
@[simp] theorem State.getWarp_setCtx (k : Nat) (x : Ctx) (wg w : Nat) : (s.setCtx k x).getWarp wg w = s.getWarp wg w := rfl
@[simp] theorem State.getWg_setCtx (k : Nat) (x : Ctx) (j : Nat) : (s.setCtx k x).getWg j = s.getWg j := rfl
@[simp] theorem State.getCore_setCtx (k : Nat) (x : Ctx) (j : Nat) : (s.setCtx k x).getCore j = s.getCore j := rfl
@[simp] theorem State.getCtx_setCtx_same (k : Nat) (x : Ctx) : (s.setCtx k x).getCtx k = x := by
  simp [State.getCtx, State.setCtx]
@[simp] theorem State.getEng_setCtx (k : Nat) (x : Ctx) (j : Nat) : (s.setCtx k x).getEng j = s.getEng j := rfl
@[simp] theorem State.getLaunch_setCtx (k : Nat) (x : Ctx) (j : Nat) : (s.setCtx k x).getLaunch j = s.getLaunch j := rfl
@[simp] theorem State.now_setCtx (k : Nat) (x : Ctx) : (s.setCtx k x).now = s.now := rfl

/-! ### setEng -/

@[simp] theorem State.setEng_cyc (k : Nat) (x : Eng) : (s.setEng k x).cyc = s.cyc := rfl
@[simp] theorem State.setEng_power (k : Nat) (x : Eng) : (s.setEng k x).power = s.power := rfl
@[simp] theorem State.setEng_level (k : Nat) (x : Eng) : (s.setEng k x).level = s.level := rfl
@[simp] theorem State.setEng_reducedSince (k : Nat) (x : Eng) : (s.setEng k x).reducedSince = s.reducedSince := rfl
@[simp] theorem State.setEng_holds (k : Nat) (x : Eng) : (s.setEng k x).holds = s.holds := rfl
@[simp] theorem State.setEng_held (k : Nat) (x : Eng) : (s.setEng k x).held = s.held := rfl
@[simp] theorem State.setEng_stpass (k : Nat) (x : Eng) : (s.setEng k x).stpass = s.stpass := rfl
@[simp] theorem State.setEng_shockAtPower (k : Nat) (x : Eng) : (s.setEng k x).shockAtPower = s.shockAtPower := rfl
@[simp] theorem State.setEng_agenda (k : Nat) (x : Eng) : (s.setEng k x).agenda = s.agenda := rfl
@[simp] theorem State.setEng_free (k : Nat) (x : Eng) : (s.setEng k x).free = s.free := rfl
@[simp] theorem State.setEng_mem (k : Nat) (x : Eng) : (s.setEng k x).mem = s.mem := rfl
@[simp] theorem State.setEng_memPoison (k : Nat) (x : Eng) : (s.setEng k x).memPoison = s.memPoison := rfl
@[simp] theorem State.setEng_cores (k : Nat) (x : Eng) : (s.setEng k x).cores = s.cores := rfl
@[simp] theorem State.setEng_quadTlb (k : Nat) (x : Eng) : (s.setEng k x).quadTlb = s.quadTlb := rfl
@[simp] theorem State.setEng_dieTlb (k : Nat) (x : Eng) : (s.setEng k x).dieTlb = s.dieTlb := rfl
@[simp] theorem State.setEng_walkCache (k : Nat) (x : Eng) : (s.setEng k x).walkCache = s.walkCache := rfl
@[simp] theorem State.setEng_walks (k : Nat) (x : Eng) : (s.setEng k x).walks = s.walks := rfl
@[simp] theorem State.setEng_invals (k : Nat) (x : Eng) : (s.setEng k x).invals = s.invals := rfl
@[simp] theorem State.setEng_ctxs (k : Nat) (x : Eng) : (s.setEng k x).ctxs = s.ctxs := rfl
@[simp] theorem State.setEng_launches (k : Nat) (x : Eng) : (s.setEng k x).launches = s.launches := rfl
@[simp] theorem State.setEng_nextLid (k : Nat) (x : Eng) : (s.setEng k x).nextLid = s.nextLid := rfl
@[simp] theorem State.setEng_lids (k : Nat) (x : Eng) : (s.setEng k x).lids = s.lids := rfl
@[simp] theorem State.setEng_slots (k : Nat) (x : Eng) : (s.setEng k x).slots = s.slots := rfl
@[simp] theorem State.setEng_wgs (k : Nat) (x : Eng) : (s.setEng k x).wgs = s.wgs := rfl
@[simp] theorem State.setEng_warps (k : Nat) (x : Eng) : (s.setEng k x).warps = s.warps := rfl
@[simp] theorem State.setEng_nextCreated (k : Nat) (x : Eng) : (s.setEng k x).nextCreated = s.nextCreated := rfl
@[simp] theorem State.setEng_engs (k : Nat) (x : Eng) : (s.setEng k x).engs = s.engs.put k x := rfl
@[simp] theorem State.setEng_atomQ (k : Nat) (x : Eng) : (s.setEng k x).atomQ = s.atomQ := rfl
@[simp] theorem State.setEng_holdsLR (k : Nat) (x : Eng) : (s.setEng k x).holdsLR = s.holdsLR := rfl
@[simp] theorem State.setEng_rr (k : Nat) (x : Eng) : (s.setEng k x).rr = s.rr := rfl
@[simp] theorem State.setEng_served (k : Nat) (x : Eng) : (s.setEng k x).served = s.served := rfl
@[simp] theorem State.setEng_cur (k : Nat) (x : Eng) : (s.setEng k x).cur = s.cur := rfl
@[simp] theorem State.setEng_nextLoad (k : Nat) (x : Eng) : (s.setEng k x).nextLoad = s.nextLoad := rfl
@[simp] theorem State.setEng_groups (k : Nat) (x : Eng) : (s.setEng k x).groups = s.groups := rfl
@[simp] theorem State.setEng_plogCount (k : Nat) (x : Eng) : (s.setEng k x).plogCount = s.plogCount := rfl
@[simp] theorem State.setEng_plog (k : Nat) (x : Eng) : (s.setEng k x).plog = s.plog := rfl
@[simp] theorem State.setEng_errs (k : Nat) (x : Eng) : (s.setEng k x).errs = s.errs := rfl
@[simp] theorem State.setEng_cnt (k : Nat) (x : Eng) : (s.setEng k x).cnt = s.cnt := rfl
@[simp] theorem State.setEng_mapbuf (k : Nat) (x : Eng) : (s.setEng k x).mapbuf = s.mapbuf := rfl
@[simp] theorem State.setEng_mapStat (k : Nat) (x : Eng) : (s.setEng k x).mapStat = s.mapStat := rfl
@[simp] theorem State.setEng_mapScan (k : Nat) (x : Eng) : (s.setEng k x).mapScan = s.mapScan := rfl
@[simp] theorem State.setEng_mapNew (k : Nat) (x : Eng) : (s.setEng k x).mapNew = s.mapNew := rfl
@[simp] theorem State.setEng_mapEpoch (k : Nat) (x : Eng) : (s.setEng k x).mapEpoch = s.mapEpoch := rfl
@[simp] theorem State.setEng_mask (k : Nat) (x : Eng) : (s.setEng k x).mask = s.mask := rfl
@[simp] theorem State.setEng_epoch (k : Nat) (x : Eng) : (s.setEng k x).epoch = s.epoch := rfl
@[simp] theorem State.setEng_streq (k : Nat) (x : Eng) : (s.setEng k x).streq = s.streq := rfl
@[simp] theorem State.setEng_meas (k : Nat) (x : Eng) : (s.setEng k x).meas = s.meas := rfl
@[simp] theorem State.setEng_nv (k : Nat) (x : Eng) : (s.setEng k x).nv = s.nv := rfl
@[simp] theorem State.setEng_pkgidNew (k : Nat) (x : Eng) : (s.setEng k x).pkgidNew = s.pkgidNew := rfl
@[simp] theorem State.setEng_pkgid (k : Nat) (x : Eng) : (s.setEng k x).pkgid = s.pkgid := rfl
@[simp] theorem State.setEng_podid (k : Nat) (x : Eng) : (s.setEng k x).podid = s.podid := rfl
@[simp] theorem State.setEng_ipaddr (k : Nat) (x : Eng) : (s.setEng k x).ipaddr = s.ipaddr := rfl
@[simp] theorem State.setEng_ipctl (k : Nat) (x : Eng) : (s.setEng k x).ipctl = s.ipctl := rfl
@[simp] theorem State.setEng_dadEnd (k : Nat) (x : Eng) : (s.setEng k x).dadEnd = s.dadEnd := rfl
@[simp] theorem State.setEng_linkLocal (k : Nat) (x : Eng) : (s.setEng k x).linkLocal = s.linkLocal := rfl
@[simp] theorem State.setEng_hostLanes (k : Nat) (x : Eng) : (s.setEng k x).hostLanes = s.hostLanes := rfl
@[simp] theorem State.setEng_links (k : Nat) (x : Eng) : (s.setEng k x).links = s.links := rfl
@[simp] theorem State.setEng_sessions (k : Nat) (x : Eng) : (s.setEng k x).sessions = s.sessions := rfl
@[simp] theorem State.setEng_handshakes (k : Nat) (x : Eng) : (s.setEng k x).handshakes = s.handshakes := rfl
@[simp] theorem State.setEng_nextSess (k : Nat) (x : Eng) : (s.setEng k x).nextSess = s.nextSess := rfl
@[simp] theorem State.setEng_nonces (k : Nat) (x : Eng) : (s.setEng k x).nonces = s.nonces := rfl
@[simp] theorem State.setEng_owner (k : Nat) (x : Eng) : (s.setEng k x).owner = s.owner := rfl
@[simp] theorem State.setEng_electionEnd (k : Nat) (x : Eng) : (s.setEng k x).electionEnd = s.electionEnd := rfl
@[simp] theorem State.setEng_electionOpen (k : Nat) (x : Eng) : (s.setEng k x).electionOpen = s.electionOpen := rfl
@[simp] theorem State.setEng_electionDone (k : Nat) (x : Eng) : (s.setEng k x).electionDone = s.electionDone := rfl
@[simp] theorem State.setEng_claims (k : Nat) (x : Eng) : (s.setEng k x).claims = s.claims := rfl
@[simp] theorem State.setEng_ownerSeen (k : Nat) (x : Eng) : (s.setEng k x).ownerSeen = s.ownerSeen := rfl
@[simp] theorem State.setEng_authFails (k : Nat) (x : Eng) : (s.setEng k x).authFails = s.authFails := rfl
@[simp] theorem State.setEng_hostOut (k : Nat) (x : Eng) : (s.setEng k x).hostOut = s.hostOut := rfl
@[simp] theorem State.setEng_kettle (k : Nat) (x : Eng) : (s.setEng k x).kettle = s.kettle := rfl
@[simp] theorem State.modEng_eq (k : Nat) (g : Eng → Eng) : s.modEng k g = s.setEng k (g (s.getEng k)) := rfl
@[simp] theorem State.getWarp_setEng (k : Nat) (x : Eng) (wg w : Nat) : (s.setEng k x).getWarp wg w = s.getWarp wg w := rfl
@[simp] theorem State.getWg_setEng (k : Nat) (x : Eng) (j : Nat) : (s.setEng k x).getWg j = s.getWg j := rfl
@[simp] theorem State.getCore_setEng (k : Nat) (x : Eng) (j : Nat) : (s.setEng k x).getCore j = s.getCore j := rfl
@[simp] theorem State.getCtx_setEng (k : Nat) (x : Eng) (j : Nat) : (s.setEng k x).getCtx j = s.getCtx j := rfl
@[simp] theorem State.getEng_setEng_same (k : Nat) (x : Eng) : (s.setEng k x).getEng k = x := by
  simp [State.getEng, State.setEng]
@[simp] theorem State.getLaunch_setEng (k : Nat) (x : Eng) (j : Nat) : (s.setEng k x).getLaunch j = s.getLaunch j := rfl
@[simp] theorem State.now_setEng (k : Nat) (x : Eng) : (s.setEng k x).now = s.now := rfl

/-! ### setLaunch -/

@[simp] theorem State.setLaunch_cyc (k : Nat) (x : Launch) : (s.setLaunch k x).cyc = s.cyc := rfl
@[simp] theorem State.setLaunch_power (k : Nat) (x : Launch) : (s.setLaunch k x).power = s.power := rfl
@[simp] theorem State.setLaunch_level (k : Nat) (x : Launch) : (s.setLaunch k x).level = s.level := rfl
@[simp] theorem State.setLaunch_reducedSince (k : Nat) (x : Launch) : (s.setLaunch k x).reducedSince = s.reducedSince := rfl
@[simp] theorem State.setLaunch_holds (k : Nat) (x : Launch) : (s.setLaunch k x).holds = s.holds := rfl
@[simp] theorem State.setLaunch_held (k : Nat) (x : Launch) : (s.setLaunch k x).held = s.held := rfl
@[simp] theorem State.setLaunch_stpass (k : Nat) (x : Launch) : (s.setLaunch k x).stpass = s.stpass := rfl
@[simp] theorem State.setLaunch_shockAtPower (k : Nat) (x : Launch) : (s.setLaunch k x).shockAtPower = s.shockAtPower := rfl
@[simp] theorem State.setLaunch_agenda (k : Nat) (x : Launch) : (s.setLaunch k x).agenda = s.agenda := rfl
@[simp] theorem State.setLaunch_free (k : Nat) (x : Launch) : (s.setLaunch k x).free = s.free := rfl
@[simp] theorem State.setLaunch_mem (k : Nat) (x : Launch) : (s.setLaunch k x).mem = s.mem := rfl
@[simp] theorem State.setLaunch_memPoison (k : Nat) (x : Launch) : (s.setLaunch k x).memPoison = s.memPoison := rfl
@[simp] theorem State.setLaunch_cores (k : Nat) (x : Launch) : (s.setLaunch k x).cores = s.cores := rfl
@[simp] theorem State.setLaunch_quadTlb (k : Nat) (x : Launch) : (s.setLaunch k x).quadTlb = s.quadTlb := rfl
@[simp] theorem State.setLaunch_dieTlb (k : Nat) (x : Launch) : (s.setLaunch k x).dieTlb = s.dieTlb := rfl
@[simp] theorem State.setLaunch_walkCache (k : Nat) (x : Launch) : (s.setLaunch k x).walkCache = s.walkCache := rfl
@[simp] theorem State.setLaunch_walks (k : Nat) (x : Launch) : (s.setLaunch k x).walks = s.walks := rfl
@[simp] theorem State.setLaunch_invals (k : Nat) (x : Launch) : (s.setLaunch k x).invals = s.invals := rfl
@[simp] theorem State.setLaunch_ctxs (k : Nat) (x : Launch) : (s.setLaunch k x).ctxs = s.ctxs := rfl
@[simp] theorem State.setLaunch_launches (k : Nat) (x : Launch) : (s.setLaunch k x).launches = s.launches.put k x := rfl
@[simp] theorem State.setLaunch_nextLid (k : Nat) (x : Launch) : (s.setLaunch k x).nextLid = s.nextLid := rfl
@[simp] theorem State.setLaunch_lids (k : Nat) (x : Launch) : (s.setLaunch k x).lids = s.lids := rfl
@[simp] theorem State.setLaunch_slots (k : Nat) (x : Launch) : (s.setLaunch k x).slots = s.slots := rfl
@[simp] theorem State.setLaunch_wgs (k : Nat) (x : Launch) : (s.setLaunch k x).wgs = s.wgs := rfl
@[simp] theorem State.setLaunch_warps (k : Nat) (x : Launch) : (s.setLaunch k x).warps = s.warps := rfl
@[simp] theorem State.setLaunch_nextCreated (k : Nat) (x : Launch) : (s.setLaunch k x).nextCreated = s.nextCreated := rfl
@[simp] theorem State.setLaunch_engs (k : Nat) (x : Launch) : (s.setLaunch k x).engs = s.engs := rfl
@[simp] theorem State.setLaunch_atomQ (k : Nat) (x : Launch) : (s.setLaunch k x).atomQ = s.atomQ := rfl
@[simp] theorem State.setLaunch_holdsLR (k : Nat) (x : Launch) : (s.setLaunch k x).holdsLR = s.holdsLR := rfl
@[simp] theorem State.setLaunch_rr (k : Nat) (x : Launch) : (s.setLaunch k x).rr = s.rr := rfl
@[simp] theorem State.setLaunch_served (k : Nat) (x : Launch) : (s.setLaunch k x).served = s.served := rfl
@[simp] theorem State.setLaunch_cur (k : Nat) (x : Launch) : (s.setLaunch k x).cur = s.cur := rfl
@[simp] theorem State.setLaunch_nextLoad (k : Nat) (x : Launch) : (s.setLaunch k x).nextLoad = s.nextLoad := rfl
@[simp] theorem State.setLaunch_groups (k : Nat) (x : Launch) : (s.setLaunch k x).groups = s.groups := rfl
@[simp] theorem State.setLaunch_plogCount (k : Nat) (x : Launch) : (s.setLaunch k x).plogCount = s.plogCount := rfl
@[simp] theorem State.setLaunch_plog (k : Nat) (x : Launch) : (s.setLaunch k x).plog = s.plog := rfl
@[simp] theorem State.setLaunch_errs (k : Nat) (x : Launch) : (s.setLaunch k x).errs = s.errs := rfl
@[simp] theorem State.setLaunch_cnt (k : Nat) (x : Launch) : (s.setLaunch k x).cnt = s.cnt := rfl
@[simp] theorem State.setLaunch_mapbuf (k : Nat) (x : Launch) : (s.setLaunch k x).mapbuf = s.mapbuf := rfl
@[simp] theorem State.setLaunch_mapStat (k : Nat) (x : Launch) : (s.setLaunch k x).mapStat = s.mapStat := rfl
@[simp] theorem State.setLaunch_mapScan (k : Nat) (x : Launch) : (s.setLaunch k x).mapScan = s.mapScan := rfl
@[simp] theorem State.setLaunch_mapNew (k : Nat) (x : Launch) : (s.setLaunch k x).mapNew = s.mapNew := rfl
@[simp] theorem State.setLaunch_mapEpoch (k : Nat) (x : Launch) : (s.setLaunch k x).mapEpoch = s.mapEpoch := rfl
@[simp] theorem State.setLaunch_mask (k : Nat) (x : Launch) : (s.setLaunch k x).mask = s.mask := rfl
@[simp] theorem State.setLaunch_epoch (k : Nat) (x : Launch) : (s.setLaunch k x).epoch = s.epoch := rfl
@[simp] theorem State.setLaunch_streq (k : Nat) (x : Launch) : (s.setLaunch k x).streq = s.streq := rfl
@[simp] theorem State.setLaunch_meas (k : Nat) (x : Launch) : (s.setLaunch k x).meas = s.meas := rfl
@[simp] theorem State.setLaunch_nv (k : Nat) (x : Launch) : (s.setLaunch k x).nv = s.nv := rfl
@[simp] theorem State.setLaunch_pkgidNew (k : Nat) (x : Launch) : (s.setLaunch k x).pkgidNew = s.pkgidNew := rfl
@[simp] theorem State.setLaunch_pkgid (k : Nat) (x : Launch) : (s.setLaunch k x).pkgid = s.pkgid := rfl
@[simp] theorem State.setLaunch_podid (k : Nat) (x : Launch) : (s.setLaunch k x).podid = s.podid := rfl
@[simp] theorem State.setLaunch_ipaddr (k : Nat) (x : Launch) : (s.setLaunch k x).ipaddr = s.ipaddr := rfl
@[simp] theorem State.setLaunch_ipctl (k : Nat) (x : Launch) : (s.setLaunch k x).ipctl = s.ipctl := rfl
@[simp] theorem State.setLaunch_dadEnd (k : Nat) (x : Launch) : (s.setLaunch k x).dadEnd = s.dadEnd := rfl
@[simp] theorem State.setLaunch_linkLocal (k : Nat) (x : Launch) : (s.setLaunch k x).linkLocal = s.linkLocal := rfl
@[simp] theorem State.setLaunch_hostLanes (k : Nat) (x : Launch) : (s.setLaunch k x).hostLanes = s.hostLanes := rfl
@[simp] theorem State.setLaunch_links (k : Nat) (x : Launch) : (s.setLaunch k x).links = s.links := rfl
@[simp] theorem State.setLaunch_sessions (k : Nat) (x : Launch) : (s.setLaunch k x).sessions = s.sessions := rfl
@[simp] theorem State.setLaunch_handshakes (k : Nat) (x : Launch) : (s.setLaunch k x).handshakes = s.handshakes := rfl
@[simp] theorem State.setLaunch_nextSess (k : Nat) (x : Launch) : (s.setLaunch k x).nextSess = s.nextSess := rfl
@[simp] theorem State.setLaunch_nonces (k : Nat) (x : Launch) : (s.setLaunch k x).nonces = s.nonces := rfl
@[simp] theorem State.setLaunch_owner (k : Nat) (x : Launch) : (s.setLaunch k x).owner = s.owner := rfl
@[simp] theorem State.setLaunch_electionEnd (k : Nat) (x : Launch) : (s.setLaunch k x).electionEnd = s.electionEnd := rfl
@[simp] theorem State.setLaunch_electionOpen (k : Nat) (x : Launch) : (s.setLaunch k x).electionOpen = s.electionOpen := rfl
@[simp] theorem State.setLaunch_electionDone (k : Nat) (x : Launch) : (s.setLaunch k x).electionDone = s.electionDone := rfl
@[simp] theorem State.setLaunch_claims (k : Nat) (x : Launch) : (s.setLaunch k x).claims = s.claims := rfl
@[simp] theorem State.setLaunch_ownerSeen (k : Nat) (x : Launch) : (s.setLaunch k x).ownerSeen = s.ownerSeen := rfl
@[simp] theorem State.setLaunch_authFails (k : Nat) (x : Launch) : (s.setLaunch k x).authFails = s.authFails := rfl
@[simp] theorem State.setLaunch_hostOut (k : Nat) (x : Launch) : (s.setLaunch k x).hostOut = s.hostOut := rfl
@[simp] theorem State.setLaunch_kettle (k : Nat) (x : Launch) : (s.setLaunch k x).kettle = s.kettle := rfl
@[simp] theorem State.modLaunch_eq (k : Nat) (g : Launch → Launch) : s.modLaunch k g = s.setLaunch k (g (s.getLaunch k)) := rfl
@[simp] theorem State.getWarp_setLaunch (k : Nat) (x : Launch) (wg w : Nat) : (s.setLaunch k x).getWarp wg w = s.getWarp wg w := rfl
@[simp] theorem State.getWg_setLaunch (k : Nat) (x : Launch) (j : Nat) : (s.setLaunch k x).getWg j = s.getWg j := rfl
@[simp] theorem State.getCore_setLaunch (k : Nat) (x : Launch) (j : Nat) : (s.setLaunch k x).getCore j = s.getCore j := rfl
@[simp] theorem State.getCtx_setLaunch (k : Nat) (x : Launch) (j : Nat) : (s.setLaunch k x).getCtx j = s.getCtx j := rfl
@[simp] theorem State.getEng_setLaunch (k : Nat) (x : Launch) (j : Nat) : (s.setLaunch k x).getEng j = s.getEng j := rfl
@[simp] theorem State.getLaunch_setLaunch_same (k : Nat) (x : Launch) : (s.setLaunch k x).getLaunch k = x := by
  simp [State.getLaunch, State.setLaunch]
@[simp] theorem State.now_setLaunch (k : Nat) (x : Launch) : (s.setLaunch k x).now = s.now := rfl

/-! ### Reading elsewhere -/

theorem State.getWg_setWg_other {j k : Nat} (x : Wg) (h : j ≠ k) : (s.setWg k x).getWg j = s.getWg j := by
  simp [State.getWg, State.setWg, Sparse.get_put_other _ _ _ h]
theorem State.getCore_setCore_other {j k : Nat} (x : Core) (h : j ≠ k) : (s.setCore k x).getCore j = s.getCore j := by
  simp [State.getCore, State.setCore, Sparse.get_put_other _ _ _ h]
theorem State.getCtx_setCtx_other {j k : Nat} (x : Ctx) (h : j ≠ k) : (s.setCtx k x).getCtx j = s.getCtx j := by
  simp [State.getCtx, State.setCtx, Sparse.get_put_other _ _ _ h]
theorem State.getEng_setEng_other {j k : Nat} (x : Eng) (h : j ≠ k) : (s.setEng k x).getEng j = s.getEng j := by
  simp [State.getEng, State.setEng, Sparse.get_put_other _ _ _ h]
theorem State.getLaunch_setLaunch_other {j k : Nat} (x : Launch) (h : j ≠ k) :
    (s.setLaunch k x).getLaunch j = s.getLaunch j := by
  simp [State.getLaunch, State.setLaunch, Sparse.get_put_other _ _ _ h]
/-- Another warp is another key. -/
theorem State.getWarp_setWarp_other {wg w wg' w' : Nat} (x : Warp) (h : warpKey wg' w' ≠ warpKey wg w) :
    (s.setWarp wg w x).getWarp wg' w' = s.getWarp wg' w' := by
  simp [State.getWarp, State.setWarp, Sparse.get_put_other _ _ _ h]

end Sys2Proof.Machine
end

