-- ==== Sys2Proof/Laws/Canonical.lean ====
section
/-! SUPPORT. Memory in its canonical form: for each function that answers a state, that it leaves memory as it was,
or that memory in the canonical form stays in it; up to every meaning, and `exec`. -/

namespace Sys2Proof.Machine

open Sys2Proof

set_option maxRecDepth 10000

/-- Both states of an issue. -/
def Iss.canon (c : Iss) : Prop := Memory.wf c.s.mem = true ∧ Memory.wf c.s0.mem = true
/-- The state of an outcome. -/
def Out.canon (o : Out) : Prop := Memory.wf o.s.mem = true
/-- The state of an engine's step. -/
def EngOut.canon (o : EngOut) : Prop := Memory.wf o.s.mem = true
/-- The state of a native step. -/
def StepOut.canon (o : StepOut) : Prop := Memory.wf o.s.mem = true
/-- The state of a step of OP 0x38. -/
def RunOut.canon (o : RunOut) : Prop := Memory.wf o.s.mem = true
/-- The state that an admitted access leaves. -/
def Acc.canon : Acc → Prop
  | .ok _ s => Memory.wf s.mem = true
  | _ => True
/-- Every state of a result, and what its further effect makes of a canonical one. -/
def Res.canon : Res → Prop
  | .out o => o.canon
  | .outThen o post => o.canon ∧ ∀ s : State, Memory.wf s.mem = true → Memory.wf (post s).mem = true
  | .other s => Memory.wf s.mem = true
  | _ => True
/-- An instruction's own part answers canonical results at canonical issues. -/
def Body.canon (b : Body) : Prop := ∀ c : Iss, c.canon → (b.run c).canon

theorem foldl_mem {α : Type} (f : State → α → State) (l : List α) (s : State) (h : ∀ s a, (f s a).mem = s.mem) :
    (l.foldl f s).mem = s.mem := by
  induction l generalizing s with
  | nil => rfl
  | cons a l ih => rw [List.foldl_cons, ih, h]
theorem foldl_canon {α : Type} (f : State → α → State) (l : List α) (s : State)
    (h : ∀ (s : State) a, Memory.wf s.mem = true → Memory.wf (f s a).mem = true) (hs : Memory.wf s.mem = true) :
    Memory.wf (l.foldl f s).mem = true := by
  induction l generalizing s with
  | nil => exact hs
  | cons a l ih => exact ih _ (h s a hs)
/-- The state of a deterministic test that finds room. -/
def DetTest.canon : DetTest → Prop
  | .ok s => Memory.wf s.mem = true
  | _ => True
/-- The state that a device-made write leaves, or what happens instead. -/
def Put.canon : Put → Prop
  | .done s => Memory.wf s.mem = true
  | .instead s => Memory.wf s.mem = true
  | .fault => True
/-- The state of a deterministic gate. -/
def DetGate.canon : DetGate → Prop
  | .ok s => Memory.wf s.mem = true
  | .other s => Memory.wf s.mem = true
/-- The state that the gate lets on, or holds. -/
def Gate.canon : Gate → Prop
  | .go c => c.canon
  | .hold s => Memory.wf s.mem = true
  | _ => True
theorem fold_inv {α β : Type} (P : β → Prop) (f : β → α → β) (l : List α) (b : β) (h : ∀ b a, P b → P (f b a)) (hb :
    P b) :
    P (l.foldl f b) := by
  induction l generalizing b with
  | nil => exact hb
  | cons a l ih => exact ih _ (h b a hb)
theorem foldlM_canon {α ε : Type} (f : State → α → Except ε State) (l : List α) (s : State)
    (h : ∀ (s : State) a, Memory.wf s.mem = true → ∀ t, f s a = .ok t → Memory.wf t.mem = true) (hs :
        Memory.wf s.mem = true) :
    ∀ t, l.foldlM f s = .ok t → Memory.wf t.mem = true := by
  induction l generalizing s with
  | nil => rintro t ⟨⟩; exact hs
  | cons a l ih =>
    intro t ht
    rw [List.foldlM_cons] at ht
    cases hf : f s a with
    | error e => rw [hf] at ht; cases ht
    | ok u => rw [hf] at ht; exact ih u (h s a hs u hf) t ht
theorem next_canon {s : State} (h : Memory.wf s.mem = true) (t : State) (e : (.next s :
    Host.Outcome State Fault Refusal) = .next t) :
    Memory.wf t.mem = true := by
  cases e; exact h

theorem State.modWarp_mem (s : State) (wg : ℕ) (w : ℕ) (f : Warp → Warp) :
    (State.modWarp s wg w f).mem = s.mem := by rfl
theorem modSession_mem (s : State) (id : ℕ) (f : Session → Session) : (modSession s id f).mem = s.mem := by rfl
theorem sendFrame_mem (s : State) (f : OutFrame) : (sendFrame s f).mem = s.mem := by rfl
theorem respond_mem (s : State) (x : Session) (fr : Frame) (rtype : ℕ) (stat : ℕ) (payload : List Byte) :
    (respond s x fr rtype stat payload).mem = s.mem := by
  unfold respond
  (repeat' split) <;> simp [sendFrame_mem, modSession_mem]
theorem sendAck_mem (s : State) (x : Session) : (sendAck s x).mem = s.mem := by rfl
theorem countApplied_mem (s : State) (id : ℕ) :
    (countApplied s id).mem = s.mem := by grind [countApplied, modSession_mem, sendAck_mem]
theorem duplicate_mem (s : State) (x : Session) (fr : Frame) (isRead : Bool) :
    (duplicate s x fr isRead).mem = s.mem := by
  unfold duplicate
  simp only []
  (repeat' split) <;> first | rfl | (refine foldl_mem _ _ _ ?_; intros; (repeat' split) <;>
      simp [foldl_mem, foldl_canon, sendFrame_mem])
theorem onFrame_canon (fr : Frame) (q : Shape) (act : Session → State → Answer) (s : State) (hact : (∀ (a3 :
    Session) (a4 : State), Memory.wf a4.mem = true → Memory.wf (act a3 a4).2.2.mem = true)) (hs :
    Memory.wf s.mem = true) : Memory.wf (onFrame fr q act s).mem = true := by
  unfold onFrame
  dsimp only
  split
  · exact hs
  · have hm : ∀ (n : ℕ) (f : Session → Session), Memory.wf (modSession s n f).mem = true :=
      fun n f => by rw [modSession_mem]; exact hs
    split
    · exact hm _ _
    · split
      · rw [respond_mem, countApplied_mem]
        (repeat' split) <;> first | exact hs | exact hact _ _ (hm _ _)
      · (repeat' split) <;> first
          | exact hm _ _
          | (rw [duplicate_mem]; exact hm _ _)
          | (rw [sendAck_mem, modSession_mem]; exact hm _ _)
theorem execMalformedFrame_canon (fr : Frame) (s : State) (hs : Memory.wf s.mem = true) :
    (∀ t1, (execMalformedFrame fr s) = .next t1 → Memory.wf t1.mem = true) := by
  refine next_canon ?_
  split
  · exact hs
  · refine onFrame_canon _ _ _ _ ?_ hs
    intro x t h
    grind (splits := 8) [onFrame_canon, Acc.canon, DetTest.canon, Put.canon, DetGate.canon, Gate.canon, Iss.canon,
        Out.canon, EngOut.canon, StepOut.canon, RunOut.canon, Res.canon, Body.canon]
theorem issueOf_canon (s : State) (cur : Cursor) (w : Warp) (e : Entry) (f : Fields) (op : ℕ) (fn : ℕ) (hs :
    Memory.wf s.mem = true) : (issueOf s cur w e f op fn).canon := by
  unfold issueOf
  (repeat' split) <;> simp +contextual [hs, Iss.canon]
theorem issuing_canon (s : State) (i : Instr) (hs : Memory.wf s.mem = true) :
    (∀ t1, (issuing s i) = some t1 → t1.canon) := by
  unfold issuing
  dsimp only
  split
  · intro t h
    obtain ⟨e, -, rfl⟩ := Option.map_eq_some_iff.mp h
    exact issueOf_canon _ _ _ _ _ _ _ hs
  · exact fun _ h => (nomatch h)
theorem State.modCore_mem (s : State) (p : ℕ) (f : Core → Core) : (State.modCore s p f).mem = s.mem := by rfl
theorem walk_mem (s : State) (die : ℕ) (asid : ℕ) (va : ℕ) : (walk s die asid va).2.mem = s.mem := by
  unfold walk
  (repeat' split) <;> simp []
theorem translate_mem (s : State) (p : ℕ) (asid : ℕ) (va : ℕ) :
    (translate s p asid va).2.mem = s.mem := by grind [translate, State.modCore_mem, walk_mem]
theorem translatePart_mem (s : State) (p : ℕ) (asid : ℕ) (r : Right) (modeS : Bool) (maint : Bool) (x : Part) :
    (translatePart s p asid r modeS maint x).2.mem = s.mem := by grind [translatePart, translate_mem]
theorem translateParts_mem (s : State) (p asid : ℕ) (r : Right) (modeS maint : Bool) (ps : List Part) :
    (translateParts s p asid r modeS maint ps).2.2.mem = s.mem := by
  induction ps generalizing s with
  | nil => rfl
  | cons x xs ih =>
    have h := translatePart_mem s p asid r modeS maint x
    unfold translateParts
    split <;> rename_i he <;> rw [he] at h <;> exact (ih _).trans h
theorem deliver_canon (core : ℕ) (wait : EntryWait) (ts : List TPart) (s : State) (hs : Memory.wf s.mem = true) :
    (deliver core wait ts s).canon := by
  unfold deliver
  (repeat' split) <;> simp +contextual [hs, Acc.canon]
theorem Iss.reach_canon (c : Iss) (s : State) (r : Right) (obj : Bool) (ps : List Part) (hc : c.canon) (hs :
    Memory.wf s.mem = true) : (Iss.reach c s r obj ps).canon := by
  unfold Iss.reach
  grind (splits := 6) [translateParts_mem, deliver_canon, Acc.canon, DetTest.canon, Put.canon, DetGate.canon,
      Gate.canon, Iss.canon, Out.canon, EngOut.canon, StepOut.canon, RunOut.canon, Res.canon, Body.canon]
theorem Iss.access_canon (c : Iss) (s : State) (r : Right) (obj : Bool) (ps : List Part) (hc : c.canon) (hs :
    Memory.wf s.mem = true) : (Iss.access c s r obj ps).canon := by
  unfold Iss.access
  grind (splits := 6) [Iss.reach_canon, Acc.canon, DetTest.canon, Put.canon, DetGate.canon, Gate.canon, Iss.canon,
      Out.canon, EngOut.canon, StepOut.canon, RunOut.canon, Res.canon, Body.canon]
theorem l1Fill_mem (s : State) (p : ℕ) (pa : ℕ) (asid : ℕ) (va : ℕ) : (l1Fill s p pa asid va).mem = s.mem := by rfl
theorem hubRegWrite_mem (s : State) (off : ℕ) (v : ℕ) : (hubRegWrite s off v).mem = s.mem := by
  unfold hubRegWrite
  (repeat' split) <;> simp []
theorem hubWrite_mem (s : State) (off : ℕ) (bs : List Byte) :
    (hubWrite s off bs).mem = s.mem := by simp [hubWrite, foldl_mem, hubRegWrite_mem]
theorem l2Write_canon (s : State) (pa : ℕ) (bs : List Byte) (hs : Memory.wf s.mem = true) :
    Memory.wf (l2Write s pa bs).mem = true := by
  cases h : ownHub s pa with
  | true => unfold l2Write; rw [if_pos h, hubWrite_mem]; exact hs
  | false =>
    obtain ⟨w, mp, e⟩ := l2Write_shape s pa bs h
    rw [e]
    exact memSets_wf _ _ _ hs
theorem l2Merge_canon (s : State) (pa : ℕ) (x : Byte) (mask : Byte) (hs : Memory.wf s.mem = true) :
    Memory.wf (l2Merge s pa x mask).mem = true := by
  unfold l2Merge
  (repeat' split) <;> simp +contextual [l2Write_canon, hs]
theorem writeback_canon (s : State) (p : ℕ) (inB : ℕ → Bool) (hs : Memory.wf s.mem = true) :
    Memory.wf (writeback s p inB).mem = true := by
  simp +contextual [writeback, foldl_canon, l2Merge_canon, hs]
theorem dropLines_canon (s : State) (p : ℕ) (inB : ℕ → Bool) (hs : Memory.wf s.mem = true) :
    Memory.wf (dropLines s p inB).mem = true := by
  simp +contextual [dropLines, writeback_canon, hs]
theorem l1Room_canon (s : State) (p : ℕ) (line : ℕ) (hs : Memory.wf s.mem = true) :
    (∀ t1, (l1Room s p line) = some t1 → Memory.wf t1.mem = true) := by
  unfold l1Room
  grind (splits := 6) [dropLines_canon, Acc.canon, DetTest.canon, Put.canon, DetGate.canon, Gate.canon, Iss.canon,
      Out.canon, EngOut.canon, StepOut.canon, RunOut.canon, Res.canon, Body.canon]
theorem l1Load_canon (s : State) (p : ℕ) (pa : ℕ) (n : ℕ) (hint : ℕ) (mt : ℕ) (asid : ℕ) (va : ℕ) (hs :
    Memory.wf s.mem = true) : Memory.wf (l1Load s p pa n hint mt asid va).mem = true := by
  have fill : ∀ u : State, Memory.wf u.mem = true → Memory.wf (((List.range n).foldl (fun s i =>
      if (pa + i) % 32 = 0 || i = 0 then l1Fill s p (pa + i) asid (va + i) else s) u).mem) = true := fun u hu => by
    refine foldl_canon _ _ _ (fun s a h => ?_) hu
    split
    · rw [l1Fill_mem]; exact h
    · exact h
  unfold l1Load
  dsimp only
  split
  · split
    · exact fill _ hs
    · exact hs
  · split
    · cases hr : l1Room s p (pa / 128) with
      | none => exact hs
      | some u => exact fill _ (l1Room_canon _ _ _ hs _ hr)
    · exact hs
theorem weakRead_canon (s : State) (wg : ℕ) (p : ℕ) (hint : ℕ) (t : TPart) (hs : Memory.wf s.mem = true) :
    Memory.wf (weakRead s wg p hint t).2.2.mem = true := by
  unfold weakRead
  grind (splits := 6) [l1Load_canon, Acc.canon, DetTest.canon, Put.canon, DetGate.canon, Gate.canon, Iss.canon,
      Out.canon, EngOut.canon, StepOut.canon, RunOut.canon, Res.canon, Body.canon]
theorem readParts_canon (s : State) (wg : ℕ) (core : ℕ) (hint : ℕ) (ts : List TPart) (hs : Memory.wf s.mem = true) :
    Memory.wf (readParts s wg core hint ts).2.2.mem = true := by
  unfold readParts
  exact fold_inv (fun a : List Byte × Bool × State => Memory.wf a.2.2.mem = true) _ _ _ (fun a t h =>
      weakRead_canon _ _ _ _ _ h) hs
theorem takeStream_canon (c : Iss) (s : State) (n : ℕ) (hc : c.canon) (hs : Memory.wf s.mem = true) :
    (∀ t1, (takeStream c s n) = .error t1 → t1.canon) ∧ (∀ t2, (takeStream c s n) = .ok t2 →
    Memory.wf t2.2.mem = true) := by
  have ha := Iss.access_canon c s rightR false
    (((streamRanges (c.warp.stream n) (c.slot (c.warp.stream n).fs).W (c.slot (c.warp.stream n).fs).L c.act).map
      (fun r => bitParts r.1 r.2.1 r.2.2)).flatten) hc hs
  unfold takeStream
  dsimp only
  split
  · rename_i he
    rw [he] at ha
    refine ⟨fun _ h => (nomatch h), fun t h => ?_⟩
    cases h
    rw [State.modWarp_mem]
    exact fold_inv (fun a : List (ℕ × ℕ × ℕ × Bool) × State => Memory.wf a.2.mem = true) _ _ _ (fun a t h =>
        readParts_canon _ _ _ _ _ h) ha
  · refine ⟨fun t h => ?_, fun _ h => (nomatch h)⟩
    cases h
    exact ha
theorem takeStreams_canon (c : Iss) (ns : List ℕ) (hc : c.canon) :
    (∀ t1, (takeStreams c ns) = .error t1 → t1.1.canon ∧ t1.2.canon) ∧ (∀ t2, (takeStreams c ns) = .ok t2 →
        t2.canon) := by
  induction ns generalizing c with
  | nil => exact ⟨fun _ h => (nomatch h), fun t h => by cases h; exact hc⟩
  | cons n ns ih =>
    have ha := takeStream_canon c c.s n hc hc.1
    unfold takeStreams
    split <;> rename_i he
    · exact ih _ ⟨ha.2 _ he, hc.2⟩
    · exact ⟨fun t h => by cases h; exact ⟨ha.1 _ he, hc⟩, fun _ h => (nomatch h)⟩
theorem holdRemote_canon (c : Iss) (w : EntryWait) (hc : c.canon) : Memory.wf (holdRemote c w).mem = true := by
  unfold holdRemote
  grind [State.modWarp_mem, Acc.canon, DetTest.canon, DetGate.canon, Gate.canon, Iss.canon, Out.canon, EngOut.canon,
      StepOut.canon, RunOut.canon, Res.canon, Body.canon]
theorem retry_canon (c : Iss) (hc : c.canon) : Memory.wf (retry c).mem = true := by
  unfold retry
  grind [State.modWarp_mem, Acc.canon, DetTest.canon, DetGate.canon, Gate.canon, Iss.canon, Out.canon, EngOut.canon,
      StepOut.canon, RunOut.canon, Res.canon, Body.canon]
theorem endHolds_mem (s : State) (wg : ℕ) (w : ℕ) (x : Warp) (ls : List ℕ) :
    (endHolds s wg w x ls).mem = s.mem := by rfl
theorem parkOnHandle_canon (c : Iss) (reg : ℕ) (hc : c.canon) : Memory.wf (parkOnHandle c reg).mem = true := by
  unfold parkOnHandle
  grind [State.modWarp_mem, endHolds_mem, Acc.canon, DetTest.canon, DetGate.canon, Gate.canon, Iss.canon, Out.canon,
      EngOut.canon, StepOut.canon, RunOut.canon, Res.canon, Body.canon]
theorem sendWritebacks_mem (s : State) (p : ℕ) (inB : ℕ → Bool) : (sendWritebacks s p inB).mem = s.mem := by rfl
theorem dropAll_canon (s : State) (p : ℕ) (hs : Memory.wf s.mem = true) : Memory.wf (dropAll s p).mem = true := by
  simp +contextual [dropAll, dropLines_canon, hs]
theorem handleGate_canon (c : Iss) (i : Instr) (hc : c.canon) : (handleGate c i).canon := by
  unfold handleGate
  grind (splits := 6) [parkOnHandle_canon, sendWritebacks_mem, retry_canon, dropAll_canon, Acc.canon, DetTest.canon,
      Put.canon, DetGate.canon, Gate.canon, Iss.canon, Out.canon, EngOut.canon, StepOut.canon, RunOut.canon,
      Res.canon, Body.canon]
theorem gate_canon (c : Iss) (i : Instr) (b : Body) (hc : c.canon) (hb : b.canon) : (gate c i b).canon := by
  unfold gate
  split
  · trivial
  · split
    · exact hc
    · split
      · trivial
      · dsimp only
        have ht : ∀ x, (if (streamFails c i).any (fun x => x.reason = 0x11) then .error (.later, c) else takeStreams
            c (inputStreams i)) = x →
            (∀ t, x = .error t → t.2.canon) ∧ (∀ t, x = .ok t → t.canon) := by
          rintro x rfl
          split
          · exact ⟨fun t h => by cases h; exact hc, fun _ h => (nomatch h)⟩
          · exact ⟨fun t h => ((takeStreams_canon c _ hc).1 t h).2, (takeStreams_canon c _ hc).2⟩
        have ht := ht _ rfl
        split <;> rename_i he
        · split
          · trivial
          · split
            · trivial
            · exact holdRemote_canon c _ hc
            · exact retry_canon c hc
        · split
          · trivial
          · split
            · trivial
            · exact handleGate_canon _ _ (ht.2 _ he)
theorem writePlog_mem (s : State) (r : ErrRec) : (writePlog s r).mem = s.mem := by rfl
theorem kettleWrite_canon (s : State) (asid : ℕ) (va : ℕ) (bs : List Byte) (hs : Memory.wf s.mem = true) :
    (∀ t1, (kettleWrite s asid va bs) = some t1 → Memory.wf t1.mem = true) := by
  unfold kettleWrite
  split
  · rintro t ⟨⟩
    refine foldl_canon _ _ _ (fun s a h => ?_) hs
    dsimp only
    split
    · exact l2Write_canon _ _ _ h
    · exact h
  · exact fun _ h => (nomatch h)
theorem writeRecord_canon (s : State) (r : ErrRec) (hs : Memory.wf s.mem = true) :
    Memory.wf (writeRecord s r).mem = true := by
  unfold writeRecord
  have hp := fun r => writePlog_mem s r
  split
  · rw [hp]; exact hs
  · dsimp only
    split
    · rw [hp]; exact hs
    · split
      · rw [hp]; exact hs
      · split
        · rw [hp]; exact hs
        · rename_i he
          have h1 := kettleWrite_canon _ _ _ _ hs _ he
          rename_i s'
          refine (?_ : ∀ o : Option State, (∀ t, o = some t → Memory.wf t.mem = true) →
              Memory.wf (o.getD s').mem = true)
            _ (kettleWrite_canon _ _ _ _ h1)
          intro o ho
          cases o with
          | none => exact h1
          | some t => exact ho t rfl
theorem poisonedTable_canon (s : State) (wg : ℕ) (t : Trap) (hs : Memory.wf s.mem = true) :
    Memory.wf (poisonedTable s wg t).mem = true := by
  unfold poisonedTable
  (repeat' split) <;> simp +contextual [writeRecord_canon, hs]
theorem cancelCommands_mem (s : State) (wg : ℕ) : (cancelCommands s wg).mem = s.mem := by rfl
theorem State.modWg_mem (s : State) (k : ℕ) (f : Wg → Wg) : (State.modWg s k f).mem = s.mem := by rfl
theorem State.modLaunch_mem (s : State) (l : ℕ) (f : Launch → Launch) : (State.modLaunch s l f).mem = s.mem := by rfl
theorem leaveBar_canon (s : State) (wg : ℕ) (sco : ℕ) (n : ℕ) (ph : ℕ) (hs : Memory.wf s.mem = true) :
    Memory.wf (leaveBar s wg sco n ph).mem = true := by
  unfold leaveBar
  (repeat' split) <;> simp +contextual [foldl_canon, dropAll_canon, hs]
theorem releaseBar_canon (s : State) (wg : ℕ) (sco : ℕ) (n : ℕ) (hs : Memory.wf s.mem = true) :
    Memory.wf (releaseBar s wg sco n).mem = true := by
  unfold releaseBar
  grind (splits := 6) [State.setWg_mem, sendWritebacks_mem, leaveBar_canon, Acc.canon, DetTest.canon, Put.canon,
      DetGate.canon, Gate.canon, Iss.canon, Out.canon, EngOut.canon, StepOut.canon, RunOut.canon, Res.canon, Body.canon]
theorem newInterval_mem (s : State) (lslot : ℕ) : (newInterval s lslot).mem = s.mem := by
  unfold newInterval
  simp only []
  (repeat' split) <;> first | rfl | (refine foldl_mem _ _ _ ?_; intros; (repeat' split) <;> simp [State.setWg_mem])
theorem gbarTry_canon (s : State) (lslot : ℕ) (sco : ℕ) (inst : ℕ) (n : ℕ) (hs : Memory.wf s.mem = true) :
    Memory.wf (gbarTry s lslot sco inst n).mem = true := by
  unfold gbarTry
  dsimp only
  split
  · refine foldl_canon _ _ _ (fun s a h => releaseBar_canon _ _ _ _ h) ?_
    split
    · rw [newInterval_mem]; exact hs
    · exact hs
  · exact hs
theorem barTry_canon (s : State) (wg : ℕ) (sco : ℕ) (n : ℕ) (hs : Memory.wf s.mem = true) :
    Memory.wf (barTry s wg sco n).mem = true := by
  unfold barTry
  grind [releaseBar_canon, State.modWg_mem, State.modLaunch_mem, gbarTry_canon, Acc.canon, DetTest.canon,
      DetGate.canon, Gate.canon, Iss.canon, Out.canon, EngOut.canon, StepOut.canon, RunOut.canon, Res.canon, Body.canon]
theorem barsRecheck_canon (s : State) (wg : ℕ) (hs : Memory.wf s.mem = true) :
    Memory.wf (barsRecheck s wg).mem = true := by
  unfold barsRecheck
  (repeat' (first | split | (refine foldl_canon _ _ _ (fun _ _ _ => ?_) ?_))) <;>
      grind [barTry_canon, gbarTry_canon, Acc.canon, DetTest.canon, DetGate.canon, Gate.canon, Iss.canon, Out.canon,
      EngOut.canon, StepOut.canon, RunOut.canon, Res.canon, Body.canon]
theorem endWorkgroup_canon (s : State) (wg : ℕ) (r : ErrRec) (hs : Memory.wf s.mem = true) :
    Memory.wf (endWorkgroup s wg r).mem = true := by
  unfold endWorkgroup
  dsimp only
  split
  · exact hs
  · refine barsRecheck_canon _ _ ?_
    rw [State.modLaunch_mem]
    dsimp only
    rw [foldl_mem _ _ _ (fun s a => State.modWarp_mem ..), State.modWg_mem]
    split
    · rw [cancelCommands_mem]; exact hs
    · refine writeRecord_canon _ _ ?_
      rw [cancelCommands_mem]
      exact hs
theorem failLaunch_canon (s : State) (lslot : ℕ) (r : ErrRec) (hs : Memory.wf s.mem = true) :
    Memory.wf (failLaunch s lslot r).mem = true := by
  unfold failLaunch
  (repeat' split) <;> simp +contextual [foldl_canon, writeRecord_canon, endWorkgroup_canon, hs]
theorem savePre_canon (s : State) (lslot : ℕ) (sector : ℕ) (hs : Memory.wf s.mem = true) :
    (∀ t1, (savePre s lslot sector) = some t1 → Memory.wf t1.mem = true) := by
  unfold savePre
  grind [State.setLaunch_mem, Acc.canon, DetTest.canon, DetGate.canon, Gate.canon, Iss.canon, Out.canon,
      EngOut.canon, StepOut.canon, RunOut.canon, Res.canon, Body.canon]
theorem savePres_canon (s : State) (lslot : ℕ) (xs : List ℕ) (hs : Memory.wf s.mem = true) :
    ∀ t, savePres s lslot xs = some t → Memory.wf t.mem = true := by
  induction xs generalizing s with
  | nil => rintro t ⟨⟩; exact hs
  | cons x xs ih =>
    unfold savePres
    split
    · rename_i he; exact ih _ (savePre_canon _ _ _ hs _ he)
    · exact fun _ h => (nomatch h)
theorem detTest_canon (s : State) (wg : ℕ) (ts : List TPart) (reds : ℕ) (hs : Memory.wf s.mem = true) :
    (detTest s wg ts reds).canon := by
  unfold detTest
  grind [savePres_canon, Acc.canon, DetTest.canon, DetGate.canon, Gate.canon, Iss.canon, Out.canon, EngOut.canon,
      StepOut.canon, RunOut.canon, Res.canon, Body.canon]
theorem holdFull_mem (s : State) (wg : ℕ) : (holdFull s wg).mem = s.mem := by rfl
theorem detRoom_canon (s : State) (wg : ℕ) (ts : List TPart) (hs : Memory.wf s.mem = true) :
    (∀ t1, (detRoom s wg ts) = .error t1 → Memory.wf t1.mem = true) ∧ (∀ t2, (detRoom s wg ts) = .ok t2 →
    Memory.wf t2.mem = true) := by
  unfold detRoom
  grind (splits := 6) [failLaunch_canon, detTest_canon, holdFull_mem, Acc.canon, DetTest.canon, Put.canon,
      DetGate.canon, Gate.canon, Iss.canon, Out.canon, EngOut.canon, StepOut.canon, RunOut.canon, Res.canon, Body.canon]
theorem detWrite_canon (s : State) (wg : ℕ) (t : TPart) (bs : List (Byte × Byte)) (hs : Memory.wf s.mem = true) :
    Memory.wf (detWrite s wg t bs).mem = true := by
  unfold detWrite
  dsimp only
  have hf : ∀ (s : State) (x : Wg → Wg), Memory.wf s.mem = true → Memory.wf ((granules t.pa bs.length).foldl
      (fun s g => clearResv s (g * 32) (· = wg)) (s.modWg wg x)).mem = true := by
    intro s x h
    rw [foldl_mem _ _ _ (fun s a => clearResv_mem ..), State.modWg_mem]
    exact h
  split
  · refine foldl_canon _ _ _ (fun s a h => ?_) (hf _ _ hs)
    split
    · exact h
    · refine l2Write_canon _ _ _ ?_
      rw [State.modLaunch_mem]; exact h
  · exact hf _ _ hs
theorem mergeBytes_canon (s : State) (pa : ℕ) (bs : List (Byte × Byte)) (hs : Memory.wf s.mem = true) :
    Memory.wf (mergeBytes s pa bs).mem = true := by
  unfold mergeBytes
  (repeat' split) <;> simp +contextual [foldl_canon, l2Write_canon, l2Merge_canon, hs]
theorem l1Put_mem (s : State) (p : ℕ) (pa : ℕ) (bs : List (Byte × Byte)) (asid : ℕ) (va : ℕ) :
    (l1Put s p pa bs asid va).mem = s.mem := by rfl
theorem l1Store_canon (s : State) (p : ℕ) (pa : ℕ) (bs : List (Byte × Byte)) (hint : ℕ) (mt : ℕ) (asid : ℕ) (va : ℕ)
    (hs : Memory.wf s.mem = true) : Memory.wf (l1Store s p pa bs hint mt asid va).mem = true := by
  unfold l1Store
  grind (splits := 6) [l1Put_mem, l1Room_canon, mergeBytes_canon, Acc.canon, DetTest.canon, Put.canon, DetGate.canon,
      Gate.canon, Iss.canon, Out.canon, EngOut.canon, StepOut.canon, RunOut.canon, Res.canon, Body.canon]
theorem weakWrite_canon (s : State) (wg : ℕ) (p : ℕ) (hint : ℕ) (t : TPart) (bs : List (Byte × Byte)) (hs :
    Memory.wf s.mem = true) : Memory.wf (weakWrite s wg p hint t bs).mem = true := by
  unfold weakWrite
  grind (splits := 6) [detWrite_canon, mergeBytes_canon, l1Store_canon, Acc.canon, DetTest.canon, Put.canon,
      DetGate.canon, Gate.canon, Iss.canon, Out.canon, EngOut.canon, StepOut.canon, RunOut.canon, Res.canon, Body.canon]
theorem superWrite_canon (s : State) (wg : ℕ) (va : ℕ) (bs : List Byte) (hs : Memory.wf s.mem = true) :
    (superWrite s wg va bs).canon := by
  unfold superWrite
  dsimp only
  have h := translateParts_mem s (s.getWg wg).core (s.wgAsid wg) rightW true true (lineParts va bs.length)
  split <;> rename_i he
  · rw [he] at h
    rw [← h] at hs
    split <;> rename_i hd
    · exact (detRoom_canon _ _ _ hs).1 _ hd
    · exact foldl_canon _ _ _ (fun s a h => weakWrite_canon _ _ _ _ _ _ h) ((detRoom_canon _ _ _ hs).2 _ hd)
  · trivial
theorem poisonBlock_mem (s : State) (pa : ℕ) : (poisonBlock s pa).mem = s.mem := by rfl
theorem poisonSaved_canon (s : State) (wg : ℕ) (vas : List ℕ) (hs : Memory.wf s.mem = true) :
    Memory.wf (poisonSaved s wg vas).mem = true := by
  unfold poisonSaved
  refine foldl_canon _ _ _ (fun t va h => ?_) hs
  have hm := translatePart_mem t (s.getWg wg).core (t.wgAsid wg) rightW true true ⟨0, va % 2 ^ 80, 4⟩
  split <;> rename_i he <;> rw [he] at hm <;> rw [← hm] at h
  · rw [poisonBlock_mem]; exact dropLines_canon _ _ _ h
  · exact h
theorem takeTrap_canon (s : State) (wg : ℕ) (w : ℕ) (pc : Va) (amask : LaneSet) (rpc : ℕ) (t : Trap) (held : Bool)
    (hs : Memory.wf s.mem = true) : Memory.wf (takeTrap s wg w pc amask rpc t held).mem = true := by
  unfold takeTrap
  grind (splits := 6) [poisonedTable_canon, State.modWarp_mem, endWorkgroup_canon, superWrite_canon,
      poisonSaved_canon, Acc.canon, DetTest.canon, Put.canon, DetGate.canon, Gate.canon, Iss.canon, Out.canon,
      EngOut.canon, StepOut.canon, RunOut.canon, Res.canon, Body.canon]
theorem trapNow_canon (c : Iss) (t : Trap) (next : Bool) (hc : c.canon) : Memory.wf (trapNow c t next).mem = true := by
  unfold trapNow
  grind [retry_canon, takeTrap_canon, Acc.canon, DetTest.canon, DetGate.canon, Gate.canon, Iss.canon, Out.canon,
      EngOut.canon, StepOut.canon, RunOut.canon, Res.canon, Body.canon]
theorem commit_canon (c : Iss) (i : Instr) (b : Body) (o : Out) (hc : c.canon) (hb : b.canon) (ho : o.canon) :
    Memory.wf (commit c i b o).mem = true := by
  unfold commit
  grind [endHolds_mem, State.modWarp_mem, Iss.canon, Out.canon, Res.canon, Body.canon]
theorem settleDeadlock_canon (s : State) (wg : ℕ) (w : ℕ) (hs : Memory.wf s.mem = true) :
    Memory.wf (settleDeadlock s wg w).mem = true := by
  unfold settleDeadlock
  grind [State.setWarp_mem, takeTrap_canon, Acc.canon, DetTest.canon, DetGate.canon, Gate.canon, Iss.canon,
      Out.canon, EngOut.canon, StepOut.canon, RunOut.canon, Res.canon, Body.canon]
theorem issue_canon (i : Instr) (b : Body) (s : State) (hb : b.canon) (hs : Memory.wf s.mem = true) :
    Memory.wf (issue i b s).mem = true := by
  unfold issue
  grind [issuing_canon, gate_canon, trapNow_canon, commit_canon, retry_canon, settleDeadlock_canon, Gate.canon,
      Iss.canon, Out.canon, Res.canon, Body.canon]
theorem Acc.stop_canon (a : Acc) (c : Iss) (ha : a.canon) (hc : c.canon) : (Acc.stop a c).canon := by
  unfold Acc.stop
  grind (splits := 6) [holdRemote_canon, Acc.canon, Iss.canon, Out.canon, Res.canon]
theorem reserveAppend_canon (c : Iss) (s : State) (n : ℕ) (lanes : List ℕ) (hc : c.canon) (hs :
    Memory.wf s.mem = true) : (∀ t1, (reserveAppend c s n lanes) = .error t1 → t1.canon) ∧
    (∀ t2, (reserveAppend c s n lanes) = .ok t2 → Memory.wf t2.2.2.mem = true) := by
  unfold reserveAppend
  grind (splits := 6) [Iss.access_canon, State.modWarp_mem, Acc.stop_canon, Acc.canon, Iss.canon, Out.canon, Res.canon]
theorem detGate_canon (c : Iss) (s : State) (ts : List TPart) (reds : ℕ) (hc : c.canon) (hs :
    Memory.wf s.mem = true) : (detGate c s ts reds).canon := by
  unfold detGate
  grind (splits := 6) [retry_canon, detTest_canon, State.modWarp_mem, holdFull_mem, failLaunch_canon, Acc.canon,
      DetTest.canon, Put.canon, DetGate.canon, Gate.canon, Iss.canon, Out.canon, EngOut.canon, StepOut.canon,
      RunOut.canon, Res.canon, Body.canon]
theorem poisonPuts_canon (s : State) (core : ℕ) (ps : List LatePut) (hs : Memory.wf s.mem = true) :
    Memory.wf (poisonPuts s core ps).mem = true := by
  simp +contextual [poisonPuts, foldl_canon, dropLines_canon, poisonBlock_mem, hs]
theorem scopedWrite_canon (s : State) (wg : ℕ) (p : ℕ) (sco : ℕ) (hint : ℕ) (t : TPart) (bs : List (Byte × Byte))
    (hs : Memory.wf s.mem = true) : Memory.wf (scopedWrite s wg p sco hint t bs).mem = true := by
  unfold scopedWrite
  grind (splits := 6) [detWrite_canon, weakWrite_canon, writeback_canon, mergeBytes_canon, dropLines_canon,
      Acc.canon, DetTest.canon, Put.canon, DetGate.canon, Gate.canon, Iss.canon, Out.canon, EngOut.canon,
      StepOut.canon, RunOut.canon, Res.canon, Body.canon]
theorem storeParts_canon (s : State) (wg : ℕ) (w : ℕ) (core : ℕ) (idx : ℕ) (sco : ℕ) (hint : ℕ) (ts :
    List TPart) (bs : List (Byte × Byte)) (hs : Memory.wf s.mem = true) :
    Memory.wf (storeParts s wg w core idx sco hint ts bs).1.mem = true := by
  unfold storeParts
  refine fold_inv (fun a : State × Nat × List (Byte × Byte) => Memory.wf a.1.mem = true) _ _ _ (fun a t h => ?_) hs
  dsimp only
  split
  · exact h
  · dsimp only
    split
    · exact weakWrite_canon _ _ _ _ _ _ h
    · exact scopedWrite_canon _ _ _ _ _ _ _ h
theorem addHash_mem (s : State) (wg : ℕ) (va : ℕ) (bs : List Byte) : (addHash s wg va bs).mem = s.mem := by rfl
theorem hashMasked_mem (s : State) (wg : ℕ) (va : ℕ) (bs : List (Byte × Byte)) :
    (hashMasked s wg va bs).mem = s.mem := by rfl
theorem fillPuts_canon (s : State) (wg : ℕ) (w : ℕ) (core : ℕ) (idx : ℕ) (lane : ℕ) (ps : List LatePut) (x : ℕ) (hs :
    Memory.wf s.mem = true) : Memory.wf (fillPuts s wg w core idx lane ps x).1.mem = true := by
  unfold fillPuts
  dsimp only
  refine fold_inv (fun a : State × Nat × Nat => Memory.wf a.1.mem = true) _ _ _ (fun a t h => ?_) hs
  dsimp only
  rw [hashMasked_mem]
  exact storeParts_canon _ _ _ _ _ _ _ _ _ h
theorem appendStream_canon (c : Iss) (o : Out) (n : ℕ) (vals : List (ℕ × Option ℕ)) (hc : c.canon) (ho : o.canon) :
    (appendStream c o n vals).canon := by
  have hr := reserveAppend_canon c o.s n (vals.map (·.1)) hc ho
  unfold appendStream
  split <;> rename_i he
  · exact hr.1 _ he
  · rename_i ts s'
    have hd := detGate_canon c s' ts 0 hc (hr.2 _ he)
    split <;> rename_i he' <;> rw [he'] at hd
    · exact hd
    · refine fold_inv (fun a : State × Nat => Memory.wf a.1.mem = true) _ _ _ (fun a t h => ?_) hd
      dsimp only
      split
      · exact poisonPuts_canon _ _ _ h
      · exact fillPuts_canon _ _ _ _ _ _ _ _ h
theorem putD_canon (c : Iss) (o : Out) (wide : Bool) (vals : List (ℕ × ℕ)) (hc : c.canon) (ho : o.canon) :
    (putD c o wide vals).canon := by
  unfold putD
  dsimp only
  split
  · exact appendStream_canon c o _ _ hc ho
  · exact ho
theorem laneBody_canon (wide : Iss → Bool) (f : Iss → ℕ → ℕ) : (laneBody wide f).canon := by
  unfold laneBody
  grind [putD_canon, Iss.canon, Out.canon, Res.canon, Body.canon]
theorem intBody_canon (x : Iss → ℕ → ℤ) : (intBody x).canon := by
  simp +contextual [intBody, laneBody_canon]
theorem execIadd_canon (f : Fields) (s : State) (hs : Memory.wf s.mem = true) :
    (∀ t1, (execIadd f s) = .next t1 → Memory.wf t1.mem = true) := by
  refine next_canon (issue_canon _ _ _ ?_ hs)
  exact intBody_canon _
theorem prefetchLine_canon (s : State) (p : ℕ) (asid : ℕ) (va : ℕ) (hint : ℕ) (modeS : Bool) (hs :
    Memory.wf s.mem = true) : Memory.wf (prefetchLine s p asid va hint modeS).mem = true := by
  unfold prefetchLine
  grind (splits := 6) [translatePart_mem, writeRecord_canon, l1Load_canon, Acc.canon, DetTest.canon, Put.canon,
      DetGate.canon, Gate.canon, Iss.canon, Out.canon, EngOut.canon, StepOut.canon, RunOut.canon, Res.canon, Body.canon]
theorem execPref_canon (f : Fields) (s : State) (hs : Memory.wf s.mem = true) :
    (∀ t1, (execPref f s) = .next t1 → Memory.wf t1.mem = true) := by
  refine next_canon (issue_canon _ _ _ (fun c hc => ?_) hs)
  show Memory.wf (State.mem (ite _ _ _)) = true
  split
  · exact hc.1
  · refine foldl_canon _ _ _ (fun s l h => ?_) hc.1
    dsimp only
    split
    · exact prefetchLine_canon _ _ _ _ _ _ h
    · exact h
theorem hostRead_canon (fr : Frame) (x : Session) (s : State) (hs : Memory.wf s.mem = true) :
    Memory.wf (hostRead fr x s).2.2.mem = true := by
  unfold hostRead
  (repeat' split) <;> simp +contextual [hs]
theorem State.modCtx_mem (s : State) (c : ℕ) (f : Ctx → Ctx) : (State.modCtx s c f).mem = s.mem := by rfl
theorem popReq_mem (s : State) (ctx : ℕ) : (popReq s ctx).mem = s.mem := by rfl
theorem execSext_canon (f : Fields) (s : State) (hs : Memory.wf s.mem = true) :
    (∀ t1, (execSext f s) = .next t1 → Memory.wf t1.mem = true) := by
  refine next_canon (issue_canon _ _ _ ?_ hs)
  exact laneBody_canon _ _
theorem putFlagged_canon (c : Iss) (o : Out) (wide : Bool) (rs : List (ℕ × ℕ × ℕ)) (hc : c.canon) (ho : o.canon) :
    (putFlagged c o wide rs).canon := by
  unfold putFlagged
  grind [putD_canon, Iss.canon, Out.canon, Res.canon]
theorem slotBody_canon (checks : Iss → List Fail) (regs : ℕ) (keeps : Iss → Bool) (f : Iss → ℕ → ℕ × ℕ) :
    (slotBody checks regs keeps f).canon := by
  unfold slotBody
  grind [putFlagged_canon, Iss.canon, Out.canon, Res.canon, Body.canon]
theorem convBody_canon (req : Iss → List Fail) (g : Iss → ℕ → ℕ → ℕ → ℕ → ℕ × ℕ) : (convBody req g).canon := by
  simp +contextual [convBody, slotBody_canon]
theorem execFcvt_canon (f : Fields) (s : State) (hs : Memory.wf s.mem = true) :
    (∀ t1, (execFcvt f s) = .next t1 → Memory.wf t1.mem = true) := by
  refine next_canon (issue_canon _ _ _ ?_ hs)
  exact convBody_canon _ _
theorem State.modEng_mem (s : State) (e : ℕ) (f : Eng → Eng) : (State.modEng s e f).mem = s.mem := by rfl
theorem releaseOnHandles_canon (s : State) (wg : ℕ) (w : ℕ) (hs : Memory.wf s.mem = true) :
    Memory.wf (releaseOnHandles s wg w).mem = true := by
  unfold releaseOnHandles
  (repeat' (first | split | (refine foldl_canon _ _ _ (fun _ _ _ => ?_) ?_))) <;>
    grind (splits := 6) [sendWritebacks_mem, dropAll_canon, State.modWarp_mem, Acc.canon, DetTest.canon, Put.canon,
        DetGate.canon, Gate.canon, Iss.canon, Out.canon, EngOut.canon, StepOut.canon, RunOut.canon, Res.canon,
        Body.canon]
theorem releaseHandles_canon (s : State) (hs : Memory.wf s.mem = true) : Memory.wf (releaseHandles s).mem = true := by
  unfold releaseHandles
  refine foldl_canon _ _ _ (fun s e h => ?_) hs
  split
  · exact releaseOnHandles_canon _ _ _ h
  · exact h
theorem finishCommand_canon (s : State) (e : ℕ) (cmd : Cmd) (code : ℕ) (xf : ℕ) (corr : Bool) (hs :
    Memory.wf s.mem = true) : Memory.wf (finishCommand s e cmd code xf corr).mem = true := by
  unfold finishCommand
  grind [State.modEng_mem, writeRecord_canon, releaseHandles_canon, barsRecheck_canon, Acc.canon, DetTest.canon,
      DetGate.canon, Gate.canon, Iss.canon, Out.canon, EngOut.canon, StepOut.canon, RunOut.canon, Res.canon, Body.canon]
theorem endColl_canon (s : State) (e : ℕ) (cmd : Cmd) (code : ℕ) (hs : Memory.wf s.mem = true) :
    Memory.wf (endColl s e cmd code).mem = true := by
  simp +contextual [endColl, finishCommand_canon, hs]
theorem writeGroup_canon (g : ℕ) (w : ℕ) (v : ℕ) (s : State) (hs : Memory.wf s.mem = true) :
    Memory.wf (writeGroup g w v s).mem = true := by
  simp +contextual [writeGroup, foldl_canon, endColl_canon, hs]
theorem execFpack_canon (f : Fields) (s : State) (hs : Memory.wf s.mem = true) :
    (∀ t1, (execFpack f s) = .next t1 → Memory.wf t1.mem = true) := by
  refine next_canon (issue_canon _ _ _ ?_ hs)
  refine fun c hc => ?_
  have h1 := hc.1
  dsimp only
  grind (splits := 8) [slotBody_canon, Iss.canon, Out.canon, Res.canon, Body.canon]
theorem refusal_canon (c : Iss) (hc : c.canon) : (refusal c).canon := by
  unfold refusal
  grind [takeTrap_canon, State.modWarp_mem, Iss.canon, Out.canon, Res.canon]
theorem writebackAll_canon (s : State) (p : ℕ) (hs : Memory.wf s.mem = true) :
    Memory.wf (writebackAll s p).mem = true := by
  simp +contextual [writebackAll, writeback_canon, hs]
theorem fenceFirst_canon (c : Iss) (s : State) (sco : ℕ) (hc : c.canon) (hs : Memory.wf s.mem = true) :
    (∀ t1, (fenceFirst c s sco) = .error t1 → Memory.wf t1.mem = true) ∧ (∀ t2, (fenceFirst c s sco) = .ok t2 →
    Memory.wf t2.mem = true) := by
  unfold fenceFirst
  grind (splits := 6) [retry_canon, sendWritebacks_mem, writebackAll_canon, Acc.canon, DetTest.canon, Put.canon,
      DetGate.canon, Gate.canon, Iss.canon, Out.canon, EngOut.canon, StepOut.canon, RunOut.canon, Res.canon, Body.canon]
theorem State.modMx_mem (s : State) (wg : ℕ) (f : Mx → Mx) : (State.modMx s wg f).mem = s.mem := by rfl
theorem matrixIssue_canon (c : Iss) (mk : ℕ → Cmd) (eff : State → State) (draws : ℕ) (hc : c.canon) (heff : (∀ (a4 :
    State), Memory.wf a4.mem = true → Memory.wf (eff a4).mem = true)) : (matrixIssue c mk eff draws).canon := by
  unfold matrixIssue
  split
  · exact refusal_canon c hc
  · trivial
  · show Memory.wf (State.mem _) = true
    refine finishCommand_canon _ _ _ _ _ _ ?_
    rw [State.modEng_mem]; exact hc.1
  · have hf := fenceFirst_canon c c.s 3 hc hc.1
    split <;> rename_i he
    · exact hf.1 _ he
    · show Memory.wf (State.mem _) = true
      refine heff _ ?_
      rw [State.modMx_mem, State.modEng_mem]
      exact hf.2 _ he
theorem execRecmark_canon (f : Fields) (s : State) (hs : Memory.wf s.mem = true) :
    (∀ t1, (execRecmark f s) = .next t1 → Memory.wf t1.mem = true) := by
  refine next_canon (issue_canon _ _ _ ?_ hs)
  refine fun c hc => ?_
  have h1 := hc.1
  dsimp only
  grind (splits := 8) [matrixIssue_canon, Iss.canon, Out.canon, Res.canon, Body.canon]
theorem writeStatus_canon (s : State) (lslot : ℕ) (off : ℕ) (bs : List Byte) (hs : Memory.wf s.mem = true) :
    Memory.wf (writeStatus s lslot off bs).mem = true := by
  unfold writeStatus
  grind [kettleWrite_canon, writeRecord_canon, Acc.canon, DetTest.canon, DetGate.canon, Gate.canon, Iss.canon,
      Out.canon, EngOut.canon, StepOut.canon, RunOut.canon, Res.canon, Body.canon]
theorem writePending_canon (s : State) (wg : ℕ) (hs : Memory.wf s.mem = true) :
    Memory.wf (writePending s wg).mem = true := by
  unfold writePending
  (repeat' split) <;> simp +contextual [writeRecord_canon, hs]
theorem removeWg_mem (s : State) (wg : ℕ) : (removeWg s wg).mem = s.mem := by rfl
theorem forgetCode_canon (s : State) (t : ℕ → ℕ × ICLine → Bool) (hs : Memory.wf s.mem = true) :
    Memory.wf (forgetCode s t).mem = true := by
  simp +contextual [forgetCode, foldl_canon, writeRecord_canon, hs]
theorem removeTranslations_mem (s : State) (v : Inval) : (removeTranslations s v).mem = s.mem := by rfl
theorem endContext_canon (s : State) (ctx : ℕ) (hs : Memory.wf s.mem = true) :
    Memory.wf (endContext s ctx).mem = true := by
  unfold endContext
  dsimp only
  refine forgetCode_canon _ _ ?_
  rw [removeTranslations_mem, foldl_mem _ _ _ (fun s a => removeWg_mem ..)]
  refine foldl_canon _ _ _ (fun s a h => writebackAll_canon _ _ (writePending_canon _ _ h)) ?_
  refine foldl_canon _ _ _ (fun s a h => ?_) ?_
  · split
    · rw [State.modCore_mem]; exact h
    · exact h
  · exact foldl_canon _ _ _ (fun s a h => writeStatus_canon _ _ _ _ (writeStatus_canon _ _ _ _ h)) hs
theorem setOwner_canon (s : State) (o : Option ℕ) (hs : Memory.wf s.mem = true) :
    Memory.wf (setOwner s o).mem = true := by
  unfold setOwner
  (repeat' split) <;> simp +contextual [writeRecord_canon, hs]
theorem closeSession_canon (s : State) (x : Session) (hs : Memory.wf s.mem = true) :
    Memory.wf (closeSession s x).mem = true := by
  unfold closeSession
  grind [setOwner_canon, Acc.canon, DetTest.canon, DetGate.canon, Gate.canon, Iss.canon, Out.canon, EngOut.canon,
      StepOut.canon, RunOut.canon, Res.canon, Body.canon]
theorem closeAct_canon (fr : Frame) (x : Session) (s : State) (hs : Memory.wf s.mem = true) :
    Memory.wf (closeAct fr x s).2.2.mem = true := by
  unfold closeAct
  (repeat' split) <;> simp +contextual [endContext_canon, sendAck_mem, closeSession_canon, hs]
theorem execClose_canon (fr : Frame) (s : State) (hs : Memory.wf s.mem = true) :
    (∀ t1, (execClose fr s) = .next t1 → Memory.wf t1.mem = true) := by
  refine next_canon (onFrame_canon _ _ _ _ ?_ hs)
  intro x t h
  grind (splits := 8) [onFrame_canon, closeAct_canon, Acc.canon, DetTest.canon, DetGate.canon, Gate.canon, Iss.canon,
      Out.canon, EngOut.canon, StepOut.canon, RunOut.canon, Res.canon, Body.canon]
theorem execIabs_canon (f : Fields) (s : State) (hs : Memory.wf s.mem = true) :
    (∀ t1, (execIabs f s) = .next t1 → Memory.wf t1.mem = true) := by
  refine next_canon (issue_canon _ _ _ ?_ hs)
  exact intBody_canon _
theorem sameSlot_canon (n : ℕ) (f : Iss → List Val → ℕ → ℕ × ℕ) : (sameSlot n f).canon := by
  simp +contextual [sameSlot, slotBody_canon]
theorem funBody_canon (g : Val → Val × ℕ) : (funBody g).canon := by
  simp +contextual [funBody, sameSlot_canon]
theorem execFrsq_canon (f : Fields) (s : State) (hs : Memory.wf s.mem = true) :
    (∀ t1, (execFrsq f s) = .next t1 → Memory.wf t1.mem = true) := by
  refine next_canon (issue_canon _ _ _ ?_ hs)
  exact funBody_canon _
theorem detReduce_canon (s : State) (wg : ℕ) (r : DetRed) (hs : Memory.wf s.mem = true) :
    Memory.wf (detReduce s wg r).mem = true := by
  unfold detReduce
  dsimp only
  split
  · refine l2Write_canon _ _ _ ?_
    rw [foldl_mem _ _ _ (fun s a => State.modLaunch_mem ..)]
    exact hs
  · rw [State.modWg_mem]; exact hs
theorem poisonRecord_canon (s : State) (wg : ℕ) (va : ℕ) (pa : ℕ) (hs : Memory.wf s.mem = true) :
    Memory.wf (poisonRecord s wg va pa).mem = true := by
  simp +contextual [poisonRecord, writeRecord_canon, hs]
theorem drainPerform_canon (s : State) (cmd : Cmd) (r : Request) (hs : Memory.wf s.mem = true) :
    Memory.wf (drainPerform s cmd r).mem = true := by
  unfold drainPerform
  (repeat' split) <;> simp +contextual [foldl_canon, detReduce_canon, poisonRecord_canon, l2Write_canon, hs]
theorem writeSigners_mem (s : State) (wg : ℕ) (h : ℕ) (signers : List (ℕ × ℕ × ℕ)) :
    (writeSigners s wg h signers).mem = s.mem := by
  unfold writeSigners
  refine foldl_mem _ _ _ (fun s e => ?_)
  split
  · rfl
  · exact State.modWarp_mem ..
theorem withAccess_canon (c : Iss) (s : State) (r : Right) (obj : Bool) (ps : List Part) (k : List TPart → State →
    Res) (hc : c.canon) (hs : Memory.wf s.mem = true) (hk : (∀ (a3 : List TPart) (a4 :
    State), Memory.wf a4.mem = true → (k a3 a4).canon)) : (withAccess c s r obj ps k).canon := by
  unfold withAccess
  grind (splits := 6) [Iss.access_canon, Acc.stop_canon, Acc.canon, Iss.canon, Out.canon, Res.canon]
theorem Iss.awaitWriteback_canon (c : Iss) (inB : ℕ → Bool) (hc : c.canon) : (Iss.awaitWriteback c inB).canon := by
  unfold Iss.awaitWriteback
  grind (splits := 6) [sendWritebacks_mem, retry_canon, Iss.canon, Out.canon, Res.canon]
theorem withRoom_canon (c : Iss) (s : State) (ts : List TPart) (reds : ℕ) (k : State → Res) (hc : c.canon) (hs :
    Memory.wf s.mem = true) (hk : (∀ (a2 : State), Memory.wf a2.mem = true → (k a2).canon)) :
    (withRoom c s ts reds k).canon := by
  unfold withRoom
  grind [detGate_canon, Acc.canon, DetTest.canon, DetGate.canon, Gate.canon, Iss.canon, Out.canon, EngOut.canon,
      StepOut.canon, RunOut.canon, Res.canon, Body.canon]
theorem Iss.store_canon (c : Iss) (s : State) (sco : ℕ) (hint : ℕ) (ts : List TPart) (bs : List (Byte × Byte)) (hc :
    c.canon) (hs : Memory.wf s.mem = true) : Memory.wf (Iss.store c s sco hint ts bs).1.mem = true := by
  unfold Iss.store
  grind (splits := 6) [storeParts_canon, Acc.canon, DetTest.canon, Put.canon, DetGate.canon, Gate.canon, Iss.canon,
      Out.canon, EngOut.canon, StepOut.canon, RunOut.canon, Res.canon, Body.canon]
theorem storeLanes_canon (c : Iss) (s : State) (sco : ℕ) (gs : List (ℕ × List TPart)) (va : ℕ → ℕ) (bs : ℕ →
    List (Byte × Byte)) (hc : c.canon) (hs : Memory.wf s.mem = true) : (storeLanes c s sco gs va bs).canon := by
  unfold storeLanes
  refine fold_inv (fun a : State × Nat => Memory.wf a.1.mem = true) _ _ _ (fun a t h => ?_) hs
  dsimp only
  rw [hashMasked_mem]
  exact Iss.store_canon _ _ _ _ _ _ hc h
theorem execSt_canon (f : Fields) (s : State) (hs : Memory.wf s.mem = true) :
    (∀ t1, (execSt f s) = .next t1 → Memory.wf t1.mem = true) := by
  refine next_canon (issue_canon _ _ _ (fun c hc => ?_) hs)
  refine withAccess_canon _ _ _ _ _ _ hc hc.1 (fun ts s h => ?_)
  split
  · exact Iss.awaitWriteback_canon _ _ hc
  · exact withRoom_canon _ _ _ _ _ hc h (fun s h => storeLanes_canon _ _ _ _ _ _ hc h)
theorem execPageWalkComplete_canon (asid : ℕ) (va : ℕ) (s : State) (hs : Memory.wf s.mem = true) :
    (∀ t1, (execPageWalkComplete asid va s) = .next t1 → Memory.wf t1.mem = true) := by
  refine next_canon ?_
  simp +contextual [foldl_canon, prefetchLine_canon, hs]
theorem ownLine_canon (s : State) (wg : ℕ) (pa : ℕ) (hs : Memory.wf s.mem = true) :
    Memory.wf (ownLine s wg pa).mem = true := by
  simp +contextual [ownLine, dropLines_canon, hs]
theorem AtomReq.onLane_mem (q : AtomReq) (s : State) (f : Lane → Lane) : (AtomReq.onLane q s f).mem = s.mem := by rfl
theorem atomStore_canon (s : State) (q : AtomReq) (pa : ℕ) (va : ℕ) (v : ℕ) (hs : Memory.wf s.mem = true) :
    Memory.wf (atomStore s q pa va v).mem = true := by
  simp +contextual [atomStore, l2Write_canon, addHash_mem, hs]
theorem atomRun_canon (s : State) (q : AtomReq) (hs : Memory.wf s.mem = true) :
    Memory.wf (atomRun s q).2.mem = true := by
  unfold atomRun
  grind (splits := 6) [writeback_canon, ownLine_canon, AtomReq.onLane_mem, atomStore_canon, mergeBytes_canon,
      l2Write_canon, clearResv_mem, Acc.canon, DetTest.canon, Put.canon, DetGate.canon, Gate.canon, Iss.canon,
      Out.canon, EngOut.canon, StepOut.canon, RunOut.canon, Res.canon, Body.canon]
theorem putLate_canon (s : State) (q : AtomReq) (r : Option ℕ) (hs : Memory.wf s.mem = true) :
    Memory.wf (putLate s q r).1.mem = true := by
  unfold putLate
  (repeat' split) <;> simp +contextual [fillPuts_canon, poisonPuts_canon, hs]
theorem atomDeliver_canon (s : State) (q : AtomReq) (r : Option ℕ) (hs : Memory.wf s.mem = true) :
    Memory.wf (atomDeliver s q r).mem = true := by
  simp +contextual [atomDeliver, putLate_canon, hs]
theorem performRaw_canon (s : State) (q : AtomReq) (hs : Memory.wf s.mem = true) :
    Memory.wf (performRaw s q).mem = true := by
  unfold performRaw
  (repeat' split) <;> simp +contextual [atomRun_canon, atomDeliver_canon, poisonRecord_canon, hs]
theorem drainGate_canon (s : State) (ctx : ℕ) (n : ℕ) (hs : Memory.wf s.mem = true) :
    Memory.wf (drainGate s ctx n).mem = true := by
  simp +contextual [drainGate, foldl_canon, performRaw_canon, hs]
theorem mergeRegions_canon (s : State) (wg : ℕ) (hs : Memory.wf s.mem = true) :
    Memory.wf (mergeRegions s wg).mem = true := by
  simp +contextual [mergeRegions, foldl_canon, drainGate_canon, hs]
theorem execRead_canon (fr : Frame) (s : State) (hs : Memory.wf s.mem = true) :
    (∀ t1, (execRead fr s) = .next t1 → Memory.wf t1.mem = true) := by
  refine next_canon ?_
  split
  · exact hs
  · refine onFrame_canon _ _ _ _ ?_ hs
    intro x t h
    grind (splits := 8) [onFrame_canon, hostRead_canon, Acc.canon, DetTest.canon, Put.canon, DetGate.canon,
        Gate.canon, Iss.canon, Out.canon, EngOut.canon, StepOut.canon, RunOut.canon, Res.canon, Body.canon]
theorem startHead_mem (s : State) (e : ℕ) : (startHead s e).mem = s.mem := by grind [startHead, State.setEng_mem]
theorem enqueue_mem (s : State) (e : ℕ) (cmd : Cmd) (promise : Bool) :
    (enqueue s e cmd promise).mem = s.mem := by grind [enqueue, State.setEng_mem, startHead_mem]
theorem queueIssue_canon (c : Iss) (kind : ℕ) (sco : ℕ) (mk : State → ℕ → ℕ → Cmd × State) (atOnce : ℕ → Bool) (hc :
    c.canon) (hmk : (∀ (a5 : State) (a6 : ℕ) (a7 : ℕ), Memory.wf a5.mem = true →
    Memory.wf (mk a5 a6 a7).2.mem = true)) : (queueIssue c kind sco mk atOnce).canon := by
  unfold queueIssue
  split
  · trivial
  · split
    · trivial
    · have hf := fenceFirst_canon c c.s sco hc hc.1
      split <;> rename_i he
      · exact hf.1 _ he
      · refine fold_inv (fun a : State × List (ℕ × ℕ) => Memory.wf a.1.mem = true) _ _ _ (fun a l h => ?_) (hf.2 _ he)
        dsimp only
        split
        · refine finishCommand_canon _ _ _ _ _ _ ?_
          rw [State.modEng_mem]; exact hmk _ _ _ h
        · rw [enqueue_mem]; exact hmk _ _ _ h
theorem blank_canon (s : State) (power : Power) (hs : Memory.wf s.mem = true) :
    Memory.wf (blank s power).mem = true := by rfl
theorem keepRecord_mem (s : State) (r : ErrRec) : (keepRecord s r).mem = s.mem := by
  unfold keepRecord
  (repeat' split) <;> simp [writePlog_mem]
theorem execPowerFail_canon (s : State) (hs : Memory.wf s.mem = true) :
    (∀ t1, (execPowerFail s) = .next t1 → Memory.wf t1.mem = true) := by
  unfold execPowerFail
  (repeat' split) <;>
    grind (splits := 8) [blank_canon, keepRecord_mem, Acc.canon, DetTest.canon, DetGate.canon, Gate.canon, Iss.canon,
        Out.canon, EngOut.canon, StepOut.canon, RunOut.canon, Res.canon, Body.canon]
theorem placeWg_canon (s : State) (b : Bind) (k : Kernel) (places : List (ℕ × ℕ)) (hs : Memory.wf s.mem = true) :
    Memory.wf (placeWg s b k places).mem = true := by
  unfold placeWg
  lift_lets
  intro l r e key pool a b' g s1 s2 s3 s4
  have h3 : s3.mem = s.mem := foldl_mem _ _ _ (fun s a => State.setWarp_mem ..)
  rw [State.modLaunch_mem]
  rw [← h3] at hs
  simp only [s4]
  split
  · exact hs
  · exact writeStatus_canon _ _ _ _ hs
theorem withObject_canon (c : Iss) (r : Right) (k : ℕ → TPart → State → Res) (hc : c.canon) (hk : (∀ (a4 : ℕ) (a5 :
    TPart) (a6 : State), Memory.wf a6.mem = true → (k a4 a5 a6).canon)) : (withObject c r k).canon := by
  unfold withObject
  grind [withAccess_canon, Iss.canon, Out.canon, Res.canon]
theorem objectLine_canon (c : Iss) (s : State) (t : TPart) (k : State → Res) (hc : c.canon) (hs :
    Memory.wf s.mem = true) (hk : (∀ (a2 : State), Memory.wf a2.mem = true → (k a2).canon)) :
    (objectLine c s t k).canon := by
  unfold objectLine
  grind (splits := 6) [Iss.awaitWriteback_canon, ownLine_canon, Iss.canon, Out.canon, Res.canon]
theorem acqDone_canon (c : Iss) (s : State) (o : ℕ) (seq : ℕ) (hc : c.canon) (hs : Memory.wf s.mem = true) :
    (acqDone c s o seq).canon := by
  unfold acqDone
  grind (splits := 6) [Iss.awaitWriteback_canon, dropLines_canon, Iss.canon, Out.canon, Res.canon]
theorem execAcq_canon (f : Fields) (s : State) (hs : Memory.wf s.mem = true) :
    (∀ t1, (execAcq f s) = .next t1 → Memory.wf t1.mem = true) := by
  refine next_canon (issue_canon _ _ _ ?_ hs)
  refine fun c hc => ?_
  have h1 := hc.1
  dsimp only
  grind (splits := 8) [withObject_canon, objectLine_canon, acqDone_canon, Iss.canon, Out.canon, Res.canon, Body.canon]
theorem execSafePointSecondBudget_canon (wg : ℕ) (s : State) (hs : Memory.wf s.mem = true) :
    (∀ t1, (execSafePointSecondBudget wg s) = .next t1 → Memory.wf t1.mem = true) := by
  refine next_canon ?_
  split
  · exact hs
  · exact foldl_canon _ _ _ (fun s k h => endWorkgroup_canon _ _ _ h) hs
theorem scratchWrite_mem (s : State) (wg : ℕ) (off : ℕ) (bs : List Byte) :
    (scratchWrite s wg off bs).mem = s.mem := by rfl
theorem padStore_canon (c : Iss) (q : ℕ) (hc : c.canon) : (padStore c q).canon := by
  unfold padStore
  dsimp only
  split
  · trivial
  · split
    · trivial
    · exact foldl_canon _ _ _ (fun s l h => by rw [scratchWrite_mem]; exact h) hc.1
theorem setShare_canon (s : State) (p : ℕ) (share : ℕ) (hs : Memory.wf s.mem = true) :
    Memory.wf (setShare s p share).mem = true := by
  unfold setShare
  (repeat' split) <;> simp +contextual [dropAll_canon, hs]
theorem shareFor_canon (s : State) (p : ℕ) (r : LRec) (hs : Memory.wf s.mem = true) :
    Memory.wf (shareFor s p r).mem = true := by
  simp +contextual [shareFor, setShare_canon, hs]
theorem createWg_canon (s : State) (b : Bind) (hs : Memory.wf s.mem = true) : Memory.wf (createWg s b).mem = true := by
  unfold createWg
  dsimp only
  split
  · exact placeWg_canon _ _ _ _ (shareFor_canon _ _ _ (dropAll_canon _ _ hs))
  · exact hs
theorem popBind_mem (s : State) (b : Bind) : (popBind s b).mem = s.mem := by rfl
theorem execBindCreate_canon (core : ℕ) (s : State) (hs : Memory.wf s.mem = true) :
    (∀ t1, (execBindCreate core s) = .next t1 → Memory.wf t1.mem = true) := by
  refine next_canon ?_
  split
  · split
    · exact foldl_canon _ _ _ (fun s x h => createWg_canon _ _ (by rw [popBind_mem]; exact h)) hs
    · exact hs
  · exact hs
theorem logPut_canon (s : State) (asid : ℕ) (va : ℕ) (bs : List Byte) (hs : Memory.wf s.mem = true) :
    Memory.wf (logPut s asid va bs).mem = true := by
  unfold logPut
  have h := kettleWrite_canon s asid va bs hs
  cases hk : kettleWrite s asid va bs with
  | none => exact hs
  | some t => exact h t hk
theorem spillRest_canon (s : State) (wg : ℕ) (w : ℕ) (l : ℕ) (hs : Memory.wf s.mem = true) :
    (∀ t2, (spillRest s wg w l) = .ok t2 → Memory.wf t2.mem = true) := by
  unfold spillRest
  dsimp only
  split
  · rintro t ⟨⟩; exact hs
  · split
    · exact fun _ h => (nomatch h)
    · refine foldlM_canon _ _ _ (fun s g h t => ?_) hs
      split
      · rename_i he
        have h1 := kettleWrite_canon _ _ _ _ h _ he
        rintro ⟨⟩
        split
        · split
          · rw [poisonBlock_mem]; exact h1
          · exact h1
        · exact h1
      · exact fun h => (nomatch h)
theorem spillAll_canon (s : State) (wg : ℕ) (hs : Memory.wf s.mem = true) :
    (∀ t2, (spillAll s wg) = .ok t2 → Memory.wf t2.mem = true) := by
  unfold spillAll
  exact foldlM_canon _ _ _ (fun s w h => foldlM_canon _ _ _ (fun s l h => spillRest_canon _ _ _ _ h) h) hs
theorem orWait_canon (s : State) (wg : ℕ) (o : EngOut) (hs : Memory.wf s.mem = true) (ho : o.canon) :
    (orWait s wg o).canon := by
  unfold orWait
  grind (splits := 6) [holdFull_mem, Acc.canon, DetTest.canon, DetGate.canon, Gate.canon, Iss.canon, Out.canon,
      EngOut.canon, StepOut.canon, RunOut.canon, Res.canon, Body.canon]
theorem translateDie_mem (s : State) (d : ℕ) (asid : ℕ) (va : ℕ) :
    (translateDie s d asid va).2.mem = s.mem := by grind [translateDie, walk_mem]
theorem engPart_mem (s : State) (w : Who) (r : Right) (x : Part) :
    (engPart s w r x).2.mem = s.mem := by grind [engPart, translateDie_mem]
theorem engParts_mem (s : State) (w : Who) (r : Right) (ps : List Part) : (engParts s w r ps).2.2.mem = s.mem := by
  induction ps generalizing s with
  | nil => rfl
  | cons x xs ih =>
    have h := engPart_mem s w r x
    unfold engParts
    split <;> rename_i he <;> rw [he] at h
    · exact h
    · exact (ih _).trans h
theorem engRoom_canon (s : State) (wg : ℕ) (ts : List TPart) (reds : ℕ) (k : State → EngOut) (hs :
    Memory.wf s.mem = true) (hk : (∀ (a2 : State), Memory.wf a2.mem = true → (k a2).canon)) :
    (engRoom s wg ts reds k).canon := by
  unfold engRoom
  grind [detTest_canon, holdFull_mem, failLaunch_canon, Acc.canon, DetTest.canon, DetGate.canon, Gate.canon,
      Iss.canon, Out.canon, EngOut.canon, StepOut.canon, RunOut.canon, Res.canon, Body.canon]
theorem engPut_canon (s : State) (wg : ℕ) (t : TPart) (bs : List (Byte × Byte)) (hs : Memory.wf s.mem = true) :
    Memory.wf (engPut s wg t bs).mem = true := by
  unfold engPut
  (repeat' split) <;> simp +contextual [detWrite_canon, mergeBytes_canon, hs]
theorem engWrite_canon (s : State) (w : Who) (va : ℕ) (bs : List Byte) (hs : Memory.wf s.mem = true) :
    (engWrite s w va bs).canon := by
  have h := engParts_mem s w rightW (lineParts va bs.length)
  unfold engWrite
  split <;> rename_i he <;> rw [he] at h <;> rw [← h] at hs
  · exact hs
  · split
    · exact hs
    · split
      · exact hs
      · exact engRoom_canon _ _ _ _ _ hs (fun s h => foldl_canon _ _ _ (fun s t h => engPut_canon _ _ _ _ h) h)
theorem engWrites_canon (s : State) (w : Who) (xs : List (ℕ × List Byte)) (hs : Memory.wf s.mem = true) :
    (engWrites s w xs).canon := by
  induction xs generalizing s with
  | nil => exact hs
  | cons x xs ih =>
    have h := engWrite_canon s w (x.1 % 2 ^ 80) x.2 hs
    unfold engWrites
    split <;> rename_i he
    · rw [he] at h; exact ih _ h
    · exact h
theorem flushOut_canon (s : State) (wg : ℕ) (hs : Memory.wf s.mem = true) : (flushOut s wg).canon := by
  simp +contextual [flushOut, orWait_canon, engWrites_canon, hs]
theorem flushHeader_canon (s : State) (wg : ℕ) (hs : Memory.wf s.mem = true) :
    Memory.wf (flushHeader s wg).mem = true := by
  unfold flushHeader
  grind (splits := 6) [flushOut_canon, Acc.canon, DetTest.canon, Put.canon, DetGate.canon, Gate.canon, Iss.canon,
      Out.canon, EngOut.canon, StepOut.canon, RunOut.canon, Res.canon, Body.canon]
theorem dropReports_canon (s : State) (wg : ℕ) (hs : Memory.wf s.mem = true) :
    Memory.wf (dropReports s wg).mem = true := by
  unfold dropReports
  (repeat' (first | split | (refine foldl_canon _ _ _ (fun _ _ _ => ?_) ?_))) <;>
      grind [writeRecord_canon, Acc.canon, DetTest.canon, DetGate.canon, Gate.canon, Iss.canon, Out.canon,
      EngOut.canon, StepOut.canon, RunOut.canon, Res.canon, Body.canon]
theorem prepareSave_canon (s : State) (wg : ℕ) (hs : Memory.wf s.mem = true) :
    (∀ t2, (prepareSave s wg) = .ok t2 → Memory.wf t2.mem = true) := by
  unfold prepareSave
  split
  · exact fun _ h => (nomatch h)
  · rename_i he
    have hf : ∀ (l : List ℕ) (u : State), (l.foldl (fun s w => s.modWarp wg w settleWarp) u).mem = u.mem :=
      fun l u => foldl_mem _ _ _ (fun s a => State.modWarp_mem ..)
    rintro t ⟨⟩
    dsimp only
    rw [hf]
    exact dropReports_canon _ _ (spillAll_canon _ _ (flushHeader_canon _ _ hs) _ he)
theorem saveFailed_canon (s : State) (wg : ℕ) (x2 : SaveFail) (hs : Memory.wf s.mem = true) :
    Memory.wf (saveFailed s wg x2).mem = true := by
  unfold saveFailed
  (repeat' split) <;> simp +contextual [endWorkgroup_canon, hs]
theorem prepareOne_canon (s : State) (k : ℕ) (hs : Memory.wf s.mem = true) : Memory.wf (prepareOne s k).mem = true := by
  unfold prepareOne
  grind [prepareSave_canon, saveFailed_canon, Acc.canon, DetTest.canon, DetGate.canon, Gate.canon, Iss.canon,
      Out.canon, EngOut.canon, StepOut.canon, RunOut.canon, Res.canon, Body.canon]
theorem startAddress_mem (s : State) : (startAddress s).mem = s.mem := by
  unfold startAddress
  (repeat' split) <;> grind []
theorem mgmtEffect_canon (s : State) (off : ℕ) (v : ℕ) (hs : Memory.wf s.mem = true) :
    (∀ t1, (mgmtEffect s off v) = some t1 → Memory.wf t1.mem = true) := by
  unfold mgmtEffect
  (repeat' split) <;> simp +contextual [startAddress_mem, writeGroup_canon, hs]
theorem mgmtDone_canon (s : State) (hs : Memory.wf s.mem = true) : Memory.wf (mgmtDone s).2.2.mem = true := by
  simp +contextual [mgmtDone, hs]
theorem mgmtWriteAct_canon (fr : Frame) (s : State) (hs : Memory.wf s.mem = true) :
    Memory.wf (mgmtWriteAct fr s).2.2.mem = true := by
  unfold mgmtWriteAct
  grind (splits := 6) [mgmtEffect_canon, mgmtDone_canon, Acc.canon, DetTest.canon, Put.canon, DetGate.canon,
      Gate.canon, Iss.canon, Out.canon, EngOut.canon, StepOut.canon, RunOut.canon, Res.canon, Body.canon]
theorem execMgmtWriteIpctl_canon (fr : Frame) (s : State) (hs : Memory.wf s.mem = true) :
    (∀ t1, (execMgmtWriteIpctl fr s) = .next t1 → Memory.wf t1.mem = true) := by
  refine next_canon (onFrame_canon _ _ _ _ ?_ hs)
  intro x t h
  grind (splits := 8) [onFrame_canon, mgmtWriteAct_canon, Acc.canon, DetTest.canon, Put.canon, DetGate.canon,
      Gate.canon, Iss.canon, Out.canon, EngOut.canon, StepOut.canon, RunOut.canon, Res.canon, Body.canon]
theorem logLost_canon (s : State) (ctx : ℕ) (n : ℕ) (wg : ℕ) (hs : Memory.wf s.mem = true) :
    Memory.wf (logLost s ctx n wg).mem = true := by
  simp +contextual [logLost, drainGate_canon, failLaunch_canon, hs]
theorem execOrdgate_canon (f : Fields) (s : State) (hs : Memory.wf s.mem = true) :
    (∀ t1, (execOrdgate f s) = .next t1 → Memory.wf t1.mem = true) := by
  refine next_canon (issue_canon _ _ _ ?_ hs)
  refine fun c hc => ?_
  have h1 := hc.1
  dsimp only
  (repeat' split) <;> simp +contextual [Res.canon, Out.canon, logLost_canon, h1]
theorem execHsleepWake_canon (wg : ℕ) (warp : ℕ) (wake : ℕ) (s : State) (hs : Memory.wf s.mem = true) :
    (∀ t1, (execHsleepWake wg warp wake s) = .next t1 → Memory.wf t1.mem = true) := by
  unfold execHsleepWake
  dsimp only
  (repeat' split) <;> (refine next_canon ?_) <;> first | exact hs | simp +contextual [dropAll_canon, hs]
theorem mergeByte_canon (s : State) (lslot : ℕ) (index : ℕ) (pa : ℕ) (b : Byte) (hs : Memory.wf s.mem = true) :
    Memory.wf (mergeByte s lslot index pa b).mem = true := by
  simp +contextual [mergeByte, l2Write_canon, hs]
theorem execLea_canon (f : Fields) (s : State) (hs : Memory.wf s.mem = true) :
    (∀ t1, (execLea f s) = .next t1 → Memory.wf t1.mem = true) := by
  refine next_canon (issue_canon _ _ _ ?_ hs)
  exact laneBody_canon _ _
theorem issueNow_canon (s : State) (wg : ℕ) (w : ℕ) (x : Warp) (e : Entry) (i : Instr) (f : Fields) (npc : ℕ) (base :
    ℕ) (hs : Memory.wf s.mem = true) : (issueNow s wg w x e i f npc base).canon := by
  simp +contextual [issueNow, issueOf_canon, hs]
theorem execImad_canon (f : Fields) (s : State) (hs : Memory.wf s.mem = true) :
    (∀ t1, (execImad f s) = .next t1 → Memory.wf t1.mem = true) := by
  refine next_canon (issue_canon _ _ _ ?_ hs)
  exact intBody_canon _
theorem execBra_canon (f : Fields) (s : State) (hs : Memory.wf s.mem = true) :
    (∀ t1, (execBra f s) = .next t1 → Memory.wf t1.mem = true) := by
  refine next_canon (issue_canon _ _ _ ?_ hs)
  exact fun c hc => hc.1
theorem lastHeader_canon (s : State) (wg : ℕ) (hs : Memory.wf s.mem = true) : (lastHeader s wg).canon := by
  unfold lastHeader
  grind (splits := 6) [flushOut_canon, Acc.canon, DetTest.canon, Put.canon, DetGate.canon, Gate.canon, Iss.canon,
      Out.canon, EngOut.canon, StepOut.canon, RunOut.canon, Res.canon, Body.canon]
theorem releaseSigners_mem (s : State) (wg : ℕ) (signers : List (ℕ × ℕ × ℕ)) (cause : ℕ) (info : ℕ) :
    (releaseSigners s wg signers cause info).mem = s.mem := by
  unfold releaseSigners
  simp only []
  (repeat' split) <;> first | rfl | (refine foldl_mem _ _ _ ?_; intros; (repeat' split) <;> simp)
theorem settleSigners_mem (s : State) (wg : ℕ) (signers : List (ℕ × ℕ × ℕ)) :
    (settleSigners s wg signers).mem = s.mem := by
  unfold settleSigners
  simp only []
  (repeat' split) <;> first | rfl | (refine foldl_mem _ _ _ ?_; intros; (repeat' split) <;> simp)
theorem deadRounds_mem (s : State) (wg : ℕ) : (deadRounds s wg).mem = s.mem := by
  unfold deadRounds
  refine foldl_mem _ _ _ (fun s n => ?_)
  dsimp only
  split
  · rw [releaseSigners_mem, settleSigners_mem, State.modWg_mem]
  · rfl
theorem endRound_mem (s : State) (wg : ℕ) (n : ℕ) (h : ℕ) (cause : ℕ) (info : ℕ) :
    (endRound s wg n h cause info).mem = s.mem := by simp [endRound, settleSigners_mem, writeSigners_mem,
    releaseSigners_mem]
theorem issueRound_canon (c : Iss) (i : Instr) (s : State) (hc : c.canon) (hs : Memory.wf s.mem = true) :
    Memory.wf (issueRound c i s).mem = true := by
  unfold issueRound
  (repeat' split) <;> simp +contextual [endRound_mem, finishCommand_canon, State.modMx_mem, hs]
theorem signRun_canon (c : Iss) (i : Instr) (fn : ℕ) (hc : c.canon) : (signRun c i fn).canon := by
  unfold signRun
  dsimp only
  split
  · trivial
  · split
    · trivial
    · have hf : ∀ b : Bool, (∀ t, (if b then fenceFirst c c.s 3 else .ok c.s) = .error t → Memory.wf t.mem = true) ∧
          (∀ t, (if b then fenceFirst c c.s 3 else .ok c.s) = .ok t → Memory.wf t.mem = true) := by
        intro b
        cases b with
        | true => exact fenceFirst_canon c c.s 3 hc hc.1
        | false => exact ⟨(fun t h => by injection h), (fun t h => by injection h with h; exact h ▸ hc.1)⟩
      split <;> rename_i he
      · exact (hf _).1 _ he
      · refine ⟨?_, fun s h => ?_⟩
        · show Memory.wf (State.mem _) = true
          rw [State.modWarp_mem, State.modWg_mem]
          exact (hf _).2 _ he
        · dsimp only
          split
          · exact issueRound_canon _ _ _ hc h
          · exact h
theorem tileBody_canon (i : Instr) (fn : ℕ) : (tileBody i fn).canon := by
  unfold tileBody
  grind [signRun_canon, matrixIssue_canon, Iss.canon, Out.canon, Res.canon, Body.canon]
theorem lastingAction_mem (s : State) (kind : ℕ) (inst : ℕ) : (lastingAction s kind inst).mem = s.mem := by
  unfold lastingAction
  (repeat' split) <;> simp
theorem countEvent_canon (s : State) (kind : ℕ) (inst : ℕ) (hs : Memory.wf s.mem = true) :
    Memory.wf (countEvent s kind inst).mem = true := by
  unfold countEvent
  grind [writeRecord_canon, lastingAction_mem, Acc.canon, DetTest.canon, DetGate.canon, Gate.canon, Iss.canon,
      Out.canon, EngOut.canon, StepOut.canon, RunOut.canon, Res.canon, Body.canon]
theorem softErr_canon (s : State) (x1 : SoftErr) (hs : Memory.wf s.mem = true) :
    Memory.wf (softErr s x1).mem = true := by
  unfold softErr
  (repeat' split) <;> simp +contextual [countEvent_canon, writeRecord_canon, poisonBlock_mem, hs]
theorem setKernel_mem (s : State) (ctx : ℕ) (load : ℕ) (kix : ℕ) (k : Kernel) :
    (setKernel s ctx load kix k).mem = s.mem := by rfl
theorem fetchLine_mem (s : State) (core : ℕ) (asid : ℕ) (va : ℕ) (modeS : Bool) :
    (fetchLine s core asid va modeS).2.mem = s.mem := by grind [fetchLine, translatePart_mem]
theorem fillLine_mem (s : State) (core : ℕ) (asid : ℕ) (va : ℕ) (modeS : Bool) :
    (fillLine s core asid va modeS).mem = s.mem := by simp [fillLine, fetchLine_mem]
theorem execIcacheFill_canon (core : ℕ) (asid : ℕ) (va : ℕ) (s : State) (hs : Memory.wf s.mem = true) :
    (∀ t1, (execIcacheFill core asid va s) = .next t1 → Memory.wf t1.mem = true) := by
  refine next_canon ?_
  simp +contextual [fillLine_mem, hs]
theorem execIsub_canon (f : Fields) (s : State) (hs : Memory.wf s.mem = true) :
    (∀ t1, (execIsub f s) = .next t1 → Memory.wf t1.mem = true) := by
  refine next_canon (issue_canon _ _ _ ?_ hs)
  exact intBody_canon _
theorem setMap_mem (s : State) (m : BitVec 320) (epoch : ℕ) : (setMap s m epoch).mem = s.mem := by rfl
theorem applyMap_mem (s : State) : (applyMap s).mem = s.mem := by
  unfold applyMap
  simp only []
  (repeat' split) <;> first | rfl | (refine foldl_mem _ _ _ ?_; intros; (repeat' split) <;> simp)
theorem execIneg_canon (f : Fields) (s : State) (hs : Memory.wf s.mem = true) :
    (∀ t1, (execIneg f s) = .next t1 → Memory.wf t1.mem = true) := by
  refine next_canon (issue_canon _ _ _ ?_ hs)
  exact intBody_canon _
theorem enqueueLaunch_canon (s : State) (ctx : ℕ) (queue : ℕ) (cap : ℕ) (bs : List Byte) (host : Bool) (owner :
    Bool) (prio : ℕ) (hs : Memory.wf s.mem = true) :
    (∀ t1, (enqueueLaunch s ctx queue cap bs host owner prio) = some t1 → Memory.wf t1.2.mem = true) := by
  unfold enqueueLaunch
  grind [State.modCtx_mem, Acc.canon, DetTest.canon, DetGate.canon, Gate.canon, Iss.canon, Out.canon, EngOut.canon,
      StepOut.canon, RunOut.canon, Res.canon, Body.canon]
theorem hostLaunch_canon (fr : Frame) (x : Session) (s : State) (hs : Memory.wf s.mem = true) :
    Memory.wf (hostLaunch fr x s).2.2.mem = true := by
  have h := enqueueLaunch_canon s x.ctx 0 256 fr.payload true true 0 hs
  unfold hostLaunch
  split <;> rename_i he
  · exact h _ he
  · exact hs
theorem execLaunchFrame_canon (fr : Frame) (s : State) (hs : Memory.wf s.mem = true) :
    (∀ t1, (execLaunchFrame fr s) = .next t1 → Memory.wf t1.mem = true) := by
  refine next_canon (onFrame_canon _ _ _ _ ?_ hs)
  intro x t h
  grind (splits := 8) [onFrame_canon, hostLaunch_canon, Acc.canon, DetTest.canon, DetGate.canon, Gate.canon,
      Iss.canon, Out.canon, EngOut.canon, StepOut.canon, RunOut.canon, Res.canon, Body.canon]
theorem enqueueAtoms_mem (s : State) (qs : List AtomReq) :
    (enqueueAtoms s qs).mem = s.mem := by simp [enqueueAtoms, foldl_mem]
theorem setLid_mem (s : State) (lid : ℕ) (ctx : ℕ) (st : ℕ) : (setLid s lid ctx st).mem = s.mem := by rfl
theorem checkLaunch_canon (s : State) (lslot : ℕ) (q : QRec) (ctx : ℕ) (waited : Bool) (hs :
    Memory.wf s.mem = true) : Memory.wf (checkLaunch s lslot q ctx waited).mem = true := by
  unfold checkLaunch
  grind [setLid_mem, State.modLaunch_mem, State.modCtx_mem, writeRecord_canon, writeStatus_canon, Acc.canon,
      DetTest.canon, DetGate.canon, Gate.canon, Iss.canon, Out.canon, EngOut.canon, StepOut.canon, RunOut.canon,
      Res.canon, Body.canon]
theorem Iss.modWarp_canon (c : Iss) (g : Warp → Warp) (hc : c.canon) : Memory.wf (Iss.modWarp c g).mem = true := by
  unfold Iss.modWarp
  grind [State.modWarp_mem, Acc.canon, DetTest.canon, DetGate.canon, Gate.canon, Iss.canon, Out.canon, EngOut.canon,
      StepOut.canon, RunOut.canon, Res.canon, Body.canon]
theorem execRjjoin_canon (f : Fields) (s : State) (hs : Memory.wf s.mem = true) :
    (∀ t1, (execRjjoin f s) = .next t1 → Memory.wf t1.mem = true) := by
  refine next_canon (issue_canon _ _ _ ?_ hs)
  exact fun c hc => hc.1
theorem endAll_canon (s : State) (hs : Memory.wf s.mem = true) : Memory.wf (endAll s).mem = true := by
  unfold endAll
  exact setOwner_canon _ _ (foldl_canon _ _ _ (fun s c h => endContext_canon _ _ h) hs)
theorem wipeMemory_canon (s : State) (hs : Memory.wf s.mem = true) : Memory.wf (wipeMemory s).mem = true := by
  exact Sparse.filter_wf _ _ _ hs
theorem alarm_canon (s : State) (pol : ℕ) (hs : Memory.wf s.mem = true) : Memory.wf (alarm s pol).mem = true := by
  unfold alarm
  (repeat' split) <;> simp +contextual [keepRecord_mem, endAll_canon, wipeMemory_canon, hs]
theorem proveFailed_canon (s : State) (hs : Memory.wf s.mem = true) : Memory.wf (proveFailed s).mem = true := by
  unfold proveFailed
  grind [alarm_canon, Acc.canon, DetTest.canon, DetGate.canon, Gate.canon, Iss.canon, Out.canon, EngOut.canon,
      StepOut.canon, RunOut.canon, Res.canon, Body.canon]
theorem clearFrame_canon (s : State) (pa : ℕ) (hs : Memory.wf s.mem = true) :
    Memory.wf (clearFrame s pa).mem = true := l2Write_canon _ _ _ hs
theorem mapPages_canon (s : State) (v : ℕ) (fr : ℕ → ℕ) (hs : Memory.wf s.mem = true) :
    Memory.wf (mapPages s v fr).mem = true := by
  unfold mapPages
  refine foldl_canon _ _ _ (fun s e h => ?_) (foldl_canon _ _ _ (fun s i h => clearFrame_canon _ _ h) hs)
  dsimp only
  split
  · exact foldl_canon _ _ _ (fun s j h => l2Write_canon _ _ _ h) h
  · exact l2Write_canon _ _ _ h
theorem execNop_canon (f : Fields) (s : State) (hs : Memory.wf s.mem = true) :
    (∀ t1, (execNop f s) = .next t1 → Memory.wf t1.mem = true) := by
  refine next_canon (issue_canon _ _ _ ?_ hs)
  exact fun c hc => hc.1
theorem execBrx_canon (f : Fields) (s : State) (hs : Memory.wf s.mem = true) :
    (∀ t1, (execBrx f s) = .next t1 → Memory.wf t1.mem = true) := by
  refine next_canon (issue_canon _ _ _ ?_ hs)
  refine fun c hc => ?_
  have h1 := hc.1
  dsimp only
  (repeat' split) <;> simp +contextual [Res.canon, Out.canon, h1]
theorem callRun_canon (c : Iss) (indirect : Bool) (tgt : ℕ → ℤ) (hc : c.canon) : (callRun c indirect tgt).canon := by
  unfold callRun
  grind [Iss.modWarp_canon, Iss.canon, Out.canon, Res.canon]
theorem execCall_canon (f : Fields) (s : State) (hs : Memory.wf s.mem = true) :
    (∀ t1, (execCall f s) = .next t1 → Memory.wf t1.mem = true) := by
  refine next_canon (issue_canon _ _ _ ?_ hs)
  refine fun c hc => ?_
  have h1 := hc.1
  dsimp only
  grind (splits := 8) [callRun_canon, Iss.canon, Out.canon, Res.canon, Body.canon]
theorem execCallx_canon (f : Fields) (s : State) (hs : Memory.wf s.mem = true) :
    (∀ t1, (execCallx f s) = .next t1 → Memory.wf t1.mem = true) := by
  refine next_canon (issue_canon _ _ _ ?_ hs)
  refine fun c hc => ?_
  have h1 := hc.1
  dsimp only
  grind (splits := 8) [callRun_canon, Iss.canon, Out.canon, Res.canon, Body.canon]
theorem execRet_canon (f : Fields) (s : State) (hs : Memory.wf s.mem = true) :
    (∀ t1, (execRet f s) = .next t1 → Memory.wf t1.mem = true) := by
  refine next_canon (issue_canon _ _ _ ?_ hs)
  refine fun c hc => ?_
  have h1 := hc.1
  dsimp only
  grind (splits := 8) [Iss.modWarp_canon, Iss.canon, Out.canon, Res.canon, Body.canon]
theorem execExit_canon (f : Fields) (s : State) (hs : Memory.wf s.mem = true) :
    (∀ t1, (execExit f s) = .next t1 → Memory.wf t1.mem = true) := by
  refine next_canon (issue_canon _ _ _ ?_ hs)
  refine fun c hc => ?_
  obtain ⟨h1, h2⟩ := hc
  simp +contextual [Res.canon, Out.canon, deadRounds_mem, barsRecheck_canon, h1]
theorem execYield_canon (f : Fields) (s : State) (hs : Memory.wf s.mem = true) :
    (∀ t1, (execYield f s) = .next t1 → Memory.wf t1.mem = true) := by
  refine next_canon (issue_canon _ _ _ ?_ hs)
  refine fun c hc => ?_
  obtain ⟨h1, h2⟩ := hc
  simp +contextual [Res.canon, Out.canon, h1]
theorem execSleep_canon (f : Fields) (s : State) (hs : Memory.wf s.mem = true) :
    (∀ t1, (execSleep f s) = .next t1 → Memory.wf t1.mem = true) := by
  refine next_canon (issue_canon _ _ _ ?_ hs)
  refine fun c hc => ?_
  have h1 := hc.1
  dsimp only
  grind (splits := 8) [Iss.modWarp_canon, Iss.canon, Out.canon, Res.canon, Body.canon]
theorem execPartset_canon (f : Fields) (s : State) (hs : Memory.wf s.mem = true) :
    (∀ t1, (execPartset f s) = .next t1 → Memory.wf t1.mem = true) := by
  refine next_canon (issue_canon _ _ _ ?_ hs)
  exact fun c hc => hc.1
theorem execPartget_canon (f : Fields) (s : State) (hs : Memory.wf s.mem = true) :
    (∀ t1, (execPartget f s) = .next t1 → Memory.wf t1.mem = true) := by
  refine next_canon (issue_canon _ _ _ ?_ hs)
  exact laneBody_canon _ _
theorem rjopenBody_canon (mask : Iss → LaneSet) : (rjopenBody mask).canon := by
  unfold rjopenBody
  grind [Iss.modWarp_canon, Acc.canon, DetTest.canon, DetGate.canon, Gate.canon, Iss.canon, Out.canon, EngOut.canon,
      StepOut.canon, RunOut.canon, Res.canon, Body.canon]
theorem execRjopen_canon (f : Fields) (s : State) (hs : Memory.wf s.mem = true) :
    (∀ t1, (execRjopen f s) = .next t1 → Memory.wf t1.mem = true) := by
  refine next_canon (issue_canon _ _ _ ?_ hs)
  exact fun c hc => hc.1
theorem execRjopenMask_canon (f : Fields) (s : State) (hs : Memory.wf s.mem = true) :
    (∀ t1, (execRjopenMask f s) = .next t1 → Memory.wf t1.mem = true) := by
  refine next_canon (issue_canon _ _ _ ?_ hs)
  exact fun c hc => hc.1
theorem execRjquit_canon (f : Fields) (s : State) (hs : Memory.wf s.mem = true) :
    (∀ t1, (execRjquit f s) = .next t1 → Memory.wf t1.mem = true) := by
  refine next_canon (issue_canon _ _ _ ?_ hs)
  refine fun c hc => ?_
  have h1 := hc.1
  dsimp only
  grind (splits := 8) [Iss.modWarp_canon, State.modWarp_mem, Iss.canon, Out.canon, Res.canon, Body.canon]
theorem execRjwait_canon (f : Fields) (s : State) (hs : Memory.wf s.mem = true) :
    (∀ t1, (execRjwait f s) = .next t1 → Memory.wf t1.mem = true) := by
  refine next_canon (issue_canon _ _ _ ?_ hs)
  refine fun c hc => ?_
  have h1 := hc.1
  dsimp only
  grind (splits := 8) [Iss.modWarp_canon, State.modWarp_mem, Iss.canon, Out.canon, Res.canon, Body.canon]
theorem execRjtest_canon (f : Fields) (s : State) (hs : Memory.wf s.mem = true) :
    (∀ t1, (execRjtest f s) = .next t1 → Memory.wf t1.mem = true) := by
  refine next_canon (issue_canon _ _ _ ?_ hs)
  refine fun c hc => ?_
  have h1 := hc.1
  dsimp only
  grind (splits := 8) [laneBody_canon, Iss.canon, Out.canon, Res.canon, Body.canon]
theorem execRjmask_canon (f : Fields) (s : State) (hs : Memory.wf s.mem = true) :
    (∀ t1, (execRjmask f s) = .next t1 → Memory.wf t1.mem = true) := by
  refine next_canon (issue_canon _ _ _ ?_ hs)
  exact laneBody_canon _ _
theorem execRjclose_canon (f : Fields) (s : State) (hs : Memory.wf s.mem = true) :
    (∀ t1, (execRjclose f s) = .next t1 → Memory.wf t1.mem = true) := by
  refine next_canon (issue_canon _ _ _ ?_ hs)
  exact fun c hc => hc.1
theorem deliverReport_canon (s : State) (wg : ℕ) (w : ℕ) (p : Report → Bool) (hs : Memory.wf s.mem = true) :
    Memory.wf (deliverReport s wg w p).mem = true := by
  unfold deliverReport
  grind (splits := 6) [takeTrap_canon, State.setWarp_mem, State.modWarp_mem, Acc.canon, DetTest.canon, Put.canon,
      DetGate.canon, Gate.canon, Iss.canon, Out.canon, EngOut.canon, StepOut.canon, RunOut.canon, Res.canon, Body.canon]
theorem execOrphanedSetTrap_canon (wg : ℕ) (warp : ℕ) (s : State) (hs : Memory.wf s.mem = true) :
    (∀ t1, (execOrphanedSetTrap wg warp s) = .next t1 → Memory.wf t1.mem = true) := by
  refine next_canon ?_
  simp +contextual [deliverReport_canon, hs]
theorem execIsum3_canon (f : Fields) (s : State) (hs : Memory.wf s.mem = true) :
    (∀ t1, (execIsum3 f s) = .next t1 → Memory.wf t1.mem = true) := by
  refine next_canon (issue_canon _ _ _ ?_ hs)
  exact intBody_canon _
theorem execImin_canon (f : Fields) (s : State) (hs : Memory.wf s.mem = true) :
    (∀ t1, (execImin f s) = .next t1 → Memory.wf t1.mem = true) := by
  refine next_canon (issue_canon _ _ _ ?_ hs)
  exact intBody_canon _
theorem execImax_canon (f : Fields) (s : State) (hs : Memory.wf s.mem = true) :
    (∀ t1, (execImax f s) = .next t1 → Memory.wf t1.mem = true) := by
  refine next_canon (issue_canon _ _ _ ?_ hs)
  exact intBody_canon _
theorem execIsat_canon (f : Fields) (s : State) (hs : Memory.wf s.mem = true) :
    (∀ t1, (execIsat f s) = .next t1 → Memory.wf t1.mem = true) := by
  refine next_canon (issue_canon _ _ _ ?_ hs)
  exact laneBody_canon _ _
theorem execIcmp_canon (f : Fields) (s : State) (hs : Memory.wf s.mem = true) :
    (∀ t1, (execIcmp f s) = .next t1 → Memory.wf t1.mem = true) := by
  refine next_canon (issue_canon _ _ _ ?_ hs)
  refine fun c hc => ?_
  have h1 := hc.1
  dsimp only
  grind (splits := 8) [laneBody_canon, Iss.canon, Out.canon, Res.canon, Body.canon]
theorem execSel_canon (f : Fields) (s : State) (hs : Memory.wf s.mem = true) :
    (∀ t1, (execSel f s) = .next t1 → Memory.wf t1.mem = true) := by
  refine next_canon (issue_canon _ _ _ ?_ hs)
  exact laneBody_canon _ _
theorem execImul_canon (f : Fields) (s : State) (hs : Memory.wf s.mem = true) :
    (∀ t1, (execImul f s) = .next t1 → Memory.wf t1.mem = true) := by
  refine next_canon (issue_canon _ _ _ ?_ hs)
  exact intBody_canon _
theorem execImulh_canon (f : Fields) (s : State) (hs : Memory.wf s.mem = true) :
    (∀ t1, (execImulh f s) = .next t1 → Memory.wf t1.mem = true) := by
  refine next_canon (issue_canon _ _ _ ?_ hs)
  exact laneBody_canon _ _
theorem execImadw_canon (f : Fields) (s : State) (hs : Memory.wf s.mem = true) :
    (∀ t1, (execImadw f s) = .next t1 → Memory.wf t1.mem = true) := by
  refine next_canon (issue_canon _ _ _ ?_ hs)
  exact laneBody_canon _ _
theorem laneBodyV_canon (wide : Iss → Bool) (least : Iss → ℕ) (span : Iss → ℕ) (f : Iss → ℕ → ℕ) :
    (laneBodyV wide least span f).canon := by
  unfold laneBodyV
  grind [putD_canon, Iss.canon, Out.canon, Res.canon, Body.canon]
theorem execIdiv_canon (f : Fields) (s : State) (hs : Memory.wf s.mem = true) :
    (∀ t1, (execIdiv f s) = .next t1 → Memory.wf t1.mem = true) := by
  refine next_canon (issue_canon _ _ _ ?_ hs)
  exact laneBodyV_canon _ _ _ _
theorem execIrem_canon (f : Fields) (s : State) (hs : Memory.wf s.mem = true) :
    (∀ t1, (execIrem f s) = .next t1 → Memory.wf t1.mem = true) := by
  refine next_canon (issue_canon _ _ _ ?_ hs)
  exact laneBodyV_canon _ _ _ _
theorem execAnd_canon (f : Fields) (s : State) (hs : Memory.wf s.mem = true) :
    (∀ t1, (execAnd f s) = .next t1 → Memory.wf t1.mem = true) := by
  refine next_canon (issue_canon _ _ _ ?_ hs)
  exact laneBody_canon _ _
theorem execOr_canon (f : Fields) (s : State) (hs : Memory.wf s.mem = true) :
    (∀ t1, (execOr f s) = .next t1 → Memory.wf t1.mem = true) := by
  refine next_canon (issue_canon _ _ _ ?_ hs)
  exact laneBody_canon _ _
theorem execXor_canon (f : Fields) (s : State) (hs : Memory.wf s.mem = true) :
    (∀ t1, (execXor f s) = .next t1 → Memory.wf t1.mem = true) := by
  refine next_canon (issue_canon _ _ _ ?_ hs)
  exact laneBody_canon _ _
theorem execNot_canon (f : Fields) (s : State) (hs : Memory.wf s.mem = true) :
    (∀ t1, (execNot f s) = .next t1 → Memory.wf t1.mem = true) := by
  refine next_canon (issue_canon _ _ _ ?_ hs)
  exact laneBody_canon _ _
theorem execBlut_canon (f : Fields) (s : State) (hs : Memory.wf s.mem = true) :
    (∀ t1, (execBlut f s) = .next t1 → Memory.wf t1.mem = true) := by
  refine next_canon (issue_canon _ _ _ ?_ hs)
  exact laneBody_canon _ _
theorem execPlut_canon (f : Fields) (s : State) (hs : Memory.wf s.mem = true) :
    (∀ t1, (execPlut f s) = .next t1 → Memory.wf t1.mem = true) := by
  refine next_canon (issue_canon _ _ _ ?_ hs)
  exact laneBody_canon _ _
theorem execPmovGet_canon (f : Fields) (s : State) (hs : Memory.wf s.mem = true) :
    (∀ t1, (execPmovGet f s) = .next t1 → Memory.wf t1.mem = true) := by
  refine next_canon (issue_canon _ _ _ ?_ hs)
  exact laneBody_canon _ _
theorem execPmovSet_canon (f : Fields) (s : State) (hs : Memory.wf s.mem = true) :
    (∀ t1, (execPmovSet f s) = .next t1 → Memory.wf t1.mem = true) := by
  refine next_canon (issue_canon _ _ _ ?_ hs)
  exact fun c hc => hc.1
theorem execMov_canon (f : Fields) (s : State) (hs : Memory.wf s.mem = true) :
    (∀ t1, (execMov f s) = .next t1 → Memory.wf t1.mem = true) := by
  refine next_canon (issue_canon _ _ _ ?_ hs)
  exact laneBody_canon _ _
theorem execMovi_canon (f : Fields) (s : State) (hs : Memory.wf s.mem = true) :
    (∀ t1, (execMovi f s) = .next t1 → Memory.wf t1.mem = true) := by
  refine next_canon (issue_canon _ _ _ ?_ hs)
  exact laneBody_canon _ _
theorem execMovk_canon (f : Fields) (s : State) (hs : Memory.wf s.mem = true) :
    (∀ t1, (execMovk f s) = .next t1 → Memory.wf t1.mem = true) := by
  refine next_canon (issue_canon _ _ _ ?_ hs)
  exact laneBody_canon _ _
theorem execShl_canon (f : Fields) (s : State) (hs : Memory.wf s.mem = true) :
    (∀ t1, (execShl f s) = .next t1 → Memory.wf t1.mem = true) := by
  refine next_canon (issue_canon _ _ _ ?_ hs)
  refine fun c hc => ?_
  have h1 := hc.1
  dsimp only
  grind (splits := 8) [laneBody_canon, Iss.canon, Out.canon, Res.canon, Body.canon]
theorem execShr_canon (f : Fields) (s : State) (hs : Memory.wf s.mem = true) :
    (∀ t1, (execShr f s) = .next t1 → Memory.wf t1.mem = true) := by
  refine next_canon (issue_canon _ _ _ ?_ hs)
  refine fun c hc => ?_
  have h1 := hc.1
  dsimp only
  grind (splits := 8) [laneBody_canon, Iss.canon, Out.canon, Res.canon, Body.canon]
theorem execSar_canon (f : Fields) (s : State) (hs : Memory.wf s.mem = true) :
    (∀ t1, (execSar f s) = .next t1 → Memory.wf t1.mem = true) := by
  refine next_canon (issue_canon _ _ _ ?_ hs)
  exact laneBody_canon _ _
theorem execFshl_canon (f : Fields) (s : State) (hs : Memory.wf s.mem = true) :
    (∀ t1, (execFshl f s) = .next t1 → Memory.wf t1.mem = true) := by
  refine next_canon (issue_canon _ _ _ ?_ hs)
  refine fun c hc => ?_
  have h1 := hc.1
  dsimp only
  grind (splits := 8) [laneBody_canon, Iss.canon, Out.canon, Res.canon, Body.canon]
theorem execFshr_canon (f : Fields) (s : State) (hs : Memory.wf s.mem = true) :
    (∀ t1, (execFshr f s) = .next t1 → Memory.wf t1.mem = true) := by
  refine next_canon (issue_canon _ _ _ ?_ hs)
  refine fun c hc => ?_
  have h1 := hc.1
  dsimp only
  grind (splits := 8) [laneBody_canon, Iss.canon, Out.canon, Res.canon, Body.canon]
theorem execBfe_canon (f : Fields) (s : State) (hs : Memory.wf s.mem = true) :
    (∀ t1, (execBfe f s) = .next t1 → Memory.wf t1.mem = true) := by
  refine next_canon (issue_canon _ _ _ ?_ hs)
  exact laneBody_canon _ _
theorem execBfi_canon (f : Fields) (s : State) (hs : Memory.wf s.mem = true) :
    (∀ t1, (execBfi f s) = .next t1 → Memory.wf t1.mem = true) := by
  refine next_canon (issue_canon _ _ _ ?_ hs)
  exact laneBody_canon _ _
theorem execBrev_canon (f : Fields) (s : State) (hs : Memory.wf s.mem = true) :
    (∀ t1, (execBrev f s) = .next t1 → Memory.wf t1.mem = true) := by
  refine next_canon (issue_canon _ _ _ ?_ hs)
  exact laneBody_canon _ _
theorem execPopc_canon (f : Fields) (s : State) (hs : Memory.wf s.mem = true) :
    (∀ t1, (execPopc f s) = .next t1 → Memory.wf t1.mem = true) := by
  refine next_canon (issue_canon _ _ _ ?_ hs)
  exact laneBody_canon _ _
theorem execClz_canon (f : Fields) (s : State) (hs : Memory.wf s.mem = true) :
    (∀ t1, (execClz f s) = .next t1 → Memory.wf t1.mem = true) := by
  refine next_canon (issue_canon _ _ _ ?_ hs)
  refine fun c hc => ?_
  have h1 := hc.1
  dsimp only
  grind (splits := 8) [laneBody_canon, Iss.canon, Out.canon, Res.canon, Body.canon]
theorem execCtz_canon (f : Fields) (s : State) (hs : Memory.wf s.mem = true) :
    (∀ t1, (execCtz f s) = .next t1 → Memory.wf t1.mem = true) := by
  refine next_canon (issue_canon _ _ _ ?_ hs)
  exact laneBody_canon _ _
theorem execZext_canon (f : Fields) (s : State) (hs : Memory.wf s.mem = true) :
    (∀ t1, (execZext f s) = .next t1 → Memory.wf t1.mem = true) := by
  refine next_canon (issue_canon _ _ _ ?_ hs)
  exact laneBody_canon _ _
theorem execFadd_canon (f : Fields) (s : State) (hs : Memory.wf s.mem = true) :
    (∀ t1, (execFadd f s) = .next t1 → Memory.wf t1.mem = true) := by
  refine next_canon (issue_canon _ _ _ ?_ hs)
  exact sameSlot_canon _ _
theorem execFsub_canon (f : Fields) (s : State) (hs : Memory.wf s.mem = true) :
    (∀ t1, (execFsub f s) = .next t1 → Memory.wf t1.mem = true) := by
  refine next_canon (issue_canon _ _ _ ?_ hs)
  exact sameSlot_canon _ _
theorem execFmul_canon (f : Fields) (s : State) (hs : Memory.wf s.mem = true) :
    (∀ t1, (execFmul f s) = .next t1 → Memory.wf t1.mem = true) := by
  refine next_canon (issue_canon _ _ _ ?_ hs)
  exact sameSlot_canon _ _
theorem execFfma_canon (f : Fields) (s : State) (hs : Memory.wf s.mem = true) :
    (∀ t1, (execFfma f s) = .next t1 → Memory.wf t1.mem = true) := by
  refine next_canon (issue_canon _ _ _ ?_ hs)
  exact sameSlot_canon _ _
theorem execFmin_canon (f : Fields) (s : State) (hs : Memory.wf s.mem = true) :
    (∀ t1, (execFmin f s) = .next t1 → Memory.wf t1.mem = true) := by
  refine next_canon (issue_canon _ _ _ ?_ hs)
  exact sameSlot_canon _ _
theorem execFmax_canon (f : Fields) (s : State) (hs : Memory.wf s.mem = true) :
    (∀ t1, (execFmax f s) = .next t1 → Memory.wf t1.mem = true) := by
  refine next_canon (issue_canon _ _ _ ?_ hs)
  exact sameSlot_canon _ _
theorem testBody_canon (t : Iss → ℕ → ℕ → Bool) : (testBody t).canon := by
  unfold testBody
  grind [putD_canon, Iss.canon, Out.canon, Res.canon, Body.canon]
theorem execFcmp_canon (f : Fields) (s : State) (hs : Memory.wf s.mem = true) :
    (∀ t1, (execFcmp f s) = .next t1 → Memory.wf t1.mem = true) := by
  refine next_canon (issue_canon _ _ _ ?_ hs)
  exact testBody_canon _
theorem execFclass_canon (f : Fields) (s : State) (hs : Memory.wf s.mem = true) :
    (∀ t1, (execFclass f s) = .next t1 → Memory.wf t1.mem = true) := by
  refine next_canon (issue_canon _ _ _ ?_ hs)
  exact testBody_canon _
theorem execFrnd_canon (f : Fields) (s : State) (hs : Memory.wf s.mem = true) :
    (∀ t1, (execFrnd f s) = .next t1 → Memory.wf t1.mem = true) := by
  refine next_canon (issue_canon _ _ _ ?_ hs)
  exact sameSlot_canon _ _
theorem execFscale_canon (f : Fields) (s : State) (hs : Memory.wf s.mem = true) :
    (∀ t1, (execFscale f s) = .next t1 → Memory.wf t1.mem = true) := by
  refine next_canon (issue_canon _ _ _ ?_ hs)
  exact slotBody_canon _ _ _ _
theorem execFdot_canon (f : Fields) (s : State) (hs : Memory.wf s.mem = true) :
    (∀ t1, (execFdot f s) = .next t1 → Memory.wf t1.mem = true) := by
  refine next_canon (issue_canon _ _ _ ?_ hs)
  refine fun c hc => ?_
  have h1 := hc.1
  dsimp only
  grind (splits := 8) [slotBody_canon, Iss.canon, Out.canon, Res.canon, Body.canon]
theorem mxUpdates_canon (c : Iss) (k : ℕ) (hc : c.canon) : Memory.wf (mxUpdates c k).mem = true := by
  unfold mxUpdates
  grind [State.modCore_mem, Acc.canon, DetTest.canon, DetGate.canon, Gate.canon, Iss.canon, Out.canon, EngOut.canon,
      StepOut.canon, RunOut.canon, Res.canon, Body.canon]
theorem execFcvts_canon (f : Fields) (s : State) (hs : Memory.wf s.mem = true) :
    (∀ t1, (execFcvts f s) = .next t1 → Memory.wf t1.mem = true) := by
  refine next_canon (issue_canon _ _ _ ?_ hs)
  refine fun c hc => ?_
  have h1 := hc.1
  dsimp only
  grind (splits := 8) [convBody_canon, mxUpdates_canon, Iss.canon, Out.canon, Res.canon, Body.canon]
theorem execF2i_canon (f : Fields) (s : State) (hs : Memory.wf s.mem = true) :
    (∀ t1, (execF2i f s) = .next t1 → Memory.wf t1.mem = true) := by
  refine next_canon (issue_canon _ _ _ ?_ hs)
  exact convBody_canon _ _
theorem execI2f_canon (f : Fields) (s : State) (hs : Memory.wf s.mem = true) :
    (∀ t1, (execI2f f s) = .next t1 → Memory.wf t1.mem = true) := by
  refine next_canon (issue_canon _ _ _ ?_ hs)
  exact convBody_canon _ _
theorem execFunpack_canon (f : Fields) (s : State) (hs : Memory.wf s.mem = true) :
    (∀ t1, (execFunpack f s) = .next t1 → Memory.wf t1.mem = true) := by
  refine next_canon (issue_canon _ _ _ ?_ hs)
  refine fun c hc => ?_
  have h1 := hc.1
  dsimp only
  grind (splits := 8) [slotBody_canon, Iss.canon, Out.canon, Res.canon, Body.canon]
theorem execRand_canon (f : Fields) (s : State) (hs : Memory.wf s.mem = true) :
    (∀ t1, (execRand f s) = .next t1 → Memory.wf t1.mem = true) := by
  refine next_canon (issue_canon _ _ _ ?_ hs)
  refine fun c hc => ?_
  have h1 := hc.1
  dsimp only
  grind (splits := 8) [putD_canon, Iss.canon, Out.canon, Res.canon, Body.canon]
theorem execFrcp_canon (f : Fields) (s : State) (hs : Memory.wf s.mem = true) :
    (∀ t1, (execFrcp f s) = .next t1 → Memory.wf t1.mem = true) := by
  refine next_canon (issue_canon _ _ _ ?_ hs)
  exact funBody_canon _
theorem Body.latency_canon (b : Body) (least : ℕ) (span : ℕ) (hb : b.canon) : (Body.latency b least span).canon := by
  unfold Body.latency
  grind [Iss.canon, Out.canon, Res.canon, Body.canon]
theorem execFsqrt_canon (f : Fields) (s : State) (hs : Memory.wf s.mem = true) :
    (∀ t1, (execFsqrt f s) = .next t1 → Memory.wf t1.mem = true) :=
    next_canon (issue_canon _ _ _ (Body.latency_canon _ _ _ (funBody_canon _)) hs)
theorem execFdiv_canon (f : Fields) (s : State) (hs : Memory.wf s.mem = true) :
    (∀ t1, (execFdiv f s) = .next t1 → Memory.wf t1.mem = true) :=
    next_canon (issue_canon _ _ _ (Body.latency_canon _ _ _ (sameSlot_canon _ _)) hs)
theorem execFexp2_canon (f : Fields) (s : State) (hs : Memory.wf s.mem = true) :
    (∀ t1, (execFexp2 f s) = .next t1 → Memory.wf t1.mem = true) := by
  refine next_canon (issue_canon _ _ _ ?_ hs)
  exact funBody_canon _
theorem execFlog2_canon (f : Fields) (s : State) (hs : Memory.wf s.mem = true) :
    (∀ t1, (execFlog2 f s) = .next t1 → Memory.wf t1.mem = true) := by
  refine next_canon (issue_canon _ _ _ ?_ hs)
  exact funBody_canon _
theorem execFsin_canon (f : Fields) (s : State) (hs : Memory.wf s.mem = true) :
    (∀ t1, (execFsin f s) = .next t1 → Memory.wf t1.mem = true) := by
  refine next_canon (issue_canon _ _ _ ?_ hs)
  exact funBody_canon _
theorem execFcos_canon (f : Fields) (s : State) (hs : Memory.wf s.mem = true) :
    (∀ t1, (execFcos f s) = .next t1 → Memory.wf t1.mem = true) := by
  refine next_canon (issue_canon _ _ _ ?_ hs)
  exact funBody_canon _
theorem execFtanh_canon (f : Fields) (s : State) (hs : Memory.wf s.mem = true) :
    (∀ t1, (execFtanh f s) = .next t1 → Memory.wf t1.mem = true) := by
  refine next_canon (issue_canon _ _ _ ?_ hs)
  refine fun c hc => ?_
  have h1 := hc.1
  dsimp only
  grind (splits := 8) [slotBody_canon, Iss.canon, Out.canon, Res.canon, Body.canon]
theorem crossBody_canon (wide : Iss → Bool) (ok : Iss → ℕ → Bool) (g : Iss → ℕ → ℕ) : (crossBody wide ok g).canon := by
  unfold crossBody
  grind [putD_canon, Iss.canon, Out.canon, Res.canon, Body.canon]
theorem execVote_canon (f : Fields) (s : State) (hs : Memory.wf s.mem = true) :
    (∀ t1, (execVote f s) = .next t1 → Memory.wf t1.mem = true) := by
  refine next_canon (issue_canon _ _ _ ?_ hs)
  refine fun c hc => ?_
  have h1 := hc.1
  dsimp only
  grind (splits := 8) [crossBody_canon, Iss.canon, Out.canon, Res.canon, Body.canon]
theorem execShfl_canon (f : Fields) (s : State) (hs : Memory.wf s.mem = true) :
    (∀ t1, (execShfl f s) = .next t1 → Memory.wf t1.mem = true) := by
  refine next_canon (issue_canon _ _ _ ?_ hs)
  exact crossBody_canon _ _ _
theorem reduxBody_canon (wide : Iss → Bool) (srcs : Iss → ℕ → List ℕ) : (reduxBody wide srcs).canon := by
  unfold reduxBody
  grind [putFlagged_canon, Iss.canon, Out.canon, Res.canon, Body.canon]
theorem execRedux_canon (f : Fields) (s : State) (hs : Memory.wf s.mem = true) :
    (∀ t1, (execRedux f s) = .next t1 → Memory.wf t1.mem = true) := by
  refine next_canon (issue_canon _ _ _ ?_ hs)
  exact reduxBody_canon _ _
theorem execScan_canon (f : Fields) (s : State) (hs : Memory.wf s.mem = true) :
    (∀ t1, (execScan f s) = .next t1 → Memory.wf t1.mem = true) := by
  refine next_canon (issue_canon _ _ _ ?_ hs)
  exact reduxBody_canon _ _
theorem execMatchL_canon (f : Fields) (s : State) (hs : Memory.wf s.mem = true) :
    (∀ t1, (execMatchL f s) = .next t1 → Memory.wf t1.mem = true) := by
  refine next_canon (issue_canon _ _ _ ?_ hs)
  refine fun c hc => ?_
  have h1 := hc.1
  dsimp only
  grind (splits := 8) [crossBody_canon, Iss.canon, Out.canon, Res.canon, Body.canon]
theorem execSdef_canon (f : Fields) (s : State) (hs : Memory.wf s.mem = true) :
    (∀ t1, (execSdef f s) = .next t1 → Memory.wf t1.mem = true) := by
  refine next_canon (issue_canon _ _ _ ?_ hs)
  refine fun c hc => ?_
  have h1 := hc.1
  dsimp only
  (repeat' split) <;> simp +contextual [Res.canon, Out.canon, h1]
theorem execSseek_canon (f : Fields) (s : State) (hs : Memory.wf s.mem = true) :
    (∀ t1, (execSseek f s) = .next t1 → Memory.wf t1.mem = true) := by
  refine next_canon (issue_canon _ _ _ ?_ hs)
  refine fun c hc => ?_
  have h1 := hc.1
  dsimp only
  (repeat' split) <;> simp +contextual [Res.canon, Out.canon, h1]
theorem execSpos_canon (f : Fields) (s : State) (hs : Memory.wf s.mem = true) :
    (∀ t1, (execSpos f s) = .next t1 → Memory.wf t1.mem = true) := by
  refine next_canon (issue_canon _ _ _ ?_ hs)
  refine fun c hc => ?_
  have h1 := hc.1
  dsimp only
  grind (splits := 8) [laneBody_canon, Iss.canon, Out.canon, Res.canon, Body.canon]
theorem execSflag_canon (f : Fields) (s : State) (hs : Memory.wf s.mem = true) :
    (∀ t1, (execSflag f s) = .next t1 → Memory.wf t1.mem = true) := by
  refine next_canon (issue_canon _ _ _ ?_ hs)
  refine fun c hc => ?_
  have h1 := hc.1
  dsimp only
  grind (splits := 8) [putD_canon, Iss.canon, Out.canon, Res.canon, Body.canon]
theorem execChain_canon (f : Fields) (s : State) (hs : Memory.wf s.mem = true) :
    (∀ t1, (execChain f s) = .next t1 → Memory.wf t1.mem = true) := by
  refine next_canon (issue_canon _ _ _ ?_ hs)
  refine fun c hc => ?_
  have h1 := hc.1
  dsimp only
  grind (splits := 8) [Iss.access_canon, readParts_canon, State.modWarp_mem, Acc.stop_canon, Acc.canon, Iss.canon,
      Out.canon, Res.canon, Body.canon]
theorem scopedRead_canon (s : State) (wg : ℕ) (p : ℕ) (sco : ℕ) (hint : ℕ) (t : TPart) (hs :
    Memory.wf s.mem = true) : Memory.wf (scopedRead s wg p sco hint t).2.2.mem = true := by
  unfold scopedRead
  grind (splits := 6) [weakRead_canon, writeback_canon, dropLines_canon, Acc.canon, DetTest.canon, Put.canon,
      DetGate.canon, Gate.canon, Iss.canon, Out.canon, EngOut.canon, StepOut.canon, RunOut.canon, Res.canon, Body.canon]
theorem readLane_canon (c : Iss) (s : State) (ts : List TPart) (hc : c.canon) (hs : Memory.wf s.mem = true) :
    Memory.wf (readLane c s ts).2.2.mem = true := by
  unfold readLane
  split
  · exact readParts_canon _ _ _ _ _ hs
  · exact fold_inv (fun a : List Byte × Bool × State => Memory.wf a.2.2.mem = true) _ _ _ (fun a t h =>
      scopedRead_canon _ _ _ _ _ _ h) hs
theorem readLanes_canon (c : Iss) (s : State) (gs : List (ℕ × List TPart)) (hc : c.canon) (hs :
    Memory.wf s.mem = true) : Memory.wf (readLanes c s gs).2.mem = true := by
  unfold readLanes
  exact fold_inv (fun a : List (ℕ × List Byte × Bool) × State => Memory.wf a.2.mem = true) _ _ _ (fun a g h =>
      readLane_canon _ _ _ hc h) hs
theorem putLoad_canon (c : Iss) (o : Out) (n : ℕ) (vals : List (ℕ × Option ℕ)) (hc : c.canon) (ho : o.canon) :
    (putLoad c o n vals).canon := by
  unfold putLoad
  grind (splits := 6) [appendStream_canon, Iss.canon, Out.canon, Res.canon]
theorem execLd_canon (f : Fields) (s : State) (hs : Memory.wf s.mem = true) :
    (∀ t1, (execLd f s) = .next t1 → Memory.wf t1.mem = true) := by
  refine next_canon (issue_canon _ _ _ ?_ hs)
  refine fun c hc => ?_
  have h1 := hc.1
  dsimp only
  grind (splits := 8) [withAccess_canon, Iss.awaitWriteback_canon, readLanes_canon, putLoad_canon, Iss.canon,
      Out.canon, Res.canon, Body.canon]
theorem execLdk_canon (f : Fields) (s : State) (hs : Memory.wf s.mem = true) :
    (∀ t1, (execLdk f s) = .next t1 → Memory.wf t1.mem = true) := by
  refine next_canon (issue_canon _ _ _ ?_ hs)
  refine fun c hc => ?_
  have h1 := hc.1
  dsimp only
  grind (splits := 8) [withAccess_canon, readParts_canon, Iss.canon, Out.canon, Res.canon, Body.canon]
theorem execLdpk_canon (f : Fields) (s : State) (hs : Memory.wf s.mem = true) :
    (∀ t1, (execLdpk f s) = .next t1 → Memory.wf t1.mem = true) := by
  refine next_canon (issue_canon _ _ _ (fun c hc => ?_) hs)
  refine withAccess_canon _ _ _ _ _ _ hc hc.1 (fun ts s h => ?_)
  dsimp only
  generalize hr : List.foldl _ (_, s) _ = r
  have hm : Memory.wf r.2.mem = true := by
    rw [← hr]
    exact fold_inv (fun a : List (Nat × Nat × Bool) × State => Memory.wf a.2.mem = true) _ _ _
        (fun a g h => readParts_canon _ _ _ _ _ h) h
  split
  · exact putLoad_canon _ _ _ _ hc hm
  · exact hm
theorem execStpk_canon (f : Fields) (s : State) (hs : Memory.wf s.mem = true) :
    (∀ t1, (execStpk f s) = .next t1 → Memory.wf t1.mem = true) := by
  refine next_canon (issue_canon _ _ _ (fun c hc => ?_) hs)
  refine withAccess_canon _ _ _ _ _ _ hc hc.1 (fun ts s h => ?_)
  exact withRoom_canon _ _ _ _ _ hc h (fun s h => storeLanes_canon _ _ _ _ _ _ hc h)
theorem withReach_canon (c : Iss) (s : State) (r : Right) (obj : Bool) (ps : List Part) (k : List TPart → State →
    Res) (hc : c.canon) (hs : Memory.wf s.mem = true) (hk : (∀ (a3 : List TPart) (a4 :
    State), Memory.wf a4.mem = true → (k a3 a4).canon)) : (withReach c s r obj ps k).canon := by
  unfold withReach
  grind (splits := 6) [Iss.reach_canon, Acc.stop_canon, Acc.canon, Iss.canon, Out.canon, Res.canon]
theorem detRun_canon (s : State) (q : AtomReq) (hs : Memory.wf s.mem = true) : Memory.wf (detRun s q).2.mem = true := by
  unfold detRun
  grind [addHash_mem, detWrite_canon, detReduce_canon, AtomReq.onLane_mem, clearResv_mem, Acc.canon, DetTest.canon,
      DetGate.canon, Gate.canon, Iss.canon, Out.canon, EngOut.canon, StepOut.canon, RunOut.canon, Res.canon, Body.canon]
theorem detAll_canon (s : State) (qs : List AtomReq) (hs : Memory.wf s.mem = true) :
    Memory.wf (detAll s qs).2.2.mem = true := by
  refine fold_inv (fun a : List (Nat × Option Nat) × List TPart × State =>
      Memory.wf a.2.2.mem = true) _ _ _ (fun a q h => ?_) hs
  dsimp only
  split
  · show Memory.wf (State.mem (ite _ _ _)) = true
    split
    · exact poisonRecord_canon _ _ _ _ h
    · exact h
  · exact detRun_canon _ _ h
theorem sendRequests_canon (c : Iss) (s : State) (qs : List AtomReq) (reds : ℕ) (hc : c.canon) (hs :
    Memory.wf s.mem = true) : (sendRequests c s qs reds).canon := by
  unfold sendRequests
  dsimp only
  split
  · split
    · trivial
    · refine withRoom_canon _ _ _ _ _ hc hs (fun s h => ?_)
      have hd := detAll_canon s qs h
      split
      · exact appendStream_canon _ _ _ _ hc hd
      · exact hd
  · split
    · have hr := reserveAppend_canon c s (c.f.d.toNat - 96) (qs.map (·.lane)) hc hs
      split <;> rename_i he
      · exact hr.1 _ he
      · show Memory.wf (State.mem _) = true
        rw [enqueueAtoms_mem]
        exact hr.2 _ he
    · show Memory.wf (State.mem _) = true
      rw [enqueueAtoms_mem]; exact hs
theorem execStpair_canon (f : Fields) (s : State) (hs : Memory.wf s.mem = true) :
    (∀ t1, (execStpair f s) = .next t1 → Memory.wf t1.mem = true) := by
  refine next_canon (issue_canon _ _ _ ?_ hs)
  refine fun c hc => ?_
  have h1 := hc.1
  dsimp only
  grind (splits := 8) [withReach_canon, sendRequests_canon, Iss.canon, Out.canon, Res.canon, Body.canon]
theorem padLoad_canon (c : Iss) (q : ℕ) (hc : c.canon) : (padLoad c q).canon := by
  unfold padLoad
  grind (splits := 6) [putLoad_canon, Iss.canon, Out.canon, Res.canon]
theorem execLds_canon (f : Fields) (s : State) (hs : Memory.wf s.mem = true) :
    (∀ t1, (execLds f s) = .next t1 → Memory.wf t1.mem = true) := by
  refine next_canon (issue_canon _ _ _ ?_ hs)
  refine fun c hc => ?_
  have h1 := hc.1
  dsimp only
  grind (splits := 8) [padLoad_canon, Iss.canon, Out.canon, Res.canon, Body.canon]
theorem execSts_canon (f : Fields) (s : State) (hs : Memory.wf s.mem = true) :
    (∀ t1, (execSts f s) = .next t1 → Memory.wf t1.mem = true) := by
  refine next_canon (issue_canon _ _ _ ?_ hs)
  refine fun c hc => ?_
  have h1 := hc.1
  dsimp only
  grind (splits := 8) [padStore_canon, Iss.canon, Out.canon, Res.canon, Body.canon]
theorem execLdq_canon (f : Fields) (s : State) (hs : Memory.wf s.mem = true) :
    (∀ t1, (execLdq f s) = .next t1 → Memory.wf t1.mem = true) := by
  refine next_canon (issue_canon _ _ _ ?_ hs)
  refine fun c hc => ?_
  have h1 := hc.1
  dsimp only
  grind (splits := 8) [padLoad_canon, Iss.canon, Out.canon, Res.canon, Body.canon]
theorem execStq_canon (f : Fields) (s : State) (hs : Memory.wf s.mem = true) :
    (∀ t1, (execStq f s) = .next t1 → Memory.wf t1.mem = true) := by
  refine next_canon (issue_canon _ _ _ ?_ hs)
  refine fun c hc => ?_
  have h1 := hc.1
  dsimp only
  grind (splits := 8) [padStore_canon, Iss.canon, Out.canon, Res.canon, Body.canon]
theorem execLdmc_canon (f : Fields) (s : State) (hs : Memory.wf s.mem = true) :
    (∀ t1, (execLdmc f s) = .next t1 → Memory.wf t1.mem = true) := by
  refine next_canon (issue_canon _ _ _ (fun c hc => ?_) hs)
  dsimp only
  split
  · trivial
  · split
    · trivial
    · refine withAccess_canon _ _ _ _ _ _ hc hc.1 (fun ts s h => ?_)
      generalize hr : List.foldl _ (_, s) _ = r
      have hm : Memory.wf r.2.mem = true := by
        rw [← hr]
        exact fold_inv (fun a : List (Nat × List Byte × Bool) × State => Memory.wf a.2.mem = true) _ _ _
          (fun a g h => readParts_canon _ _ _ _ _ h) h
      split
      · trivial
      · show Memory.wf (State.mem _) = true
        refine foldl_canon _ _ _ (fun s a h => ?_) hm
        exact foldl_canon _ _ _ (fun s q h => by rw [scratchWrite_mem]; exact h) h
theorem globalAtom_canon (c : Iss) (kind : ℕ) (r : Right) (obj : Bool) (hasD : Bool) (hc : c.canon) :
    (globalAtom c kind r obj hasD).canon := by
  unfold globalAtom
  grind (splits := 6) [withReach_canon, sendRequests_canon, Iss.canon, Out.canon, Res.canon]
theorem padAtom_canon (c : Iss) (hasD : Bool) (new : ℕ → ℕ → Option ℕ) (hc : c.canon) : (padAtom c hasD new).canon := by
  unfold padAtom
  dsimp only
  generalize (if c.f.spc = 2 then c.f.qp13 else c.g.qgpos) = q
  split
  · trivial
  · split
    · trivial
    · split
      · trivial
      · generalize hr : List.foldl _ (_, c.s) _ = r
        have hm : Memory.wf r.2.mem = true := by
          rw [← hr]
          refine fold_inv (fun a : List (ℕ × Option ℕ) × State => Memory.wf a.2.mem = true) _ _ _ (fun a l h => ?_) hc.1
          dsimp only
          split
          · rw [scratchWrite_mem]; exact h
          · exact h
        split
        · exact putLoad_canon _ _ _ _ hc hm
        · exact hm
theorem intAtom_canon (c : Iss) (kind : ℕ) (r : Right) (hasD : Bool) (hc : c.canon) :
    (intAtom c kind r hasD).canon := by
  unfold intAtom
  grind [globalAtom_canon, padAtom_canon, Iss.canon, Out.canon, Res.canon]
theorem execAtom_canon (f : Fields) (s : State) (hs : Memory.wf s.mem = true) :
    (∀ t1, (execAtom f s) = .next t1 → Memory.wf t1.mem = true) := by
  refine next_canon (issue_canon _ _ _ ?_ hs)
  refine fun c hc => ?_
  have h1 := hc.1
  dsimp only
  grind (splits := 8) [intAtom_canon, Iss.canon, Out.canon, Res.canon, Body.canon]
theorem floatAtom_canon (c : Iss) (kind : ℕ) (r : Right) (hasD : Bool) (hc : c.canon) :
    (floatAtom c kind r hasD).canon := by
  unfold floatAtom
  grind [globalAtom_canon, padAtom_canon, Iss.canon, Out.canon, Res.canon]
theorem execAtomf_canon (f : Fields) (s : State) (hs : Memory.wf s.mem = true) :
    (∀ t1, (execAtomf f s) = .next t1 → Memory.wf t1.mem = true) := by
  refine next_canon (issue_canon _ _ _ ?_ hs)
  refine fun c hc => ?_
  have h1 := hc.1
  dsimp only
  grind (splits := 8) [floatAtom_canon, Iss.canon, Out.canon, Res.canon, Body.canon]
theorem execLr_canon (f : Fields) (s : State) (hs : Memory.wf s.mem = true) :
    (∀ t1, (execLr f s) = .next t1 → Memory.wf t1.mem = true) := by
  refine next_canon (issue_canon _ _ _ ?_ hs)
  refine fun c hc => ?_
  have h1 := hc.1
  dsimp only
  grind (splits := 8) [globalAtom_canon, State.modWarp_mem, Iss.canon, Out.canon, Res.canon, Body.canon]
theorem execSc_canon (f : Fields) (s : State) (hs : Memory.wf s.mem = true) :
    (∀ t1, (execSc f s) = .next t1 → Memory.wf t1.mem = true) := by
  refine next_canon (issue_canon _ _ _ ?_ hs)
  refine fun c hc => ?_
  have h1 := hc.1
  dsimp only
  grind (splits := 8) [globalAtom_canon, Iss.canon, Out.canon, Res.canon, Body.canon]
theorem execRed_canon (f : Fields) (s : State) (hs : Memory.wf s.mem = true) :
    (∀ t1, (execRed f s) = .next t1 → Memory.wf t1.mem = true) := by
  refine next_canon (issue_canon _ _ _ ?_ hs)
  refine fun c hc => ?_
  have h1 := hc.1
  dsimp only
  grind (splits := 8) [intAtom_canon, Iss.canon, Out.canon, Res.canon, Body.canon]
theorem execRedf_canon (f : Fields) (s : State) (hs : Memory.wf s.mem = true) :
    (∀ t1, (execRedf f s) = .next t1 → Memory.wf t1.mem = true) := by
  refine next_canon (issue_canon _ _ _ ?_ hs)
  refine fun c hc => ?_
  have h1 := hc.1
  dsimp only
  grind (splits := 8) [floatAtom_canon, Iss.canon, Out.canon, Res.canon, Body.canon]
theorem execLrHoldExpiry_canon (granule : ℕ) (s : State) (hs : Memory.wf s.mem = true) :
    (∀ t1, (execLrHoldExpiry granule s) = .next t1 → Memory.wf t1.mem = true) := by
  refine next_canon ?_
  exact hs
theorem execFence_canon (f : Fields) (s : State) (hs : Memory.wf s.mem = true) :
    (∀ t1, (execFence f s) = .next t1 → Memory.wf t1.mem = true) := by
  refine next_canon (issue_canon _ _ _ (fun c hc => ?_) hs)
  have hf := fenceFirst_canon c c.s c.f.sco hc hc.1
  dsimp only
  split <;> rename_i he
  · exact hf.1 _ he
  · show Memory.wf (State.mem (ite _ _ _)) = true
    split
    · exact dropAll_canon _ _ (hf.2 _ he)
    · exact hf.2 _ he
theorem setRegion_mem (s : State) (ctx : ℕ) (n : ℕ) (r : Region) : (setRegion s ctx n r).mem = s.mem := by rfl
theorem putRegion_mem (c : Iss) (s : State) (r : Region) : (putRegion c s r).mem = s.mem := by
  unfold putRegion
  (repeat' split) <;> simp [setRegion_mem]
theorem execBind_canon (f : Fields) (s : State) (hs : Memory.wf s.mem = true) :
    (∀ t1, (execBind f s) = .next t1 → Memory.wf t1.mem = true) := by
  refine next_canon (issue_canon _ _ _ ?_ hs)
  refine fun c hc => ?_
  have h1 := hc.1
  dsimp only
  (repeat' split) <;> simp +contextual [Res.canon, Out.canon, putRegion_mem, h1]
theorem passGate_canon (c : Iss) (s : State) (hc : c.canon) (hs : Memory.wf s.mem = true) :
    Memory.wf (passGate c s).mem = true := by
  unfold passGate
  (repeat' split) <;> simp +contextual [drainGate_canon, hs]
theorem execUnbind_canon (f : Fields) (s : State) (hs : Memory.wf s.mem = true) :
    (∀ t1, (execUnbind f s) = .next t1 → Memory.wf t1.mem = true) := by
  refine next_canon (issue_canon _ _ _ ?_ hs)
  refine fun c hc => ?_
  have h1 := hc.1
  dsimp only
  grind (splits := 8) [putRegion_mem, passGate_canon, Iss.canon, Out.canon, Res.canon, Body.canon]
theorem execAcqGe_canon (f : Fields) (s : State) (hs : Memory.wf s.mem = true) :
    (∀ t1, (execAcqGe f s) = .next t1 → Memory.wf t1.mem = true) := by
  refine next_canon (issue_canon _ _ _ (fun c hc => ?_) hs)
  dsimp only
  refine withObject_canon _ _ _ hc (fun o t s h => ?_)
  refine objectLine_canon _ _ _ _ hc h (fun s h => ?_)
  split
  · exact acqDone_canon _ _ _ _ hc h
  · show Memory.wf (State.mem _) = true
    rw [State.modWarp_mem]; exact hc.2
theorem execAcqGeWake_canon (wg : ℕ) (warp : ℕ) (s : State) (hs : Memory.wf s.mem = true) :
    (∀ t1, (execAcqGeWake wg warp s) = .next t1 → Memory.wf t1.mem = true) := by
  refine next_canon ?_
  exact hs
theorem execRel_canon (f : Fields) (s : State) (hs : Memory.wf s.mem = true) :
    (∀ t1, (execRel f s) = .next t1 → Memory.wf t1.mem = true) := by
  refine next_canon (issue_canon _ _ _ ?_ hs)
  refine fun c hc => ?_
  have h1 := hc.1
  dsimp only
  grind (splits := 8) [withObject_canon, withRoom_canon, detReduce_canon, Iss.awaitWriteback_canon, writeback_canon,
      atomRun_canon, Iss.canon, Out.canon, Res.canon, Body.canon]
theorem parkAtBar_mem (c : Iss) (s : State) (ls : List ℕ) (phase : ℕ) : (parkAtBar c s ls phase).mem = s.mem := by rfl
theorem arrive_mem (c : Iss) (s : State) : (arrive c s).mem = s.mem := by rfl
theorem execBar_canon (f : Fields) (s : State) (hs : Memory.wf s.mem = true) :
    (∀ t1, (execBar f s) = .next t1 → Memory.wf t1.mem = true) := by
  refine next_canon (issue_canon _ _ _ (fun c hc => ?_) hs)
  have hf := fenceFirst_canon c c.s c.f.sco hc hc.1
  dsimp only
  split <;> rename_i he
  · exact hf.1 _ he
  · refine ⟨?_, fun s h => barTry_canon _ _ _ _ h⟩
    show Memory.wf (State.mem _) = true
    rw [parkAtBar_mem, arrive_mem]; exact hf.2 _ he
theorem execBara_canon (f : Fields) (s : State) (hs : Memory.wf s.mem = true) :
    (∀ t1, (execBara f s) = .next t1 → Memory.wf t1.mem = true) := by
  refine next_canon (issue_canon _ _ _ (fun c hc => ?_) hs)
  have hf := fenceFirst_canon c c.s c.f.sco hc hc.1
  dsimp only
  split <;> rename_i he
  · exact hf.1 _ he
  · refine ⟨?_, fun s h => barTry_canon _ _ _ _ h⟩
    show Memory.wf (State.mem _) = true
    rw [arrive_mem]; exact hf.2 _ he
theorem stopPast_mem (c : Iss) (go : List ℕ) (s : State) : (stopPast c go s).mem = s.mem := by rfl
theorem execBarw_canon (f : Fields) (s : State) (hs : Memory.wf s.mem = true) :
    (∀ t1, (execBarw f s) = .next t1 → Memory.wf t1.mem = true) := by
  refine next_canon (issue_canon _ _ _ ?_ hs)
  refine fun c hc => ?_
  have h1 := hc.1
  dsimp only
  grind (splits := 8) [Iss.awaitWriteback_canon, State.modWarp_mem, dropAll_canon, parkAtBar_mem, stopPast_mem,
      Iss.canon, Out.canon, Res.canon, Body.canon]
theorem execRrmodeOff_canon (f : Fields) (s : State) (hs : Memory.wf s.mem = true) :
    (∀ t1, (execRrmodeOff f s) = .next t1 → Memory.wf t1.mem = true) := by
  refine next_canon (issue_canon _ _ _ ?_ hs)
  refine fun c hc => ?_
  have h1 := hc.1
  dsimp only
  grind (splits := 8) [putRegion_mem, passGate_canon, Iss.canon, Out.canon, Res.canon, Body.canon]
theorem headerPut_canon (c : Iss) (s : State) (va : ℕ) (bs : List Byte) (k : State → Res) (hc : c.canon) (hs :
    Memory.wf s.mem = true) (hk : (∀ (a2 : State), Memory.wf a2.mem = true → (k a2).canon)) :
    (headerPut c s va bs k).canon := by
  unfold headerPut
  grind (splits := 6) [withRoom_canon, detWrite_canon, logPut_canon, Iss.canon, Out.canon, Res.canon]
theorem rrEnter_canon (c : Iss) (rrm : ℕ) (hdr : ℕ → ℕ × List Byte) (hc : c.canon) : (rrEnter c rrm hdr).canon := by
  unfold rrEnter
  grind (splits := 6) [passGate_canon, headerPut_canon, putRegion_mem, Iss.canon, Out.canon, Res.canon]
theorem execRrmodeRec_canon (f : Fields) (s : State) (hs : Memory.wf s.mem = true) :
    (∀ t1, (execRrmodeRec f s) = .next t1 → Memory.wf t1.mem = true) := by
  refine next_canon (issue_canon _ _ _ ?_ hs)
  refine fun c hc => ?_
  have h1 := hc.1
  dsimp only
  grind (splits := 8) [rrEnter_canon, logPut_canon, Iss.canon, Out.canon, Res.canon, Body.canon]
theorem execRrmodePlay_canon (f : Fields) (s : State) (hs : Memory.wf s.mem = true) :
    (∀ t1, (execRrmodePlay f s) = .next t1 → Memory.wf t1.mem = true) := by
  refine next_canon (issue_canon _ _ _ ?_ hs)
  refine fun c hc => ?_
  have h1 := hc.1
  dsimp only
  grind (splits := 8) [rrEnter_canon, logPut_canon, Iss.canon, Out.canon, Res.canon, Body.canon]
theorem execCarve_canon (f : Fields) (s : State) (hs : Memory.wf s.mem = true) :
    (∀ t1, (execCarve f s) = .next t1 → Memory.wf t1.mem = true) := by
  refine next_canon (issue_canon _ _ _ ?_ hs)
  refine fun c hc => ?_
  have h1 := hc.1
  dsimp only
  grind (splits := 8) [Iss.awaitWriteback_canon, putD_canon, setShare_canon, Iss.canon, Out.canon, Res.canon,
      Body.canon]
theorem cacheOp_canon (c : Iss) (g : State → (ℕ → Bool) → State) (hc : c.canon) (hg : (∀ (a4 : State) (a5 : (ℕ →
    Bool)), Memory.wf a4.mem = true → Memory.wf (g a4 a5).mem = true)) : (cacheOp c g).canon := by
  unfold cacheOp
  grind (splits := 6) [Iss.awaitWriteback_canon, Iss.canon, Out.canon, Res.canon]
theorem execCwb_canon (f : Fields) (s : State) (hs : Memory.wf s.mem = true) :
    (∀ t1, (execCwb f s) = .next t1 → Memory.wf t1.mem = true) := by
  refine next_canon (issue_canon _ _ _ ?_ hs)
  refine fun c hc => ?_
  have h1 := hc.1
  dsimp only
  grind (splits := 8) [cacheOp_canon, writeback_canon, Iss.canon, Out.canon, Res.canon, Body.canon]
theorem execCinv_canon (f : Fields) (s : State) (hs : Memory.wf s.mem = true) :
    (∀ t1, (execCinv f s) = .next t1 → Memory.wf t1.mem = true) := by
  refine next_canon (issue_canon _ _ _ ?_ hs)
  refine fun c hc => ?_
  have h1 := hc.1
  dsimp only
  grind (splits := 8) [cacheOp_canon, dropLines_canon, Iss.canon, Out.canon, Res.canon, Body.canon]
theorem dropCode_canon (s : State) (inB : ℕ → Bool) (hs : Memory.wf s.mem = true) :
    Memory.wf (dropCode s inB).mem = true := by
  simp +contextual [dropCode, forgetCode_canon, hs]
theorem execCinvI_canon (f : Fields) (s : State) (hs : Memory.wf s.mem = true) :
    (∀ t1, (execCinvI f s) = .next t1 → Memory.wf t1.mem = true) := by
  refine next_canon (issue_canon _ _ _ ?_ hs)
  refine fun c hc => ?_
  obtain ⟨h1, h2⟩ := hc
  simp +contextual [Res.canon, Out.canon, dropCode_canon, h1]
theorem takeEng_canon (s : State) (ctx : ℕ) (kind : ℕ) (hs : Memory.wf s.mem = true) :
    (∀ t1, (takeEng s ctx kind) = some t1 → Memory.wf t1.2.mem = true) := by
  unfold takeEng
  grind (splits := 6) [State.modEng_mem, Acc.canon, DetTest.canon, DetGate.canon, Gate.canon, Iss.canon, Out.canon,
      EngOut.canon, StepOut.canon, RunOut.canon, Res.canon, Body.canon]
theorem acquire_canon (c : Iss) (hc : c.canon) : Memory.wf (acquire c).2.mem = true := by
  unfold acquire
  dsimp only
  split
  · exact hc.1
  · split
    · exact hc.1
    · rename_i he
      rw [State.modWg_mem, State.modMx_mem]
      exact takeEng_canon _ _ _ hc.1 _ he
theorem execMxacq_canon (f : Fields) (s : State) (hs : Memory.wf s.mem = true) :
    (∀ t1, (execMxacq f s) = .next t1 → Memory.wf t1.mem = true) := by
  refine next_canon (issue_canon _ _ _ ?_ hs)
  refine fun c hc => ?_
  have h1 := hc.1
  dsimp only
  grind (splits := 8) [acquire_canon, Iss.canon, Out.canon, Res.canon, Body.canon]
theorem execMxrel_canon (f : Fields) (s : State) (hs : Memory.wf s.mem = true) :
    (∀ t1, (execMxrel f s) = .next t1 → Memory.wf t1.mem = true) := by
  refine next_canon (issue_canon _ _ _ ?_ hs)
  refine fun c hc => ?_
  have h1 := hc.1
  dsimp only
  (repeat' split) <;> simp +contextual [Res.canon, Out.canon, State.modMx_mem, h1]
theorem execEngineRelease_canon (core : ℕ) (s : State) (hs : Memory.wf s.mem = true) :
    (∀ t1, (execEngineRelease core s) = .next t1 → Memory.wf t1.mem = true) := by
  unfold execEngineRelease
  dsimp only
  (repeat' split) <;> (refine next_canon ?_) <;> first | exact hs | simp +contextual [foldl_mem, foldl_canon,
      State.modCore_mem, State.modEng_mem, State.modWg_mem, hs]
theorem execTdesc_canon (f : Fields) (s : State) (hs : Memory.wf s.mem = true) :
    (∀ t1, (execTdesc f s) = .next t1 → Memory.wf t1.mem = true) := by
  refine next_canon (issue_canon _ _ _ ?_ hs)
  refine fun c hc => ?_
  have h1 := hc.1
  dsimp only
  (repeat' split) <;> simp +contextual [Res.canon, Out.canon, h1]
theorem maskRun_canon (c : Iss) (x : BitVec 256) (hc : c.canon) : (maskRun c x).canon := by
  unfold maskRun
  grind (splits := 6) [State.modWg_mem, Iss.canon, Out.canon, Res.canon]
theorem execTmaskSet_canon (f : Fields) (s : State) (hs : Memory.wf s.mem = true) :
    (∀ t1, (execTmaskSet f s) = .next t1 → Memory.wf t1.mem = true) := by
  refine next_canon (issue_canon _ _ _ ?_ hs)
  refine fun c hc => ?_
  have h1 := hc.1
  dsimp only
  grind (splits := 8) [maskRun_canon, Iss.canon, Out.canon, Res.canon, Body.canon]
theorem execTmaskFirst_canon (f : Fields) (s : State) (hs : Memory.wf s.mem = true) :
    (∀ t1, (execTmaskFirst f s) = .next t1 → Memory.wf t1.mem = true) := by
  refine next_canon (issue_canon _ _ _ ?_ hs)
  refine fun c hc => ?_
  have h1 := hc.1
  dsimp only
  grind (splits := 8) [maskRun_canon, Iss.canon, Out.canon, Res.canon, Body.canon]
theorem execGdecl_canon (f : Fields) (s : State) (hs : Memory.wf s.mem = true) :
    (∀ t1, (execGdecl f s) = .next t1 → Memory.wf t1.mem = true) := by
  refine next_canon (issue_canon _ _ _ ?_ hs)
  exact fun c hc => hc.1
theorem execTamax_canon (f : Fields) (s : State) (hs : Memory.wf s.mem = true) :
    (∀ t1, (execTamax f s) = .next t1 → Memory.wf t1.mem = true) := by
  refine next_canon (issue_canon _ _ _ ?_ hs)
  refine fun c hc => ?_
  have h1 := hc.1
  dsimp only
  grind (splits := 8) [putD_canon, Iss.canon, Out.canon, Res.canon, Body.canon]
theorem execTscupd_canon (f : Fields) (s : State) (hs : Memory.wf s.mem = true) :
    (∀ t1, (execTscupd f s) = .next t1 → Memory.wf t1.mem = true) := by
  refine next_canon (issue_canon _ _ _ ?_ hs)
  refine fun c hc => ?_
  have h1 := hc.1
  dsimp only
  (repeat' split) <;> simp +contextual [Res.canon, Out.canon, State.modMx_mem, h1]
theorem execTmma_canon (f : Fields) (s : State) (hs : Memory.wf s.mem = true) :
    (∀ t1, (execTmma f s) = .next t1 → Memory.wf t1.mem = true) := by
  refine next_canon (issue_canon _ _ _ ?_ hs)
  exact tileBody_canon _ _
theorem execTmmab_canon (f : Fields) (s : State) (hs : Memory.wf s.mem = true) :
    (∀ t1, (execTmmab f s) = .next t1 → Memory.wf t1.mem = true) := by
  refine next_canon (issue_canon _ _ _ ?_ hs)
  exact tileBody_canon _ _
theorem execTact_canon (f : Fields) (s : State) (hs : Memory.wf s.mem = true) :
    (∀ t1, (execTact f s) = .next t1 → Memory.wf t1.mem = true) := by
  refine next_canon (issue_canon _ _ _ ?_ hs)
  exact tileBody_canon _ _
theorem execTew_canon (f : Fields) (s : State) (hs : Memory.wf s.mem = true) :
    (∀ t1, (execTew f s) = .next t1 → Memory.wf t1.mem = true) := by
  refine next_canon (issue_canon _ _ _ ?_ hs)
  exact tileBody_canon _ _
theorem execTred_canon (f : Fields) (s : State) (hs : Memory.wf s.mem = true) :
    (∀ t1, (execTred f s) = .next t1 → Memory.wf t1.mem = true) := by
  refine next_canon (issue_canon _ _ _ ?_ hs)
  exact tileBody_canon _ _
theorem execTtrans_canon (f : Fields) (s : State) (hs : Memory.wf s.mem = true) :
    (∀ t1, (execTtrans f s) = .next t1 → Memory.wf t1.mem = true) := by
  refine next_canon (issue_canon _ _ _ ?_ hs)
  exact tileBody_canon _ _
theorem execTscl_canon (f : Fields) (s : State) (hs : Memory.wf s.mem = true) :
    (∀ t1, (execTscl f s) = .next t1 → Memory.wf t1.mem = true) := by
  refine next_canon (issue_canon _ _ _ ?_ hs)
  exact tileBody_canon _ _
theorem execTcvt_canon (f : Fields) (s : State) (hs : Memory.wf s.mem = true) :
    (∀ t1, (execTcvt f s) = .next t1 → Memory.wf t1.mem = true) := by
  refine next_canon (issue_canon _ _ _ ?_ hs)
  exact tileBody_canon _ _
theorem execTzero_canon (f : Fields) (s : State) (hs : Memory.wf s.mem = true) :
    (∀ t1, (execTzero f s) = .next t1 → Memory.wf t1.mem = true) := by
  refine next_canon (issue_canon _ _ _ ?_ hs)
  exact tileBody_canon _ _
theorem execTaccld_canon (f : Fields) (s : State) (hs : Memory.wf s.mem = true) :
    (∀ t1, (execTaccld f s) = .next t1 → Memory.wf t1.mem = true) := by
  refine next_canon (issue_canon _ _ _ ?_ hs)
  exact tileBody_canon _ _
theorem execTaccst_canon (f : Fields) (s : State) (hs : Memory.wf s.mem = true) :
    (∀ t1, (execTaccst f s) = .next t1 → Memory.wf t1.mem = true) := by
  refine next_canon (issue_canon _ _ _ ?_ hs)
  exact tileBody_canon _ _
theorem execTdrain_canon (f : Fields) (s : State) (hs : Memory.wf s.mem = true) :
    (∀ t1, (execTdrain f s) = .next t1 → Memory.wf t1.mem = true) := by
  refine next_canon (issue_canon _ _ _ ?_ hs)
  exact tileBody_canon _ _
theorem execTcopy_canon (f : Fields) (s : State) (hs : Memory.wf s.mem = true) :
    (∀ t1, (execTcopy f s) = .next t1 → Memory.wf t1.mem = true) := by
  refine next_canon (issue_canon _ _ _ ?_ hs)
  refine fun c hc => ?_
  have h1 := hc.1
  dsimp only
  grind (splits := 8) [queueIssue_canon, Iss.canon, Out.canon, Res.canon, Body.canon]
theorem execTcopyTile_canon (f : Fields) (s : State) (hs : Memory.wf s.mem = true) :
    (∀ t1, (execTcopyTile f s) = .next t1 → Memory.wf t1.mem = true) := by
  refine next_canon (issue_canon _ _ _ ?_ hs)
  refine fun c hc => ?_
  have h1 := hc.1
  dsimp only
  grind (splits := 8) [queueIssue_canon, Iss.canon, Out.canon, Res.canon, Body.canon]
theorem rowsRun_canon (c : Iss) (i : Instr) (hc : c.canon) : (rowsRun c i).canon := by
  unfold rowsRun
  grind (splits := 6) [queueIssue_canon, Iss.canon, Out.canon, Res.canon]
theorem execTgather_canon (f : Fields) (s : State) (hs : Memory.wf s.mem = true) :
    (∀ t1, (execTgather f s) = .next t1 → Memory.wf t1.mem = true) := by
  refine next_canon (issue_canon _ _ _ ?_ hs)
  refine fun c hc => ?_
  have h1 := hc.1
  dsimp only
  grind (splits := 8) [rowsRun_canon, Iss.canon, Out.canon, Res.canon, Body.canon]
theorem execTscatter_canon (f : Fields) (s : State) (hs : Memory.wf s.mem = true) :
    (∀ t1, (execTscatter f s) = .next t1 → Memory.wf t1.mem = true) := by
  refine next_canon (issue_canon _ _ _ ?_ hs)
  refine fun c hc => ?_
  have h1 := hc.1
  dsimp only
  grind (splits := 8) [rowsRun_canon, Iss.canon, Out.canon, Res.canon, Body.canon]
theorem execTcoll_canon (f : Fields) (s : State) (hs : Memory.wf s.mem = true) :
    (∀ t1, (execTcoll f s) = .next t1 → Memory.wf t1.mem = true) := by
  refine next_canon (issue_canon _ _ _ ?_ hs)
  refine fun c hc => ?_
  have h1 := hc.1
  dsimp only
  grind (splits := 8) [queueIssue_canon, Iss.canon, Out.canon, Res.canon, Body.canon]
theorem Iss.observe_canon (c : Iss) (hs : List ℕ) (k : State → Res) (hc : c.canon) (hk : (∀ (a2 :
    State), Memory.wf a2.mem = true → (k a2).canon)) : (Iss.observe c hs k).canon := by
  unfold Iss.observe
  grind (splits := 6) [Iss.awaitWriteback_canon, dropAll_canon, Iss.canon, Out.canon, Res.canon]
theorem execHwait_canon (f : Fields) (s : State) (hs : Memory.wf s.mem = true) :
    (∀ t1, (execHwait f s) = .next t1 → Memory.wf t1.mem = true) := by
  refine next_canon (issue_canon _ _ _ ?_ hs)
  refine fun c hc => ?_
  have h1 := hc.1
  dsimp only
  grind (splits := 8) [Iss.observe_canon, parkOnHandle_canon, Iss.canon, Out.canon, Res.canon, Body.canon]
theorem execHtest_canon (f : Fields) (s : State) (hs : Memory.wf s.mem = true) :
    (∀ t1, (execHtest f s) = .next t1 → Memory.wf t1.mem = true) := by
  refine next_canon (issue_canon _ _ _ ?_ hs)
  refine fun c hc => ?_
  have h1 := hc.1
  dsimp only
  grind (splits := 8) [Iss.observe_canon, Iss.canon, Out.canon, Res.canon, Body.canon]
theorem cancelOne_mem (s : State) (e : ℕ) (num : ℕ) :
    (cancelOne s e num).mem = s.mem := by grind [cancelOne, State.setEng_mem, State.modMx_mem]
theorem execHcancel_canon (f : Fields) (s : State) (hs : Memory.wf s.mem = true) :
    (∀ t1, (execHcancel f s) = .next t1 → Memory.wf t1.mem = true) := by
  refine next_canon (issue_canon _ _ _ (fun c hc => ?_) hs)
  dsimp only
  split
  · trivial
  · refine foldl_canon _ _ _ (fun s l h => ?_) hc.1
    split
    · exact h
    · rw [cancelOne_mem]; exact h
theorem execHsleep_canon (f : Fields) (s : State) (hs : Memory.wf s.mem = true) :
    (∀ t1, (execHsleep f s) = .next t1 → Memory.wf t1.mem = true) := by
  refine next_canon (issue_canon _ _ _ ?_ hs)
  refine fun c hc => ?_
  have h1 := hc.1
  dsimp only
  (repeat' split) <;> simp +contextual [Res.canon, Out.canon, h1]
theorem execHstat_canon (f : Fields) (s : State) (hs : Memory.wf s.mem = true) :
    (∀ t1, (execHstat f s) = .next t1 → Memory.wf t1.mem = true) := by
  refine next_canon (issue_canon _ _ _ ?_ hs)
  refine fun c hc => ?_
  have h1 := hc.1
  dsimp only
  (repeat' split) <;> simp +contextual [Res.canon, Out.canon, h1]
theorem State.modRec_mem (s : State) (wg : ℕ) (f : RecState → RecState) : (State.modRec s wg f).mem = s.mem := by rfl
theorem execRecbegin_canon (f : Fields) (s : State) (hs : Memory.wf s.mem = true) :
    (∀ t1, (execRecbegin f s) = .next t1 → Memory.wf t1.mem = true) := by
  refine next_canon (issue_canon _ _ _ ?_ hs)
  refine fun c hc => ?_
  have h1 := hc.1
  dsimp only
  grind (splits := 8) [matrixIssue_canon, State.modRec_mem, Iss.canon, Out.canon, Res.canon, Body.canon]
theorem execRecend_canon (f : Fields) (s : State) (hs : Memory.wf s.mem = true) :
    (∀ t1, (execRecend f s) = .next t1 → Memory.wf t1.mem = true) := by
  refine next_canon (issue_canon _ _ _ ?_ hs)
  refine fun c hc => ?_
  have h1 := hc.1
  dsimp only
  grind (splits := 8) [matrixIssue_canon, State.modRec_mem, Iss.canon, Out.canon, Res.canon, Body.canon]
theorem execReverse_canon (f : Fields) (s : State) (hs : Memory.wf s.mem = true) :
    (∀ t1, (execReverse f s) = .next t1 → Memory.wf t1.mem = true) := by
  refine next_canon (issue_canon _ _ _ ?_ hs)
  refine fun c hc => ?_
  have h1 := hc.1
  dsimp only
  grind (splits := 8) [matrixIssue_canon, State.modRec_mem, Iss.canon, Out.canon, Res.canon, Body.canon]
theorem execLogq_canon (f : Fields) (s : State) (hs : Memory.wf s.mem = true) :
    (∀ t1, (execLogq f s) = .next t1 → Memory.wf t1.mem = true) := by
  refine next_canon (issue_canon _ _ _ ?_ hs)
  refine fun c hc => ?_
  have h1 := hc.1
  dsimp only
  (repeat' split) <;> simp +contextual [Res.canon, Out.canon, h1]
theorem execTrap_canon (f : Fields) (s : State) (hs : Memory.wf s.mem = true) :
    (∀ t1, (execTrap f s) = .next t1 → Memory.wf t1.mem = true) := by
  refine next_canon (issue_canon _ _ _ ?_ hs)
  refine fun c hc => ?_
  obtain ⟨h1, h2⟩ := hc
  simp +contextual [Res.canon]
theorem fillLane_canon (s : State) (wg : ℕ) (w : ℕ) (core : ℕ) (t : TPart) (hs : Memory.wf s.mem = true) :
    Memory.wf (fillLane s wg w core t).mem = true := by
  simp +contextual [fillLane, weakRead_canon, hs]
theorem spillLane_canon (s : State) (wg : ℕ) (w : ℕ) (core : ℕ) (t : TPart) (hs : Memory.wf s.mem = true) :
    Memory.wf (spillLane s wg w core t).1.mem = true := by
  unfold spillLane
  grind (splits := 6) [storeParts_canon, poisonBlock_mem, dropLines_canon, State.modWarp_mem, Acc.canon,
      DetTest.canon, Put.canon, DetGate.canon, Gate.canon, Iss.canon, Out.canon, EngOut.canon, StepOut.canon,
      RunOut.canon, Res.canon, Body.canon]
theorem eretRun_canon (c : Iss) (ts : List TPart) (s : State) (hc : c.canon) (hs : Memory.wf s.mem = true) :
    (eretRun c ts s).canon := by
  have hr : ∀ (l : List TPart), Memory.wf (l.foldl (fun (a : List Byte × List (Nat × Nat) × State) t =>
      let r := weakRead a.2.2 c.wg c.core 0 t
      (a.1 ++ r.1, if r.2.1 then a.2.1 ++ [(a.1.length, r.1.length)] else a.2.1, r.2.2)) ([], [], s)).2.2.mem = true :=
    fun l => fold_inv (fun a : List Byte × List (Nat × Nat) × State => Memory.wf a.2.2.mem = true) _ _ _
      (fun a t h => weakRead_canon _ _ _ _ _ h) hs
  unfold eretRun
  lift_lets
  intro rd
  have hrd := hr ts
  change Memory.wf rd.2.2.mem = true at hrd
  clear_value rd
  clear hr
  intro fr s0 c1 cause rpc win fill need bad s1 go
  have h1 : Memory.wf s1.mem = true := by rw [State.modWarp_mem]; exact hrd
  have hgo : ∀ a : State × Nat, Memory.wf a.1.mem = true → (go a).canon :=
    fun a h => ⟨h, fun s h => by rw [State.modWarp_mem]; exact h⟩
  clear_value s1 go
  split
  · exact endWorkgroup_canon _ _ _ hc.2
  · split
    · trivial
    · split
      · exact hgo _ h1
      · split
        · exact withAccess_canon _ _ _ _ _ _ hc h1 (fun ts s h => hgo _ (foldl_canon _ _ _ (fun s t h =>
            fillLane_canon _ _ _ _ _ h) h))
        · refine withAccess_canon _ _ _ _ _ _ hc h1 (fun ts s h => withRoom_canon _ _ _ _ _ hc h (fun s h => hgo _ ?_))
          exact fold_inv (fun a : State × Nat => Memory.wf a.1.mem = true) _ _ _ (fun a t h =>
              spillLane_canon _ _ _ _ _ h) h
theorem execEret_canon (f : Fields) (s : State) (hs : Memory.wf s.mem = true) :
    (∀ t1, (execEret f s) = .next t1 → Memory.wf t1.mem = true) := by
  refine next_canon (issue_canon _ _ _ ?_ hs)
  refine fun c hc => ?_
  have h1 := hc.1
  dsimp only
  grind (splits := 8) [withAccess_canon, eretRun_canon, Iss.canon, Out.canon, Res.canon, Body.canon]
theorem execMfs_canon (f : Fields) (s : State) (hs : Memory.wf s.mem = true) :
    (∀ t1, (execMfs f s) = .next t1 → Memory.wf t1.mem = true) := by
  refine next_canon (issue_canon _ _ _ ?_ hs)
  refine fun c hc => ?_
  have h1 := hc.1
  dsimp only
  grind (splits := 8) [putD_canon, Iss.canon, Out.canon, Res.canon, Body.canon]
theorem execMtsWcr_canon (f : Fields) (s : State) (hs : Memory.wf s.mem = true) :
    (∀ t1, (execMtsWcr f s) = .next t1 → Memory.wf t1.mem = true) := by
  refine next_canon (issue_canon _ _ _ ?_ hs)
  exact fun c hc => hc.1
theorem execMtsXflagsClear_canon (f : Fields) (s : State) (hs : Memory.wf s.mem = true) :
    (∀ t1, (execMtsXflagsClear f s) = .next t1 → Memory.wf t1.mem = true) := by
  refine next_canon (issue_canon _ _ _ ?_ hs)
  exact fun c hc => hc.1
theorem execMtsFmt_canon (f : Fields) (s : State) (hs : Memory.wf s.mem = true) :
    (∀ t1, (execMtsFmt f s) = .next t1 → Memory.wf t1.mem = true) := by
  refine next_canon (issue_canon _ _ _ ?_ hs)
  exact fun c hc => hc.1
theorem execMtsAmr_canon (f : Fields) (s : State) (hs : Memory.wf s.mem = true) :
    (∀ t1, (execMtsAmr f s) = .next t1 → Memory.wf t1.mem = true) := by
  refine next_canon (issue_canon _ _ _ ?_ hs)
  exact fun c hc => hc.1
theorem execMtsSc_canon (f : Fields) (s : State) (hs : Memory.wf s.mem = true) :
    (∀ t1, (execMtsSc f s) = .next t1 → Memory.wf t1.mem = true) := by
  refine next_canon (issue_canon _ _ _ ?_ hs)
  refine fun c hc => ?_
  have h1 := hc.1
  dsimp only
  (repeat' split) <;> simp +contextual [Res.canon, Out.canon, State.modMx_mem, h1]
theorem execMtsMx_canon (f : Fields) (s : State) (hs : Memory.wf s.mem = true) :
    (∀ t1, (execMtsMx f s) = .next t1 → Memory.wf t1.mem = true) := by
  refine next_canon (issue_canon _ _ _ ?_ hs)
  exact fun c hc => hc.1
theorem execCycrd_canon (f : Fields) (s : State) (hs : Memory.wf s.mem = true) :
    (∀ t1, (execCycrd f s) = .next t1 → Memory.wf t1.mem = true) := by
  refine next_canon (issue_canon _ _ _ ?_ hs)
  exact laneBody_canon _ _
theorem execLaunch_canon (f : Fields) (s : State) (hs : Memory.wf s.mem = true) :
    (∀ t1, (execLaunch f s) = .next t1 → Memory.wf t1.mem = true) := by
  refine next_canon (issue_canon _ _ _ (fun c hc => ?_) hs)
  have hf := fenceFirst_canon c c.s 6 hc hc.1
  dsimp only
  split <;> rename_i he
  · exact hf.1 _ he
  · refine withAccess_canon _ _ _ _ _ _ hc (hf.2 _ he) (fun ts s h => ?_)
    have hr : Memory.wf (readParts s c.wg c.core 0 ts).2.2.mem = true := readParts_canon _ _ _ _ _ h
    split
    · trivial
    · split <;> rename_i he
      · exact enqueueLaunch_canon _ _ _ _ _ _ _ _ hr _ he
      · exact hr
theorem sweepLines_canon (s : State) (v : Inval) (hs : Memory.wf s.mem = true) :
    Memory.wf (sweepLines s v).mem = true := by
  unfold sweepLines
  exact dropCode_canon _ _ (foldl_canon _ _ _ (fun s p h => dropLines_canon _ _ _ h) hs)
theorem execTlbi_canon (f : Fields) (s : State) (hs : Memory.wf s.mem = true) :
    (∀ t1, (execTlbi f s) = .next t1 → Memory.wf t1.mem = true) := by
  refine next_canon (issue_canon _ _ _ ?_ hs)
  refine fun c hc => ?_
  have h1 := hc.1
  dsimp only
  (repeat' split) <;> simp +contextual [Res.canon, Out.canon, sweepLines_canon, removeTranslations_mem, h1]
theorem deliverWait_mem (s : State) (wg : ℕ) (w : ℕ) (idx : ℕ) (more : ℕ) (f : List RegWrite → List RegWrite) :
    (deliverWait s wg w idx more f).mem = s.mem := by rfl
theorem execTlbiAcknowledge_canon (wg : ℕ) (warp : ℕ) (s : State) (hs : Memory.wf s.mem = true) :
    (∀ t1, (execTlbiAcknowledge wg warp s) = .next t1 → Memory.wf t1.mem = true) := by
  unfold execTlbiAcknowledge
  dsimp only
  (repeat' split) <;> (refine next_canon ?_) <;> first | exact hs | simp +contextual [foldl_canon, sweepLines_canon,
      deliverWait_mem, hs]
theorem Iss.status_canon (c : Iss) (s : State) (wide : Bool) (x : ℕ) (hc : c.canon) (hs : Memory.wf s.mem = true) :
    (Iss.status c s wide x).canon := by
  unfold Iss.status
  grind (splits := 6) [putD_canon, Iss.canon, Out.canon, Res.canon]
theorem Iss.withCore_canon (c : Iss) (wide : Bool) (k : ℕ → Res) (hc : c.canon) (hk : (∀ (a2 : ℕ), (k a2).canon)) :
    (Iss.withCore c wide k).canon := by
  unfold Iss.withCore
  grind (splits := 6) [Iss.status_canon, Iss.canon, Out.canon, Res.canon]
theorem scanStart_canon (s : State) (p : ℕ) (yl : Bool) (prio : ℕ) (why : ℕ) (hs : Memory.wf s.mem = true) :
    Memory.wf (scanStart s p yl prio why).mem = true := by
  simp +contextual [scanStart, dropAll_canon, forgetCode_canon, hs]
theorem execScango_canon (f : Fields) (s : State) (hs : Memory.wf s.mem = true) :
    (∀ t1, (execScango f s) = .next t1 → Memory.wf t1.mem = true) := by
  refine next_canon (issue_canon _ _ _ ?_ hs)
  refine fun c hc => ?_
  have h1 := hc.1
  dsimp only
  grind (splits := 8) [Iss.withCore_canon, Iss.status_canon, scanStart_canon, Iss.canon, Out.canon, Res.canon,
      Body.canon]
theorem execScanpoll_canon (f : Fields) (s : State) (hs : Memory.wf s.mem = true) :
    (∀ t1, (execScanpoll f s) = .next t1 → Memory.wf t1.mem = true) := by
  refine next_canon (issue_canon _ _ _ ?_ hs)
  refine fun c hc => ?_
  have h1 := hc.1
  dsimp only
  grind (splits := 8) [Iss.withCore_canon, Iss.status_canon, Iss.canon, Out.canon, Res.canon, Body.canon]
theorem scanAbortNow_mem (s : State) (p : ℕ) : (scanAbortNow s p).mem = s.mem := by
  unfold scanAbortNow
  (repeat' split) <;> simp
theorem execScanstop_canon (f : Fields) (s : State) (hs : Memory.wf s.mem = true) :
    (∀ t1, (execScanstop f s) = .next t1 → Memory.wf t1.mem = true) := by
  refine next_canon (issue_canon _ _ _ ?_ hs)
  refine fun c hc => ?_
  have h1 := hc.1
  dsimp only
  grind (splits := 8) [Iss.withCore_canon, Iss.status_canon, scanAbortNow_mem, Iss.canon, Out.canon, Res.canon,
      Body.canon]
theorem execCoreret_canon (f : Fields) (s : State) (hs : Memory.wf s.mem = true) :
    (∀ t1, (execCoreret f s) = .next t1 → Memory.wf t1.mem = true) := by
  refine next_canon (issue_canon _ _ _ (fun c hc => ?_) hs)
  dsimp only
  refine Iss.withCore_canon _ _ _ hc (fun p => ?_)
  split
  · exact Iss.status_canon _ _ _ _ hc hc.1
  · split
    · exact Iss.status_canon _ _ _ _ hc hc.1
    · have hr : ∀ b : Bool, (∀ t, (if b then reserveAppend c c.s (c.f.d.toNat - 96) c.act else .ok ([], [], c.s)) =
        .error t → t.canon) ∧
          (∀ t, (if b then reserveAppend c c.s (c.f.d.toNat - 96) c.act else .ok ([], [], c.s)) = .ok t →
              Memory.wf t.2.2.mem = true) := by
        intro b
        cases b with
        | true => exact reserveAppend_canon c c.s _ _ hc hc.1
        | false => exact ⟨(fun t h => by injection h), (fun t h => by injection h with h; exact h ▸ hc.1)⟩
      split <;> rename_i he
      · exact (hr _).1 _ he
      · show Memory.wf (State.mem _) = true
        rw [State.modCore_mem]
        exact (hr _).2 _ he
theorem execHalt_canon (f : Fields) (s : State) (hs : Memory.wf s.mem = true) :
    (∀ t1, (execHalt f s) = .next t1 → Memory.wf t1.mem = true) := by
  refine next_canon (issue_canon _ _ _ ?_ hs)
  refine fun c hc => ?_
  obtain ⟨h1, h2⟩ := hc
  simp +contextual [Res.canon, endWorkgroup_canon, h1]
theorem execVariableLatencyCompletion_canon (wg : ℕ) (warp : ℕ) (idx : ℕ) (s : State) (hs : Memory.wf s.mem = true) :
    (∀ t1, (execVariableLatencyCompletion wg warp idx s) = .next t1 → Memory.wf t1.mem = true) := by
  refine next_canon ?_
  exact hs
theorem execFairnessOverdue_canon (wg : ℕ) (warp : ℕ) (pc : ℕ) (s : State) (hs : Memory.wf s.mem = true) :
    (∀ t1, (execFairnessOverdue wg warp pc s) = .next t1 → Memory.wf t1.mem = true) := by
  refine next_canon ?_
  exact hs
theorem execSleepWake_canon (wg : ℕ) (warp : ℕ) (wake : ℕ) (s : State) (hs : Memory.wf s.mem = true) :
    (∀ t1, (execSleepWake wg warp wake s) = .next t1 → Memory.wf t1.mem = true) := by
  unfold execSleepWake
  (repeat' split) <;>
    grind (splits := 8) [State.modWarp_mem, Acc.canon, DetTest.canon, DetGate.canon, Gate.canon, Iss.canon,
        Out.canon, EngOut.canon, StepOut.canon, RunOut.canon, Res.canon, Body.canon]
theorem endMatrix_canon (s : State) (cmd : Cmd) (code : ℕ) (xf : ℕ) (corr : Bool) (hs : Memory.wf s.mem = true) :
    Memory.wf (endMatrix s cmd code xf corr).mem = true := by
  unfold endMatrix
  (repeat' split) <;> simp +contextual [State.modRec_mem, finishCommand_canon, hs]
theorem engRead_mem (s : State) (w : Who) (va : ℕ) (n : ℕ) :
    (engRead s w va n).2.mem = s.mem := by grind [engRead, engParts_mem]
theorem logWrites_canon (s : State) (cmd : Cmd) (xs : List (ℕ × List Byte)) (after : State → State) (hs :
    Memory.wf s.mem = true) (hafter : (∀ (a2 : State), Memory.wf a2.mem = true → Memory.wf (after a2).mem = true)) :
    (logWrites s cmd xs after).canon := by
  have ho := orWait_canon s cmd.wg _ hs (engWrites_canon s (cmd.who s) xs hs)
  unfold logWrites
  dsimp only
  split
  · exact hafter _ ho
  · exact ho
  · exact ho
theorem engineReport_canon (s : State) (cmd : Cmd) (reason : ℕ) (info : ℕ) (info2 : ℕ) (hs :
    Memory.wf s.mem = true) : Memory.wf (engineReport s cmd reason info info2).mem = true := by
  unfold engineReport
  grind (splits := 6) [State.modWarp_mem, writeRecord_canon, Acc.canon, DetTest.canon, DetGate.canon, Gate.canon,
      Iss.canon, Out.canon, EngOut.canon, StepOut.canon, RunOut.canon, Res.canon, Body.canon]
theorem overflow_canon (s : State) (cmd : Cmd) (hs : Memory.wf s.mem = true) :
    Memory.wf (overflow s cmd).mem = true := by
  simp +contextual [overflow, engineReport_canon, State.modRec_mem, hs]
theorem logRoom_canon (s : State) (cmd : Cmd) (need : ℕ) (k : List ℕ → EngOut) (hs : Memory.wf s.mem = true) (hk :
    (∀ (a2 : List ℕ), (k a2).canon)) : (logRoom s cmd need k).canon := by
  unfold logRoom
  grind (splits := 6) [logWrites_canon, overflow_canon, State.modRec_mem, Acc.canon, DetTest.canon, Put.canon,
      DetGate.canon, Gate.canon, Iss.canon, Out.canon, EngOut.canon, StepOut.canon, RunOut.canon, Res.canon, Body.canon]
theorem logEntry_canon (s : State) (cmd : Cmd) (fn : ℕ) (f : Fields) (prod : List ℕ) (scs : List ℕ) (la :
    SrcLog) (lb : SrcLog) (hs : Memory.wf s.mem = true) : (logEntry s cmd fn f prod scs la lb).canon := by
  unfold logEntry
  exact logWrites_canon _ _ _ _ hs (fun s h => by rw [State.modRec_mem]; exact h)
theorem logCmd_canon (s : State) (cmd : Cmd) (hs : Memory.wf s.mem = true) : (logCmd s cmd).canon := by
  unfold logCmd
  dsimp only
  split
  · exact hs
  · refine logRoom_canon _ _ _ _ hs (fun prod => ?_)
    split
    · exact hs
    · split
      · exact hs
      · exact logEntry_canon _ _ _ _ _ _ _ _ hs
theorem beginRun_canon (s : State) (core : ℕ) (cmd : Cmd) (hs : Memory.wf s.mem = true) :
    Memory.wf (beginRun s core cmd).mem = true := by
  unfold beginRun
  grind (splits := 6) [State.modCore_mem, logCmd_canon, endMatrix_canon, State.modEng_mem, Acc.canon, DetTest.canon,
      Put.canon, DetGate.canon, Gate.canon, Iss.canon, Out.canon, EngOut.canon, StepOut.canon, RunOut.canon,
      Res.canon, Body.canon]
theorem startCommand_canon (s : State) (core : ℕ) (cmd : Cmd) (hs : Memory.wf s.mem = true) :
    Memory.wf (startCommand s core cmd).mem = true := by
  unfold startCommand
  (repeat' split) <;> simp +contextual [endMatrix_canon, beginRun_canon, hs]
theorem execInfuserCommandStart_canon (core : ℕ) (s : State) (hs : Memory.wf s.mem = true) :
    (∀ t1, (execInfuserCommandStart core s) = .next t1 → Memory.wf t1.mem = true) := by
  unfold execInfuserCommandStart
  (repeat' split) <;>
    grind (splits := 8) [startCommand_canon, Acc.canon, DetTest.canon, DetGate.canon, Gate.canon, Iss.canon,
        Out.canon, EngOut.canon, StepOut.canon, RunOut.canon, Res.canon, Body.canon]
theorem endReverse_canon (s : State) (cmd : Cmd) (xf : ℕ) (fin : EngEnd) (hs : Memory.wf s.mem = true) :
    (endReverse s cmd xf fin).canon := by
  unfold endReverse
  grind (splits := 6) [orWait_canon, engWrites_canon, State.modRec_mem, Acc.canon, DetTest.canon, DetGate.canon,
      Gate.canon, Iss.canon, Out.canon, EngOut.canon, StepOut.canon, RunOut.canon, Res.canon, Body.canon]
theorem waitRun_mem (s : State) (core : ℕ) (r : RunCmd) : (waitRun s core r).mem = s.mem := by rfl
theorem setRun_mem (s : State) (core : ℕ) (r : Option RunCmd) : (setRun s core r).mem = s.mem := by rfl
theorem endRun_canon (s : State) (core : ℕ) (r : RunCmd) (code : ℕ) (hs : Memory.wf s.mem = true) :
    Memory.wf (endRun s core r code).mem = true := by
  simp +contextual [endRun, endMatrix_canon, setRun_mem, hs]
theorem endPaused_canon (s : State) (core : ℕ) (r : RunCmd) (hs : Memory.wf s.mem = true) :
    Memory.wf (endPaused s core r).mem = true := by
  unfold endPaused
  grind (splits := 6) [endReverse_canon, waitRun_mem, endRun_canon, Acc.canon, DetTest.canon, Put.canon,
      DetGate.canon, Gate.canon, Iss.canon, Out.canon, EngOut.canon, StepOut.canon, RunOut.canon, Res.canon, Body.canon]
theorem drainRequests_mem (s : State) (cmd : Cmd) (t : Tile) (pair : Bool) (es : List (ℕ × ℕ)) :
    (drainRequests s cmd t pair es).2.2.2.mem = s.mem := by
  induction es generalizing s with
  | nil => rfl
  | cons e es ih =>
    unfold drainRequests
    split
    · rfl
    · dsimp only
      have h := engParts_mem s (cmd.who s) (if pair then rightRW else rightW)
        (⟨0, t.d.bitAt e.1 e.2 / 8 % 2 ^ 80, 4⟩ :: (if pair then [⟨0, t.d.twinAt e.1 e.2, 4⟩] else []))
      split <;> rename_i he <;> rw [he] at h
      · exact h
      · split
        · exact h
        · split
          · exact h
          · split
            · exact (ih _).trans h
            · exact h
theorem amaxAll_mem (s : State) (wg : ℕ) (k : ℕ) (vs : List Val) : (amaxAll s wg k vs).mem = s.mem := by rfl
theorem Tile.amax_mem (t : Tile) (s : State) (n : ℕ) (k : ℕ) (converted : ℕ × ℕ → Bool) :
    (Tile.amax t s n k converted).mem = s.mem := by rfl
theorem drainStep_canon (s : State) (cmd : Cmd) (t : Tile) (n : ℕ) (hs : Memory.wf s.mem = true) :
    (drainStep s cmd t n).1.canon := by
  have hq := drainRequests_mem s cmd t (bitB t.opx 0) (t.cells n)
  have ha : ∀ (s' : State) (b : Bool) (k : ℕ) (p : ℕ × ℕ → Bool), Memory.wf s'.mem = true →
      Memory.wf (if b then t.amax s' n k p else s').mem = true := by
    intro s' b k p h
    split
    · rw [Tile.amax_mem]; exact h
    · exact h
  rw [drainStep.eq_def]
  dsimp only
  generalize drainRequests s cmd t (bitB t.opx 0) (t.cells n) = q at hq ⊢
  obtain ⟨qs, vs, fin, s'⟩ := q
  cases fin with
  | code c => exact ha _ _ _ _ hs
  | wait => exact hs
  | done =>
    dsimp only at hq ⊢
    refine engRoom_canon _ _ _ _ _ (by rw [hq]; exact hs) (fun s h => ?_)
    have h1 := fun b k p => ha _ b k p (foldl_canon (fun s r => drainPerform s cmd r) qs s (fun s r h =>
        drainPerform_canon _ _ _ h) h)
    show Memory.wf (State.mem (ite _ _ _)) = true
    split
    · exact foldl_canon _ _ _ (fun s a h => by rw [State.modMx_mem]; exact h) (h1 _ _ _)
    · exact h1 _ _ _
theorem afterStep_canon (s : State) (core : ℕ) (r : RunCmd) (hs : Memory.wf s.mem = true) :
    Memory.wf (afterStep s core r).mem = true := by
  unfold afterStep
  (repeat' split) <;> simp +contextual [endRun_canon, setRun_mem, hs]
theorem clearCovered_mem (s : State) (wg : ℕ) (runs : List (ℕ × ℕ)) : (clearCovered s wg runs).mem = s.mem := by rfl
theorem padPuts_mem (s : State) (wg : ℕ) (n : ℕ) (xs : List (ℕ × ℕ)) : (padPuts s wg n xs).mem = s.mem := by rfl
theorem elemWrites_mem (s : State) (wg : ℕ) (d : Desc) (xs : List ((ℕ × ℕ) × ℕ)) :
    (elemWrites s wg d xs).mem = s.mem := by
  unfold elemWrites
  (repeat' split) <;> simp [State.modMx_mem, padPuts_mem]
theorem productStep_canon (s : State) (t : Tile) (n : ℕ) (ups : List (ℕ × ℕ × Word)) (hs : Memory.wf s.mem = true) :
    (productStep s t n ups).canon := by
  unfold productStep
  lift_lets
  intro cells acc chk plus out
  clear_value chk out
  split
  · exact hs
  · split
    · exact hs
    · show Memory.wf (State.mem _) = true
      rw [elemWrites_mem]; exact hs
theorem elementStep_canon (s : State) (t : Tile) (n : ℕ) (hs : Memory.wf s.mem = true) : (elementStep s t n).canon := by
  have h1 : Memory.wf (if t.fn = 7 && bitB t.opx 1 then t.amax s n (bits t.opx 2 3) (fun _ =>
      true) else s).mem = true := by
    split
    · rw [Tile.amax_mem]; exact hs
    · exact hs
  unfold elementStep
  dsimp only
  generalize (if t.fn = 7 && bitB t.opx 1 then t.amax s n (bits t.opx 2 3) (fun _ => true) else s) = s1 at h1 ⊢
  split
  · exact h1
  · show Memory.wf (State.mem _) = true
    rw [elemWrites_mem]; exact h1
theorem tileStep_canon (s : State) (t : Tile) (n : ℕ) (ups : List (ℕ × ℕ × Word)) (hs : Memory.wf s.mem = true) :
    (tileStep s t n ups).canon := by
  unfold tileStep
  (repeat' split) <;>
    grind (splits := 6) [productStep_canon, elementStep_canon, Acc.canon, DetTest.canon, DetGate.canon, Gate.canon,
        Iss.canon, Out.canon, EngOut.canon, StepOut.canon, RunOut.canon, Res.canon, Body.canon]
theorem correctedRecord_canon (s : State) (wg : ℕ) (step : ℕ) (i : ℕ) (j : ℕ) (hs : Memory.wf s.mem = true) :
    Memory.wf (correctedRecord s wg step i j).mem = true := by
  simp +contextual [correctedRecord, writeRecord_canon, hs]
theorem tileOpStep_canon (s : State) (core : ℕ) (r : RunCmd) (fn : ℕ) (f : Fields) (hs : Memory.wf s.mem = true) :
    Memory.wf (tileOpStep s core r fn f).mem = true := by
  unfold tileOpStep
  grind (splits := 6) [drainStep_canon, waitRun_mem, endRun_canon, afterStep_canon, tileStep_canon,
      correctedRecord_canon, Acc.canon, DetTest.canon, Put.canon, DetGate.canon, Gate.canon, Iss.canon, Out.canon,
      EngOut.canon, StepOut.canon, RunOut.canon, Res.canon, Body.canon]
theorem walkOn_canon (cmd : Cmd) (n : ℕ) (s : State) (xf : ℕ) (hs : Memory.wf s.mem = true) :
    (walkOn cmd n s xf).canon := by
  induction n generalizing s xf with
  | zero => exact hs
  | succ n ih =>
    have hm : ∀ (s : State) f, Memory.wf s.mem = true → Memory.wf (s.modRec cmd.wg f).mem = true :=
      fun s f h => by rw [State.modRec_mem]; exact h
    unfold walkOn
    dsimp only
    split
    · exact endReverse_canon _ _ _ _ (hm _ _ (hm _ _ hs))
    · split
      · exact endReverse_canon _ _ _ _ hs
      · split
        · exact endReverse_canon _ _ _ _ (hm _ _ hs)
        · split
          · exact ih _ _ (hm _ _ hs)
          · exact hs
theorem beginReverse_canon (s : State) (cmd : Cmd) (hs : Memory.wf s.mem = true) : (beginReverse s cmd).canon := by
  unfold beginReverse
  grind (splits := 6) [State.modRec_mem, endReverse_canon, engineReport_canon, walkOn_canon, Acc.canon,
      DetTest.canon, DetGate.canon, Gate.canon, Iss.canon, Out.canon, EngOut.canon, StepOut.canon, RunOut.canon,
      Res.canon, Body.canon]
theorem runStage_canon (s : State) (k : Walker) (e : LogEntry) (role : ℕ) (off : ℕ) (n : ℕ) (hs :
    Memory.wf s.mem = true) : Memory.wf (runStage s k e role off n).1.mem = true := by
  have hp : ∀ (s : State) wg w es, Memory.wf s.mem = true → Memory.wf (padPuts s wg w es).mem = true :=
    fun s wg w es h => by rw [padPuts_mem]; exact h
  unfold runStage
  dsimp only
  split
  · exact hs
  · split
    · exact hp _ _ _ _ hs
    · split
      · exact hs
      · exact hs
      · dsimp only
        split
        · exact hp _ _ _ _ (hp _ _ _ _ (hp _ _ _ _ hs))
        · exact hp _ _ _ _ (hp _ _ _ _ hs)
theorem gradWrites_mem (s : State) (wg : ℕ) (d : Desc) (xs : List ((ℕ × ℕ) × ℕ)) :
    (gradWrites s wg d xs).mem = s.mem := by
  unfold gradWrites
  (repeat' split) <;> simp [State.modMx_mem, padPuts_mem]
theorem runPhase_canon (s : State) (k : Walker) (e : LogEntry) (t : Tile) (gd : ℕ → ℕ → Option ℕ) (joined :
    Bool) (role : ℕ) (cells : List (ℕ × ℕ)) (hs : Memory.wf s.mem = true) :
    (runPhase s k e t gd joined role cells).canon := by
  unfold runPhase
  dsimp only
  split
  · exact hs
  · show Memory.wf (State.mem _) = true
    rw [gradWrites_mem]; exact hs
theorem runWork_canon (s : State) (k : Walker) (e : LogEntry) (x : Work) (hs : Memory.wf s.mem = true) :
    Memory.wf (runWork s k e x).1.mem = true := by
  have hp : ∀ (s : State) t gd j r cs, Memory.wf s.mem = true → (runPhase s k e t gd j r cs).canon :=
      fun s t gd j r cs h => runPhase_canon _ _ _ _ _ _ _ _ h
  cases x with
  | idle => exact hs
  | stage p role off n => exact runStage_canon _ _ _ _ _ _ hs
  | verify p role =>
    simp only [runWork]
    split
    · exact hs
    · split <;> exact hs
  | redo p off n =>
    simp only [runWork]
    exact tileStep_canon _ _ _ _ hs
  | stop b r i => exact hs
  | fail f => exact hs
  | phase role n =>
    simp only [runWork]
    exact hp _ _ _ _ _ _ hs
  | zero n =>
    simp only [runWork]
    rw [gradWrites_mem]; exact hs
  | joined =>
    have hst : ∀ (t : Tile) (gd : Nat → Nat → Option Nat) (a : StepOut) (role : Nat), a.canon →
        StepOut.canon (if a.code ≠ 0 || !e.has role || (e.desc role).gro = 0 then a else
          { runPhase a.s k e t gd (coincide s k e role) role ((List.range (e.desc role).tiles).flatMap
              (tileCells (e.desc role).rows (e.desc role).cols)) with
            xf := a.xf ||| (runPhase a.s k e t gd (coincide s k e role) role ((List.range (e.desc role).tiles).flatMap
              (tileCells (e.desc role).rows (e.desc role).cols))).xf }) := by
      intro t gd a role h
      split
      · exact h
      · exact hp _ _ _ _ _ _ h
    have hfin : ∀ o : StepOut, o.canon →
        Memory.wf (if o.code = 0 then (o.s, o.xf, WorkEnd.done) else (s, 0, .fin (.code o.code))).1.mem = true := by
      intro o h
      split
      · exact h
      · exact hs
    simp only [runWork]
    exact hfin _ (hst _ _ _ 2 (hst _ _ { s := s, xf := 0 } 1 hs))
theorem stepReverse_canon (s : State) (cmd : Cmd) (step : ℕ) (hs : Memory.wf s.mem = true) :
    (stepReverse s cmd step).1.canon := by
  unfold stepReverse
  grind (splits := 6) [endReverse_canon, walkOn_canon, State.modRec_mem, runWork_canon, engineReport_canon,
      Acc.canon, DetTest.canon, DetGate.canon, Gate.canon, Iss.canon, Out.canon, EngOut.canon, StepOut.canon,
      RunOut.canon, Res.canon, Body.canon]
theorem reverseStep_canon (s : State) (core : ℕ) (r : RunCmd) (hs : Memory.wf s.mem = true) :
    Memory.wf (reverseStep s core r).mem = true := by
  unfold reverseStep
  grind (splits := 6) [beginReverse_canon, stepReverse_canon, waitRun_mem, holdFull_mem, endRun_canon,
      endReverse_canon, setRun_mem, Acc.canon, DetTest.canon, Put.canon, DetGate.canon, Gate.canon, Iss.canon,
      Out.canon, EngOut.canon, StepOut.canon, RunOut.canon, Res.canon, Body.canon]
theorem runRecord_canon (s : State) (cmd : Cmd) (hs : Memory.wf s.mem = true) : (runRecord s cmd).canon := by
  unfold runRecord
  grind (splits := 6) [State.modRec_mem, orWait_canon, engWrites_canon, logRoom_canon, logWrites_canon, Acc.canon,
      DetTest.canon, Put.canon, DetGate.canon, Gate.canon, Iss.canon, Out.canon, EngOut.canon, StepOut.canon,
      RunOut.canon, Res.canon, Body.canon]
theorem runStep_canon (s : State) (core : ℕ) (r : RunCmd) (hs : Memory.wf s.mem = true) :
    Memory.wf (runStep s core r).mem = true := by
  unfold runStep
  grind (splits := 6) [endPaused_canon, beginRun_canon, tileOpStep_canon, reverseStep_canon, runRecord_canon,
      waitRun_mem, endRun_canon, Acc.canon, DetTest.canon, Put.canon, DetGate.canon, Gate.canon, Iss.canon,
      Out.canon, EngOut.canon, StepOut.canon, RunOut.canon, Res.canon, Body.canon]
theorem execNativeStepComplete_canon (core : ℕ) (s : State) (hs : Memory.wf s.mem = true) :
    (∀ t1, (execNativeStepComplete core s) = .next t1 → Memory.wf t1.mem = true) := by
  unfold execNativeStepComplete
  (repeat' split) <;>
    grind (splits := 8) [endPaused_canon, runStep_canon, Acc.canon, DetTest.canon, Put.canon, DetGate.canon,
        Gate.canon, Iss.canon, Out.canon, EngOut.canon, StepOut.canon, RunOut.canon, Res.canon, Body.canon]
theorem popHead_canon (s : State) (e : ℕ) (cmd : Cmd) (code : ℕ) (hs : Memory.wf s.mem = true) :
    Memory.wf (popHead s e cmd code).mem = true := by
  simp +contextual [popHead, startHead_mem, finishCommand_canon, hs]
theorem bitsRead_mem (s : State) (w : Who) (pad : Bool) (b : ℕ) (n : ℕ) :
    (bitsRead s w pad b n).2.mem = s.mem := by grind [bitsRead, engRead_mem]
theorem moveTarget_mem (s : State) (w : Who) (m : Move) :
    (moveTarget s w m).2.mem = s.mem := by grind [moveTarget, engParts_mem]
theorem gatherMoves_mem (s : State) (w : Who) (ms : List Move) : (gatherMoves s w ms).2.2.mem = s.mem := by
  induction ms generalizing s with
  | nil => rfl
  | cons m ms ih =>
    have h1 := bitsRead_mem s w m.srcPad m.src m.n
    unfold gatherMoves
    split <;> rename_i he <;> rw [he] at h1
    · exact h1
    · rename_i x s1
      have h2 := moveTarget_mem s1 w m
      split <;> rename_i he2 <;> rw [he2] at h2
      · exact h2.trans h1
      · exact (ih _).trans (h2.trans h1)
theorem padPut_mem (s : State) (wg : ℕ) (bit : ℕ) (n : ℕ) (x : ℕ) : (padPut s wg bit n x).mem = s.mem := by rfl
theorem moveWrite_canon (s : State) (w : Who) (m : Move) (ts : List TPart) (x : ℕ) (hs : Memory.wf s.mem = true) :
    (moveWrite s w m ts x).canon := by
  unfold moveWrite
  split
  · show Memory.wf (padPut _ _ _ _ _).mem = true
    rw [padPut_mem]; exact hs
  · refine engRoom_canon _ _ _ _ _ hs (fun s h => ?_)
    exact fold_inv (fun a : State × List (Byte × Byte) => Memory.wf a.1.mem = true) _ _ _ (fun a t h =>
        engPut_canon _ _ _ _ h) h
theorem writeMoves_canon (s : State) (w : Who) (keep : ℕ → Bool) (ms : List (Move × List TPart × ℕ)) (hs :
    Memory.wf s.mem = true) :
    (writeMoves s w keep ms).canon := by
  induction ms generalizing s with
  | nil => exact hs
  | cons m ms ih =>
    have h := moveWrite_canon s w m.1 m.2.1 m.2.2 hs
    unfold writeMoves
    split
    · exact ih _ hs
    · split <;> rename_i he
      · rw [he] at h; exact ih _ h
      · exact h
theorem runMoves_canon (s : State) (w : Who) (keep : ℕ → Bool) (ms : List Move) (hs : Memory.wf s.mem = true) :
    (runMoves s w keep ms).canon := by
  unfold runMoves
  grind (splits := 6) [gatherMoves_mem, writeMoves_canon, Acc.canon, DetTest.canon, DetGate.canon, Gate.canon,
      Iss.canon, Out.canon, EngOut.canon, StepOut.canon, RunOut.canon, Res.canon, Body.canon]
theorem runRows_canon (s : State) (w : Who) (keep : ℕ → Bool) (row : State → ℕ → Except EngEnd (List Move)) (rs :
    List ℕ)
    (hs : Memory.wf s.mem = true) : (runRows s w keep row rs).canon := by
  induction rs generalizing s with
  | nil => exact hs
  | cons r rs ih =>
    unfold runRows
    split
    · exact hs
    · rename_i ms _
      have h := runMoves_canon s w keep ms hs
      split <;> rename_i he
      · rw [he] at h; exact ih _ h
      · exact h
theorem transfer_canon (s : State) (cmd : Cmd) (keep : ℕ → Bool) (hs : Memory.wf s.mem = true) :
    (transfer s cmd keep).canon := by
  unfold transfer
  grind (splits := 6) [runMoves_canon, runRows_canon, Acc.canon, DetTest.canon, DetGate.canon, Gate.canon, Iss.canon,
      Out.canon, EngOut.canon, StepOut.canon, RunOut.canon, Res.canon, Body.canon]
theorem headWaits_canon (s : State) (e : ℕ) (cmd : Cmd) (hs : Memory.wf s.mem = true) :
    Memory.wf (headWaits s e cmd).mem = true := by
  unfold headWaits
  (repeat' split) <;> simp +contextual [holdFull_mem, hs]
theorem completeTransfer_canon (s : State) (e : ℕ) (cmd : Cmd) (hs : Memory.wf s.mem = true) :
    Memory.wf (completeTransfer s e cmd).mem = true := by
  unfold completeTransfer
  grind (splits := 6) [popHead_canon, transfer_canon, headWaits_canon, Acc.canon, DetTest.canon, DetGate.canon,
      Gate.canon, Iss.canon, Out.canon, EngOut.canon, StepOut.canon, RunOut.canon, Res.canon, Body.canon]
theorem execEngineCommandCompletion_canon (ctx : ℕ) (s : State) (hs : Memory.wf s.mem = true) :
    (∀ t1, (execEngineCommandCompletion ctx s) = .next t1 → Memory.wf t1.mem = true) := by
  unfold execEngineCommandCompletion
  (repeat' split) <;>
    grind (splits := 8) [completeTransfer_canon, Acc.canon, DetTest.canon, DetGate.canon, Gate.canon, Iss.canon,
        Out.canon, EngOut.canon, StepOut.canon, RunOut.canon, Res.canon, Body.canon]
theorem execCollectiveComplete_canon (group : ℕ) (remote : List CollPart) (s : State) (hs : Memory.wf s.mem = true) :
    (∀ t1, (execCollectiveComplete group remote s) = .next t1 → Memory.wf t1.mem = true) := by
  unfold execCollectiveComplete
  dsimp only
  refine next_canon ?_
  (repeat' split) <;>
    grind (splits := 8) [endColl_canon, engRead_mem, engWrite_canon, Acc.canon, DetTest.canon, DetGate.canon,
        Gate.canon, Iss.canon, Out.canon, EngOut.canon, StepOut.canon, RunOut.canon, Res.canon, Body.canon]
theorem execReportedTrapDelivery_canon (wg : ℕ) (warp : ℕ) (s : State) (hs : Memory.wf s.mem = true) :
    (∀ t1, (execReportedTrapDelivery wg warp s) = .next t1 → Memory.wf t1.mem = true) := by
  unfold execReportedTrapDelivery
  dsimp only
  (repeat' split) <;> (refine next_canon ?_) <;> first | exact hs | simp +contextual [deliverReport_canon, hs]
theorem logRecord_canon (s : State) (q : AtomReq) (n : ℕ) (hs : Memory.wf s.mem = true) :
    Memory.wf (logRecord s q n).mem = true := by
  unfold logRecord
  grind [State.modWarp_mem, logPut_canon, Acc.canon, DetTest.canon, DetGate.canon, Gate.canon, Iss.canon, Out.canon,
      EngOut.canon, StepOut.canon, RunOut.canon, Res.canon, Body.canon]
theorem logReplay_canon (s : State) (q : AtomReq) (n : ℕ) (hs : Memory.wf s.mem = true) :
    Memory.wf (logReplay s q n).mem = true := by
  unfold logReplay
  grind [State.modCtx_mem, logPut_canon, Acc.canon, DetTest.canon, DetGate.canon, Gate.canon, Iss.canon, Out.canon,
      EngOut.canon, StepOut.canon, RunOut.canon, Res.canon, Body.canon]
theorem logEnd_canon (s : State) (q : AtomReq) (n : ℕ) (hs : Memory.wf s.mem = true) :
    Memory.wf (logEnd s q n).mem = true := by
  unfold logEnd
  grind (splits := 6) [logPut_canon, Acc.canon, DetTest.canon, Put.canon, DetGate.canon, Gate.canon, Iss.canon,
      Out.canon, EngOut.canon, StepOut.canon, RunOut.canon, Res.canon, Body.canon]
theorem afterAdmission_canon (s : State) (q : AtomReq) (performed : Bool) (a : Admission) (hs :
    Memory.wf s.mem = true) : Memory.wf (afterAdmission s q performed a).mem = true := by
  unfold afterAdmission
  (repeat' split) <;> simp +contextual [logRecord_canon, logReplay_canon, logEnd_canon, logLost_canon, hs]
theorem atomPerform_canon (s : State) (q : AtomReq) (hs : Memory.wf s.mem = true) :
    Memory.wf (atomPerform s q).mem = true := by
  simp +contextual [atomPerform, afterAdmission_canon, performRaw_canon, hs]
theorem afterWriteback_canon (s : State) (p : ℕ) (hs : Memory.wf s.mem = true) :
    Memory.wf (afterWriteback s p).mem = true := by
  unfold afterWriteback
  split
  · exact hs
  · exact releaseHandles_canon _ (foldl_canon _ _ _ (fun s g h => foldl_canon _ _ _ (fun s b h =>
      leaveBar_canon _ _ _ _ _ h) h) hs)
theorem execAtomicUnitOperation_canon (idx : ℕ) (s : State) (hs : Memory.wf s.mem = true) :
    (∀ t1, (execAtomicUnitOperation idx s) = .next t1 → Memory.wf t1.mem = true) := by
  unfold execAtomicUnitOperation
  dsimp only
  (repeat' split) <;> (refine next_canon ?_) <;> first | exact hs | simp +contextual [atomPerform_canon,
      afterWriteback_canon, hs]
theorem execReplayDivergence_canon (ctx : ℕ) (entry : ℕ) (s : State) (hs : Memory.wf s.mem = true) :
    (∀ t1, (execReplayDivergence ctx entry s) = .next t1 → Memory.wf t1.mem = true) := by
  unfold execReplayDivergence
  dsimp only
  (repeat' split) <;> (refine next_canon ?_) <;> first | exact hs | simp +contextual [failLaunch_canon, hs]
theorem execRemoteTimeout_canon (wg : ℕ) (warp : ℕ) (s : State) (hs : Memory.wf s.mem = true) :
    (∀ t1, (execRemoteTimeout wg warp s) = .next t1 → Memory.wf t1.mem = true) := by
  refine next_canon ?_
  exact hs
theorem answerRemote_mem (s : State) (src : ℕ) (stat : ℕ) (data : List Byte) :
    (answerRemote s src stat data).mem = s.mem := by rfl
theorem performRemote_canon (s : State) (q : RemoteReq) (hs : Memory.wf s.mem = true) :
    Memory.wf (performRemote s q).mem = true := by
  unfold performRemote
  grind (splits := 6) [answerRemote_mem, l2Write_canon, clearResv_mem, Acc.canon, DetTest.canon, DetGate.canon,
      Gate.canon, Iss.canon, Out.canon, EngOut.canon, StepOut.canon, RunOut.canon, Res.canon, Body.canon]
theorem execUalinkRemoteRequest_canon (req : RemoteReq) (s : State) (hs : Memory.wf s.mem = true) :
    (∀ t1, (execUalinkRemoteRequest req s) = .next t1 → Memory.wf t1.mem = true) := by
  unfold execUalinkRemoteRequest
  (repeat' split) <;>
    grind (splits := 8) [performRemote_canon, answerRemote_mem, Acc.canon, DetTest.canon, DetGate.canon, Gate.canon,
        Iss.canon, Out.canon, EngOut.canon, StepOut.canon, RunOut.canon, Res.canon, Body.canon]
theorem askYield_mem (s : State) (wg : ℕ) : (askYield s wg).mem = s.mem := by
  unfold askYield
  simp only []
  (repeat' split) <;> first | rfl | (refine foldl_mem _ _ _ ?_; intros; (repeat' split) <;> simp)
theorem execYieldRequest_canon (core : ℕ) (s : State) (hs : Memory.wf s.mem = true) :
    (∀ t1, (execYieldRequest core s) = .next t1 → Memory.wf t1.mem = true) := by
  refine next_canon ?_
  split
  · split
    · split
      · rw [popBind_mem]; exact hs
      · rw [foldl_mem askYield _ _ (fun s a => askYield_mem s a)]; exact hs
    · exact hs
  · exact hs
theorem preparedUnit_canon (s : State) (ks : List ℕ) (hs : Memory.wf s.mem = true) :
    Memory.wf (preparedUnit s ks).mem = true := by
  unfold preparedUnit
  exact foldl_canon _ _ _ (fun s k h => prepareOne_canon _ _ h) (foldl_canon _ _ _ (fun s k h =>
      writebackAll_canon _ _ h) hs)
theorem endYields_mem (s : State) (ks : List ℕ) : (endYields s ks).mem = s.mem := by rfl
theorem parkEngine_mem (s : State) (wg : ℕ) : (parkEngine s wg).mem = s.mem := by
  unfold parkEngine
  (repeat' split) <;> simp
theorem saveWg_canon (s : State) (wg : ℕ) (addr : ℕ) (lives : List (ℕ × ℕ)) (hs : Memory.wf s.mem = true) :
    Memory.wf (saveWg s wg addr lives).mem = true := by
  unfold saveWg
  dsimp only
  split
  · exact saveFailed_canon _ _ _ hs
  · rename_i he
    have h := kettleWrite_canon _ _ _ _ hs _ he
    rw [State.modWg_mem, State.modCtx_mem, parkEngine_mem]
    refine foldl_canon _ _ _ (fun s o h => ?_) h
    split
    · rw [poisonBlock_mem]; exact h
    · exact h
theorem saveRun_canon (s : State) (a : ℕ) (es : List (ℕ × List (ℕ × ℕ))) (hs : Memory.wf s.mem = true) :
    Memory.wf (saveRun s a es).mem = true := by
  unfold saveRun
  exact fold_inv (fun p : State × ℕ => Memory.wf p.1.mem = true) _ _ _ (fun p e h => saveWg_canon _ _ _ _ h) hs
theorem execWorkgroupSave_canon (wg : ℕ) (s : State) (hs : Memory.wf s.mem = true) :
    (∀ t1, (execWorkgroupSave wg s) = .next t1 → Memory.wf t1.mem = true) := by
  refine next_canon ?_
  split
  · exact hs
  · have hp := preparedUnit_canon s (unitOf s wg Wg.alive) hs
    split
    · exact hp
    · rw [endYields_mem]
      exact foldl_canon _ _ _ (fun s r h => saveRun_canon _ _ _ h) hp
theorem dropYield_mem (s : State) (wg : ℕ) : (dropYield s wg).mem = s.mem := by
  unfold dropYield
  simp only []
  (repeat' split) <;> first | rfl | (refine foldl_mem _ _ _ ?_; intros; (repeat' split) <;> simp)
theorem execSafePointOverdue_canon (wg : ℕ) (s : State) (hs : Memory.wf s.mem = true) :
    (∀ t1, (execSafePointOverdue wg s) = .next t1 → Memory.wf t1.mem = true) := by
  unfold execSafePointOverdue
  dsimp only
  (repeat' split) <;> (refine next_canon ?_) <;> first | exact hs | simp +contextual [foldl_mem, foldl_canon,
      dropYield_mem, endYields_mem, writeRecord_canon, hs]
theorem freeImage_mem (s : State) (wg : ℕ) : (freeImage s wg).mem = s.mem := by rfl
theorem imageFailed_canon (s : State) (wg : ℕ) (hs : Memory.wf s.mem = true) :
    Memory.wf (imageFailed s wg).mem = true := by
  unfold imageFailed
  (repeat' split) <;> simp +contextual [endWorkgroup_canon, freeImage_mem, hs]
theorem restoreWg_canon (s : State) (wg : ℕ) (core : ℕ) (bs : List Byte) (places : List (ℕ × ℕ)) (hs :
    Memory.wf s.mem = true) : Memory.wf (restoreWg s wg core bs places).mem = true := by
  unfold restoreWg
  lift_lets
  intro g lives scratch n k pcOf s1 a s2 s3
  have h1 : s1.mem = s.mem := foldl_mem _ _ _ (fun s a => State.modWarp_mem ..)
  refine releaseHandles_canon _ ?_
  rw [freeImage_mem]
  have h2 : s2.mem = s1.mem := rfl
  simp only [s3]
  split
  · rw [State.modEng_mem, State.modCore_mem, h2, h1]; exact hs
  · rw [h2, h1]; exact hs
theorem resumeWg_canon (s : State) (b : Bind) (bs : List Byte) (hs : Memory.wf s.mem = true) :
    Memory.wf (resumeWg s b bs).mem = true := by
  unfold resumeWg
  (repeat' split) <;>
    grind (splits := 6) [restoreWg_canon, shareFor_canon, dropAll_canon, Acc.canon, DetTest.canon, DetGate.canon,
        Gate.canon, Iss.canon, Out.canon, EngOut.canon, StepOut.canon, RunOut.canon, Res.canon, Body.canon]
theorem execBindResume_canon (core : ℕ) (s : State) (hs : Memory.wf s.mem = true) :
    (∀ t1, (execBindResume core s) = .next t1 → Memory.wf t1.mem = true) := by
  refine next_canon ?_
  split
  · split
    · dsimp only
      have hp := fun bs => foldl_canon popBind bs s (fun s b h => by rw [popBind_mem]; exact h) hs
      split
      · refine foldl_canon _ _ _ (fun s x h => ?_) (hp _)
        split
        · exact imageFailed_canon _ _ h
        · exact h
      · exact foldl_canon _ _ _ (fun s x h => resumeWg_canon _ _ _ h) (hp _)
    · exact hs
  · exact hs
theorem execBindWithdrawCore_canon (core : ℕ) (s : State) (hs : Memory.wf s.mem = true) :
    (∀ t1, (execBindWithdrawCore core s) = .next t1 → Memory.wf t1.mem = true) := by
  unfold execBindWithdrawCore
  (repeat' split) <;>
    grind (splits := 8) [State.modCore_mem, popBind_mem, Acc.canon, DetTest.canon, DetGate.canon, Gate.canon,
        Iss.canon, Out.canon, EngOut.canon, StepOut.canon, RunOut.canon, Res.canon, Body.canon]
theorem execBindReturnCore_canon (core : ℕ) (s : State) (hs : Memory.wf s.mem = true) :
    (∀ t1, (execBindReturnCore core s) = .next t1 → Memory.wf t1.mem = true) := by
  unfold execBindReturnCore
  (repeat' split) <;>
    grind (splits := 8) [State.modCore_mem, popBind_mem, Acc.canon, DetTest.canon, DetGate.canon, Gate.canon,
        Iss.canon, Out.canon, EngOut.canon, StepOut.canon, RunOut.canon, Res.canon, Body.canon]
theorem freeEngine_mem (s : State) (wg : ℕ) :
    (freeEngine s wg).mem = s.mem := by grind [freeEngine, State.modEng_mem, State.modCore_mem]
theorem recheckLaunch_canon (s : State) (lslot : ℕ) (hs : Memory.wf s.mem = true) :
    Memory.wf (recheckLaunch s lslot).mem = true := by
  unfold recheckLaunch
  (repeat' (first | split | (refine foldl_canon _ _ _ (fun _ _ _ => ?_) ?_))) <;>
    grind (splits := 6) [gbarTry_canon, Acc.canon, DetTest.canon, DetGate.canon, Gate.canon, Iss.canon, Out.canon,
        EngOut.canon, StepOut.canon, RunOut.canon, Res.canon, Body.canon]
theorem execWorkgroupRetire_canon (wg : ℕ) (s : State) (hs : Memory.wf s.mem = true) :
    (∀ t1, (execWorkgroupRetire wg s) = .next t1 → Memory.wf t1.mem = true) := by
  unfold execWorkgroupRetire
  dsimp only
  refine next_canon ?_
  (repeat' split) <;>
    grind (splits := 8) [writebackAll_canon, writePending_canon, dropReports_canon, flushHeader_canon, removeWg_mem,
        freeImage_mem, freeEngine_mem, State.modLaunch_mem, writeStatus_canon, recheckLaunch_canon, Acc.canon,
        DetTest.canon, Put.canon, DetGate.canon, Gate.canon, Iss.canon, Out.canon, EngOut.canon, StepOut.canon,
        RunOut.canon, Res.canon, Body.canon]
theorem execLaunchRecordTake_canon (ctx : ℕ) (queue : ℕ) (s : State) (hs : Memory.wf s.mem = true) :
    (∀ t1, (execLaunchRecordTake ctx queue s) = .next t1 → Memory.wf t1.mem = true) := by
  unfold execLaunchRecordTake
  dsimp only
  (repeat' split) <;> (refine next_canon ?_) <;> first | exact hs | simp +contextual [State.setLaunch_mem,
      writeStatus_canon, checkLaunch_canon, hs]
theorem writeBind_mem (s : State) (b : Bind) : (writeBind s b).mem = s.mem := by rfl
theorem writeYields_mem (s : State) (ks : List ℕ) : (writeYields s ks).mem = s.mem := by
  unfold writeYields
  simp only []
  (repeat' split) <;> first | rfl | (refine foldl_mem _ _ _ ?_; intros; (repeat' split) <;> simp [writeBind_mem])
theorem writeBinds_mem (s : State) (lslot : ℕ) : (writeBinds s lslot).mem = s.mem := by
  unfold writeBinds
  dsimp only
  rw [State.modLaunch_mem]
  exact fold_inv (fun a : State × List Bind => a.1.mem = s.mem) _ _ _ (fun a bs h => by
    split
    · exact (foldl_mem writeBind _ _ (fun s b => writeBind_mem s b)).trans h
    · exact h) rfl
theorem setLaunchState_canon (s : State) (lslot : ℕ) (st : ℕ) (hs : Memory.wf s.mem = true) :
    Memory.wf (setLaunchState s lslot st).mem = true := by
  simp +contextual [setLaunchState, writeStatus_canon, hs]
theorem runPlan_canon (s : State) (lslot : ℕ) (x2 : Plan) (hs : Memory.wf s.mem = true) :
    Memory.wf (runPlan s lslot x2).mem = true := by
  unfold runPlan
  grind (splits := 6) [writeBinds_mem, scanAbortNow_mem, writeYields_mem, setLaunchState_canon, State.modLaunch_mem,
      Acc.canon, DetTest.canon, Put.canon, DetGate.canon, Gate.canon, Iss.canon, Out.canon, EngOut.canon,
      StepOut.canon, RunOut.canon, Res.canon, Body.canon]
theorem execWorkgroupPlacement_canon (lslot : ℕ) (s : State) (hs : Memory.wf s.mem = true) :
    (∀ t1, (execWorkgroupPlacement lslot s) = .next t1 → Memory.wf t1.mem = true) := by
  unfold execWorkgroupPlacement
  dsimp only
  (repeat' split) <;> (refine next_canon ?_) <;> first | exact hs | simp +contextual [foldl_canon, checkLaunch_canon,
      writeYields_mem, runPlan_canon, hs]
theorem stopConsumers_mem (s : State) (lid : ℕ) (ctx : ℕ) : (stopConsumers s lid ctx).mem = s.mem := by
  unfold stopConsumers
  simp only []
  (repeat' split) <;> first | rfl | (refine foldl_mem _ _ _ ?_; intros; (repeat' split) <;> simp)
theorem execLaunchFinish_canon (lslot : ℕ) (s : State) (hs : Memory.wf s.mem = true) :
    (∀ t1, (execLaunchFinish lslot s) = .next t1 → Memory.wf t1.mem = true) := by
  unfold execLaunchFinish
  dsimp only
  refine next_canon ?_
  (repeat' split) <;>
    grind (splits := 8) [writeStatus_canon, setLid_mem, stopConsumers_mem, Acc.canon, DetTest.canon, DetGate.canon,
        Gate.canon, Iss.canon, Out.canon, EngOut.canon, StepOut.canon, RunOut.canon, Res.canon, Body.canon]
theorem mergeRed_canon (s : State) (lslot : ℕ) (index : ℕ) (r : DetRed) (hs : Memory.wf s.mem = true) :
    Memory.wf (mergeRed s lslot index r).mem = true := by
  simp +contextual [mergeRed, foldl_canon, l2Write_canon, hs]
theorem mergeRun_canon (s : State) (wg : ℕ) (hs : Memory.wf s.mem = true) :
    (∀ t2, (mergeRun s wg) = .ok t2 → Memory.wf t2.mem = true) := by
  unfold mergeRun
  dsimp only
  split
  · exact fun _ h => (nomatch h)
  · split
    · exact fun _ h => (nomatch h)
    · exact fun _ h => (nomatch h)
    · rename_i he _
      have h := savePres_canon _ _ _ hs _ he
      rintro t ⟨⟩
      exact foldl_canon _ _ _ (fun s r h => mergeRed_canon _ _ _ _ h) (foldl_canon _ _ _ (fun s e h =>
          mergeByte_canon _ _ _ _ _ h) h)
theorem execDeterministicMerge_canon (wg : ℕ) (s : State) (hs : Memory.wf s.mem = true) :
    (∀ t1, (execDeterministicMerge wg s) = .next t1 → Memory.wf t1.mem = true) := by
  unfold execDeterministicMerge
  dsimp only
  refine next_canon ?_
  (repeat' split) <;>
    grind (splits := 8) [lastHeader_canon, mergeRun_canon, failLaunch_canon, recheckLaunch_canon, State.modWg_mem,
        mergeRegions_canon, Acc.canon, DetTest.canon, Put.canon, DetGate.canon, Gate.canon, Iss.canon, Out.canon,
        EngOut.canon, StepOut.canon, RunOut.canon, Res.canon, Body.canon]
theorem execBufferFullRelease_canon (wg : ℕ) (s : State) (hs : Memory.wf s.mem = true) :
    (∀ t1, (execBufferFullRelease wg s) = .next t1 → Memory.wf t1.mem = true) := by
  unfold execBufferFullRelease
  dsimp only
  refine next_canon ?_
  (repeat' split) <;>
    grind (splits := 8) [mergeRun_canon, failLaunch_canon, State.modWg_mem, Acc.canon, DetTest.canon, DetGate.canon,
        Gate.canon, Iss.canon, Out.canon, EngOut.canon, StepOut.canon, RunOut.canon, Res.canon, Body.canon]
theorem answerCoreret_canon (s : State) (ws : List Waiter) (hs : Memory.wf s.mem = true) :
    Memory.wf (answerCoreret s ws).mem = true := by
  unfold answerCoreret
  refine foldl_canon _ _ _ (fun s x h => ?_) hs
  rw [deliverWait_mem]
  exact fold_inv (fun a : State × Nat => Memory.wf a.1.mem = true) _ _ _ (fun a e h =>
      fillPuts_canon _ _ _ _ _ _ _ _ h) h
theorem retireCore_canon (s : State) (p : ℕ) (hs : Memory.wf s.mem = true) : Memory.wf (retireCore s p).mem = true := by
  unfold retireCore
  exact answerCoreret_canon _ _ (writeRecord_canon _ _ (by rw [State.modCore_mem, setMap_mem]; exact hs))
theorem execCoreRenumber_canon (core : ℕ) (s : State) (hs : Memory.wf s.mem = true) :
    (∀ t1, (execCoreRenumber core s) = .next t1 → Memory.wf t1.mem = true) := by
  unfold execCoreRenumber
  (repeat' split) <;>
    grind (splits := 8) [writeYields_mem, retireCore_canon, Acc.canon, DetTest.canon, DetGate.canon, Gate.canon,
        Iss.canon, Out.canon, EngOut.canon, StepOut.canon, RunOut.canon, Res.canon, Body.canon]
theorem endScan_canon (s : State) (p : ℕ) (hs : Memory.wf s.mem = true) : Memory.wf (endScan s p).mem = true := by
  unfold endScan
  grind (splits := 6) [State.modCore_mem, writeRecord_canon, writeBind_mem, Acc.canon, DetTest.canon, DetGate.canon,
      Gate.canon, Iss.canon, Out.canon, EngOut.canon, StepOut.canon, RunOut.canon, Res.canon, Body.canon]
theorem execScanComplete_canon (core : ℕ) (s : State) (hs : Memory.wf s.mem = true) :
    (∀ t1, (execScanComplete core s) = .next t1 → Memory.wf t1.mem = true) := by
  unfold execScanComplete
  (repeat' split) <;>
    grind (splits := 8) [endScan_canon, writeBind_mem, writeYields_mem, scanStart_canon, Acc.canon, DetTest.canon,
        DetGate.canon, Gate.canon, Iss.canon, Out.canon, EngOut.canon, StepOut.canon, RunOut.canon, Res.canon,
        Body.canon]
theorem execScanAbort_canon (core : ℕ) (s : State) (hs : Memory.wf s.mem = true) :
    (∀ t1, (execScanAbort core s) = .next t1 → Memory.wf t1.mem = true) := by
  refine next_canon ?_
  simp +contextual [scanAbortNow_mem, hs]
theorem hostWrite_canon (fr : Frame) (x : Session) (s : State) (hs : Memory.wf s.mem = true) :
    Memory.wf (hostWrite fr x s).2.2.mem = true := by
  unfold hostWrite
  dsimp only
  split
  · exact hs
  · split
    · exact hs
    · exact foldl_canon _ _ _ (fun s t h => l2Write_canon _ _ _ h) hs
theorem execWrite_canon (fr : Frame) (s : State) (hs : Memory.wf s.mem = true) :
    (∀ t1, (execWrite fr s) = .next t1 → Memory.wf t1.mem = true) := by
  refine next_canon ?_
  split
  · exact hs
  · refine onFrame_canon _ _ _ _ ?_ hs
    intro x t h
    grind (splits := 8) [onFrame_canon, hostWrite_canon, Acc.canon, DetTest.canon, DetGate.canon, Gate.canon,
        Iss.canon, Out.canon, EngOut.canon, StepOut.canon, RunOut.canon, Res.canon, Body.canon]
theorem hostRelease_canon (fr : Frame) (x : Session) (s : State) (hs : Memory.wf s.mem = true) :
    Memory.wf (hostRelease fr x s).2.2.mem = true := by
  unfold hostRelease
  grind (splits := 6) [l2Write_canon, State.modCtx_mem, Acc.canon, DetTest.canon, DetGate.canon, Gate.canon,
      Iss.canon, Out.canon, EngOut.canon, StepOut.canon, RunOut.canon, Res.canon, Body.canon]
theorem execRelease_canon (fr : Frame) (s : State) (hs : Memory.wf s.mem = true) :
    (∀ t1, (execRelease fr s) = .next t1 → Memory.wf t1.mem = true) := by
  refine next_canon ?_
  split
  · exact hs
  · refine onFrame_canon _ _ _ _ ?_ hs
    intro x t h
    grind (splits := 8) [onFrame_canon, hostRelease_canon, Acc.canon, DetTest.canon, DetGate.canon, Gate.canon,
        Iss.canon, Out.canon, EngOut.canon, StepOut.canon, RunOut.canon, Res.canon, Body.canon]
theorem mgmtReadAct_canon (fr : Frame) (s : State) (hs : Memory.wf s.mem = true) :
    Memory.wf (mgmtReadAct fr s).2.2.mem = true := by
  unfold mgmtReadAct
  (repeat' split) <;> simp +contextual [hs]
theorem execMgmtRead_canon (fr : Frame) (s : State) (hs : Memory.wf s.mem = true) :
    (∀ t1, (execMgmtRead fr s) = .next t1 → Memory.wf t1.mem = true) := by
  refine next_canon (onFrame_canon _ _ _ _ ?_ hs)
  intro x t h
  grind (splits := 8) [onFrame_canon, mgmtReadAct_canon, Acc.canon, DetTest.canon, DetGate.canon, Gate.canon,
      Iss.canon, Out.canon, EngOut.canon, StepOut.canon, RunOut.canon, Res.canon, Body.canon]
theorem execMgmtWrite_canon (fr : Frame) (s : State) (hs : Memory.wf s.mem = true) :
    (∀ t1, (execMgmtWrite fr s) = .next t1 → Memory.wf t1.mem = true) := by
  refine next_canon (onFrame_canon _ _ _ _ ?_ hs)
  intro x t h
  grind (splits := 8) [onFrame_canon, mgmtWriteAct_canon, Acc.canon, DetTest.canon, DetGate.canon, Gate.canon,
      Iss.canon, Out.canon, EngOut.canon, StepOut.canon, RunOut.canon, Res.canon, Body.canon]
theorem execMgmtWritePkgid_canon (fr : Frame) (s : State) (hs : Memory.wf s.mem = true) :
    (∀ t1, (execMgmtWritePkgid fr s) = .next t1 → Memory.wf t1.mem = true) :=
    next_canon (onFrame_canon _ _ _ _ (fun _ _ h => mgmtWriteAct_canon _ _ h) hs)
theorem execMgmtWritePodid_canon (fr : Frame) (s : State) (hs : Memory.wf s.mem = true) :
    (∀ t1, (execMgmtWritePodid fr s) = .next t1 → Memory.wf t1.mem = true) :=
    next_canon (onFrame_canon _ _ _ _ (fun _ _ h => mgmtWriteAct_canon _ _ h) hs)
theorem execMgmtWriteGroup_canon (fr : Frame) (s : State) (hs : Memory.wf s.mem = true) :
    (∀ t1, (execMgmtWriteGroup fr s) = .next t1 → Memory.wf t1.mem = true) :=
    next_canon (onFrame_canon _ _ _ _ (fun _ _ h => mgmtWriteAct_canon _ _ h) hs)
theorem execIpaddrDadComplete_canon (dup : Bool) (s : State) (hs : Memory.wf s.mem = true) :
    (∀ t1, (execIpaddrDadComplete dup s) = .next t1 → Memory.wf t1.mem = true) := by
  unfold execIpaddrDadComplete
  (repeat' split) <;>
    grind (splits := 8) [writeRecord_canon, Acc.canon, DetTest.canon, DetGate.canon, Gate.canon, Iss.canon,
        Out.canon, EngOut.canon, StepOut.canon, RunOut.canon, Res.canon, Body.canon]
theorem execMailboxAckTimer_canon (sess : ℕ) (s : State) (hs : Memory.wf s.mem = true) :
    (∀ t1, (execMailboxAckTimer sess s) = .next t1 → Memory.wf t1.mem = true) := by
  unfold execMailboxAckTimer
  (repeat' split) <;>
    grind (splits := 8) [sendAck_mem, modSession_mem, Acc.canon, DetTest.canon, DetGate.canon, Gate.canon, Iss.canon,
        Out.canon, EngOut.canon, StepOut.canon, RunOut.canon, Res.canon, Body.canon]
theorem sendPacket_mem (s : State) (peer : ℕ) (pk : Packet) (kind : ℕ) : (sendPacket s peer pk kind).mem = s.mem := by
  unfold sendPacket
  (repeat' split) <;> simp [sendFrame_mem]
theorem execNeighbourDiscovery_canon (peer : ℕ) (pk : Packet) (s : State) (hs : Memory.wf s.mem = true) :
    (∀ t1, (execNeighbourDiscovery peer pk s) = .next t1 → Memory.wf t1.mem = true) := by
  refine next_canon ?_
  simp +contextual [sendPacket_mem, hs]
theorem execIcmpv6Echo_canon (peer : ℕ) (pk : Packet) (s : State) (hs : Memory.wf s.mem = true) :
    (∀ t1, (execIcmpv6Echo peer pk s) = .next t1 → Memory.wf t1.mem = true) := by
  refine next_canon ?_
  simp +contextual [sendPacket_mem, hs]
theorem execHostLinkUp_canon (up : LinkUp) (s : State) (hs : Memory.wf s.mem = true) :
    (∀ t1, (execHostLinkUp up s) = .next t1 → Memory.wf t1.mem = true) := by
  refine next_canon ?_
  exact hs
theorem answer0_mem (s : State) (fr : Frame) (ftype : ℕ) (stat : ℕ) (payload : List Byte) :
    (answer0 s fr ftype stat payload).mem = s.mem := by rfl
theorem nextIndex_mem (s : State) : (nextIndex s).mem = s.mem := by rfl
theorem execHello_canon (fr : Frame) (s : State) (hs : Memory.wf s.mem = true) :
    (∀ t1, (execHello fr s) = .next t1 → Memory.wf t1.mem = true) := by
  unfold execHello
  dsimp only
  (repeat' split) <;> (refine next_canon ?_) <;> first | exact hs | simp +contextual [foldl_mem, foldl_canon,
      answer0_mem, nextIndex_mem, hs]
theorem State.takeFrames_mem (s : State) (n : ℕ) : (State.takeFrames s n).mem = s.mem := by rfl
theorem mapBlocks_canon (s : State) (v : ℕ) (hs : Memory.wf s.mem = true) : Memory.wf (mapBlocks s v).2.mem = true := by
  unfold mapBlocks
  dsimp only
  rw [State.takeFrames_mem]
  exact mapPages_canon _ _ _ hs
theorem takeEngs_canon (s : State) (ctx n kind : ℕ) (hs : Memory.wf s.mem = true) :
    Memory.wf (takeEngs s ctx n kind).mem = true := by
  unfold takeEngs
  refine foldl_canon _ _ _ (fun s _ h => ?_) hs
  cases he : takeEng s ctx kind with
  | none => exact h
  | some t => exact takeEng_canon _ _ _ h _ he
theorem createContext_canon (s : State) (ctx : ℕ) (hs : Memory.wf s.mem = true) :
    Memory.wf (createContext s ctx).mem = true := by
  unfold createContext
  refine takeEngs_canon _ _ _ _ (takeEngs_canon _ _ _ _ (takeEngs_canon _ _ _ _ ?_))
  rw [State.setCtx_mem]
  exact mapBlocks_canon _ _ hs
theorem openSession_canon (s : State) (fr : Frame) (h : Handshake) (hs : Memory.wf s.mem = true) :
    Memory.wf (openSession s fr h).mem = true := by
  unfold openSession
  grind (splits := 6) [answer0_mem, createContext_canon, Acc.canon, DetTest.canon, DetGate.canon, Gate.canon,
      Iss.canon, Out.canon, EngOut.canon, StepOut.canon, RunOut.canon, Res.canon, Body.canon]
theorem execProve_canon (fr : Frame) (s : State) (hs : Memory.wf s.mem = true) :
    (∀ t1, (execProve fr s) = .next t1 → Memory.wf t1.mem = true) := by
  unfold execProve
  dsimp only
  (repeat' split) <;> (refine next_canon ?_) <;> first | exact hs | simp +contextual [proveFailed_canon, answer0_mem,
      openSession_canon, hs]
theorem execProveTimeout_canon (idx : ℕ) (s : State) (hs : Memory.wf s.mem = true) :
    (∀ t1, (execProveTimeout idx s) = .next t1 → Memory.wf t1.mem = true) := by
  unfold execProveTimeout
  (repeat' split) <;>
    grind (splits := 8) [Acc.canon, DetTest.canon, DetGate.canon, Gate.canon, Iss.canon, Out.canon, EngOut.canon,
        StepOut.canon, RunOut.canon, Res.canon, Body.canon]
theorem claimAct_canon (fr : Frame) (x : Session) (s : State) (hs : Memory.wf s.mem = true) :
    Memory.wf (claimAct fr x s).2.2.mem = true := by
  unfold claimAct
  (repeat' split) <;> simp +contextual [sendFrame_mem, setOwner_canon, hs]
theorem execClaim_canon (fr : Frame) (s : State) (hs : Memory.wf s.mem = true) :
    (∀ t1, (execClaim fr s) = .next t1 → Memory.wf t1.mem = true) := by
  refine next_canon (onFrame_canon _ _ _ _ ?_ hs)
  intro x t h
  grind (splits := 8) [onFrame_canon, claimAct_canon, Acc.canon, DetTest.canon, DetGate.canon, Gate.canon, Iss.canon,
      Out.canon, EngOut.canon, StepOut.canon, RunOut.canon, Res.canon, Body.canon]
theorem handoverAct_canon (fr : Frame) (x1 : Session) (s : State) (hs : Memory.wf s.mem = true) :
    Memory.wf (handoverAct fr x1 s).2.2.mem = true := by
  unfold handoverAct
  grind (splits := 6) [setOwner_canon, Acc.canon, DetTest.canon, DetGate.canon, Gate.canon, Iss.canon, Out.canon,
      EngOut.canon, StepOut.canon, RunOut.canon, Res.canon, Body.canon]
theorem execHandover_canon (fr : Frame) (s : State) (hs : Memory.wf s.mem = true) :
    (∀ t1, (execHandover fr s) = .next t1 → Memory.wf t1.mem = true) := by
  refine next_canon (onFrame_canon _ _ _ _ ?_ hs)
  intro x t h
  grind (splits := 8) [onFrame_canon, handoverAct_canon, Acc.canon, DetTest.canon, DetGate.canon, Gate.canon,
      Iss.canon, Out.canon, EngOut.canon, StepOut.canon, RunOut.canon, Res.canon, Body.canon]
theorem execElectionWindowClose_canon (s : State) (hs : Memory.wf s.mem = true) :
    (∀ t1, (execElectionWindowClose s) = .next t1 → Memory.wf t1.mem = true) := by
  unfold execElectionWindowClose
  dsimp only
  (repeat' split) <;> (refine next_canon ?_) <;> first | exact hs | simp +contextual [foldl_mem, sendFrame_mem,
      setOwner_canon, hs]
theorem execOwnershipLapse_canon (s : State) (hs : Memory.wf s.mem = true) :
    (∀ t1, (execOwnershipLapse s) = .next t1 → Memory.wf t1.mem = true) := by
  unfold execOwnershipLapse
  (repeat' split) <;>
    grind (splits := 8) [setOwner_canon, Acc.canon, DetTest.canon, DetGate.canon, Gate.canon, Iss.canon, Out.canon,
        EngOut.canon, StepOut.canon, RunOut.canon, Res.canon, Body.canon]
theorem writeResult_canon (s : State) (asid : ℕ) (res : ℕ) (st : ℕ) (head : List Byte) (entries : List Byte) (hs :
    Memory.wf s.mem = true) : Memory.wf (writeResult s asid res st head entries).mem = true := by
  unfold writeResult
  exact logPut_canon _ _ _ _ (logPut_canon _ _ _ _ (logPut_canon _ _ _ _ hs))
theorem dropCodeRange_canon (s : State) (asid : ℕ) (va : ℕ) (n : ℕ) (hs : Memory.wf s.mem = true) :
    Memory.wf (dropCodeRange s asid va n).mem = true := by
  simp +contextual [dropCodeRange, dropCode_canon, hs]
theorem storePieces_canon (s : State) (asid : ℕ) (r : LoadReq) (bs : List Byte) (rs : List ERec) (hs :
    Memory.wf s.mem = true) : Memory.wf (storePieces s asid r bs rs).mem = true := by
  unfold storePieces
  refine dropCodeRange_canon _ _ _ _ (foldl_canon _ _ _ (fun s e h => ?_) hs)
  cases he : kettleWrite s asid e.1 e.2 with
  | none => exact h
  | some t => exact kettleWrite_canon _ _ _ _ h _ he
theorem acceptLoad_canon (s : State) (ctx : ℕ) (r : LoadReq) (bs : List Byte) (hs : Memory.wf s.mem = true) :
    Memory.wf (acceptLoad s ctx r bs).mem = true := by
  rw [acceptLoad.eq_def]
  have h := storePieces_canon s (s.getCtx ctx).asid r bs (eRecords bs (parseHead bs)) hs
  revert h
  dsimp only
  generalize storePieces s _ r bs _ = t
  intro h
  refine writeResult_canon _ _ _ _ _ _ ?_
  rw [State.modCtx_mem]
  exact h
theorem refuseLoad_canon (s : State) (ctx : ℕ) (r : LoadReq) (bs : List Byte) (reason : ℕ) (hs :
    Memory.wf s.mem = true) : Memory.wf (refuseLoad s ctx r bs reason).mem = true := by
  simp +contextual [refuseLoad, writeResult_canon, hs]
theorem serveLoad_canon (s : State) (ctx : ℕ) (r : LoadReq) (hs : Memory.wf s.mem = true) :
    Memory.wf (serveLoad s ctx r).mem = true := by
  unfold serveLoad
  dsimp only
  split
  · exact writeResult_canon _ _ _ _ _ _ hs
  · split
    · exact writeResult_canon _ _ _ _ _ _ hs
    · split
      · exact acceptLoad_canon _ _ _ _ hs
      · exact writeResult_canon _ _ _ _ _ _ hs
theorem execLoad_canon (ctx : ℕ) (s : State) (hs : Memory.wf s.mem = true) :
    (∀ t1, (execLoad ctx s) = .next t1 → Memory.wf t1.mem = true) := by
  unfold execLoad
  (repeat' split) <;>
    grind (splits := 8) [serveLoad_canon, popReq_mem, Acc.canon, DetTest.canon, DetGate.canon, Gate.canon, Iss.canon,
        Out.canon, EngOut.canon, StepOut.canon, RunOut.canon, Res.canon, Body.canon]
theorem serveUnload_canon (s : State) (ctx : ℕ) (r : LoadReq) (hs : Memory.wf s.mem = true) :
    Memory.wf (serveUnload s ctx r).mem = true := by
  unfold serveUnload
  grind (splits := 6) [writeResult_canon, State.modCtx_mem, Acc.canon, DetTest.canon, DetGate.canon, Gate.canon,
      Iss.canon, Out.canon, EngOut.canon, StepOut.canon, RunOut.canon, Res.canon, Body.canon]
theorem execUnload_canon (ctx : ℕ) (s : State) (hs : Memory.wf s.mem = true) :
    (∀ t1, (execUnload ctx s) = .next t1 → Memory.wf t1.mem = true) := by
  unfold execUnload
  (repeat' split) <;>
    grind (splits := 8) [serveUnload_canon, popReq_mem, Acc.canon, DetTest.canon, DetGate.canon, Gate.canon,
        Iss.canon, Out.canon, EngOut.canon, StepOut.canon, RunOut.canon, Res.canon, Body.canon]
theorem serveSupervisor_canon (s : State) (ctx : ℕ) (r : LoadReq) (hs : Memory.wf s.mem = true) :
    Memory.wf (serveSupervisor s ctx r).mem = true := by
  unfold serveSupervisor
  (repeat' split) <;> simp +contextual [writeResult_canon, hs]
theorem execInstallSupervisor_canon (ctx : ℕ) (s : State) (hs : Memory.wf s.mem = true) :
    (∀ t1, (execInstallSupervisor ctx s) = .next t1 → Memory.wf t1.mem = true) := by
  unfold execInstallSupervisor
  (repeat' split) <;>
    grind (splits := 8) [serveSupervisor_canon, popReq_mem, Acc.canon, DetTest.canon, DetGate.canon, Gate.canon,
        Iss.canon, Out.canon, EngOut.canon, StepOut.canon, RunOut.canon, Res.canon, Body.canon]
theorem servePool_canon (s : State) (ctx : ℕ) (r : LoadReq) (hs : Memory.wf s.mem = true) :
    Memory.wf (servePool s ctx r).mem = true := by
  unfold servePool
  dsimp only
  split
  · exact writeResult_canon _ _ _ _ _ _ hs
  · split
    · exact writeResult_canon _ _ _ _ _ _ hs
    · refine writeResult_canon _ _ _ _ _ _ ?_
      rw [State.modCtx_mem]; exact hs
theorem execSetSavePool_canon (ctx : ℕ) (s : State) (hs : Memory.wf s.mem = true) :
    (∀ t1, (execSetSavePool ctx s) = .next t1 → Memory.wf t1.mem = true) := by
  unfold execSetSavePool
  (repeat' split) <;>
    grind (splits := 8) [servePool_canon, popReq_mem, Acc.canon, DetTest.canon, DetGate.canon, Gate.canon, Iss.canon,
        Out.canon, EngOut.canon, StepOut.canon, RunOut.canon, Res.canon, Body.canon]
theorem translationFailed_canon (s : State) (ctx : ℕ) (load : ℕ) (kix : ℕ) (L : LoadRec) (k : Kernel) (reason :
    ℕ) (detail : ℕ) (hs : Memory.wf s.mem = true) :
    Memory.wf (translationFailed s ctx load kix L k reason detail).mem = true := by
  unfold translationFailed
  dsimp only
  refine writeRecord_canon _ _ ?_
  rw [setKernel_mem]
  exact logPut_canon _ _ _ _ hs
theorem wantSwaps_mem (s : State) (ctx : ℕ) (load : ℕ) (sect : ℕ) : (wantSwaps s ctx load sect).mem = s.mem := by rfl
theorem translationEnds_canon (s : State) (ctx : ℕ) (load : ℕ) (kix : ℕ) (L : LoadRec) (k : Kernel) (res : QpfResult)
    (hs : Memory.wf s.mem = true) : Memory.wf (translationEnds s ctx load kix L k res).mem = true := by
  unfold translationEnds
  dsimp only
  split
  · split
    · exact translationFailed_canon _ _ _ _ _ _ _ _ hs
    · exact hs
  · split
    · exact hs
    · split
      · exact translationFailed_canon _ _ _ _ _ _ _ _ hs
      · split
        · exact translationFailed_canon _ _ _ _ _ _ _ _ hs
        · rename_i he
          have h := kettleWrite_canon _ _ _ _ hs _ he
          rw [wantSwaps_mem, setKernel_mem]
          exact logPut_canon _ _ _ _ (logPut_canon _ _ _ _ (dropCodeRange_canon _ _ _ _ h))
theorem execQpfTranslationComplete_canon (ctx : ℕ) (load : ℕ) (kix : ℕ) (res : QpfResult) (s : State) (hs :
    Memory.wf s.mem = true) : (∀ t1, (execQpfTranslationComplete ctx load kix res s) = .next t1 →
    Memory.wf t1.mem = true) := by
  unfold execQpfTranslationComplete
  (repeat' split) <;>
    grind (splits := 8) [translationEnds_canon, Acc.canon, DetTest.canon, DetGate.canon, Gate.canon, Iss.canon,
        Out.canon, EngOut.canon, StepOut.canon, RunOut.canon, Res.canon, Body.canon]
theorem abortScans_mem (s : State) : (abortScans s).mem = s.mem := by simp [abortScans, foldl_mem, scanAbortNow_mem]
theorem setLevel_canon (s : State) (level : ℕ) (hs : Memory.wf s.mem = true) :
    Memory.wf (setLevel s level).mem = true := by
  unfold setLevel
  (repeat' split) <;> simp +contextual [abortScans_mem, writeRecord_canon, hs]
theorem execSupplyDroop_canon (level : ℕ) (s : State) (hs : Memory.wf s.mem = true) :
    (∀ t1, (execSupplyDroop level s) = .next t1 → Memory.wf t1.mem = true) := by
  unfold execSupplyDroop
  (repeat' split) <;>
    grind (splits := 8) [setLevel_canon, Acc.canon, DetTest.canon, DetGate.canon, Gate.canon, Iss.canon, Out.canon,
        EngOut.canon, StepOut.canon, RunOut.canon, Res.canon, Body.canon]
theorem execSupplyLevelRecovery_canon (s : State) (hs : Memory.wf s.mem = true) :
    (∀ t1, (execSupplyLevelRecovery s) = .next t1 → Memory.wf t1.mem = true) := by
  unfold execSupplyLevelRecovery
  (repeat' split) <;>
    grind (splits := 8) [setLevel_canon, Acc.canon, DetTest.canon, DetGate.canon, Gate.canon, Iss.canon, Out.canon,
        EngOut.canon, StepOut.canon, RunOut.canon, Res.canon, Body.canon]
theorem finishStep_canon (s : State) (core : ℕ) (hs : Memory.wf s.mem = true) :
    Memory.wf (finishStep s core).mem = true := by
  unfold finishStep
  (repeat' split) <;> simp +contextual [runStep_canon, hs]
theorem flushWarps_mem (s : State) : (flushWarps s).mem = s.mem := by rfl
theorem execHoldEntry_canon (s : State) (hs : Memory.wf s.mem = true) :
    (∀ t1, (execHoldEntry s) = .next t1 → Memory.wf t1.mem = true) := by
  refine next_canon ?_
  split
  · exact hs
  · refine countEvent_canon _ _ _ (writeRecord_canon _ _ ?_)
    refine foldl_canon finishStep _ _ (fun s c h => finishStep_canon _ _ h) ?_
    rw [flushWarps_mem, abortScans_mem]; exact hs
theorem extendTimes_mem (s : State) (h : ℕ) : (extendTimes s h).mem = s.mem := by rfl
theorem execHoldExit_canon (cycles : ℕ) (s : State) (hs : Memory.wf s.mem = true) :
    (∀ t1, (execHoldExit cycles s) = .next t1 → Memory.wf t1.mem = true) := by
  unfold execHoldExit
  dsimp only
  (repeat' split) <;> (refine next_canon ?_) <;> first | exact hs | simp +contextual [foldl_mem, foldl_canon,
      extendTimes_mem, writeRecord_canon, hs]
theorem execLinkRetrain_canon (link : ℕ) (s : State) (hs : Memory.wf s.mem = true) :
    (∀ t1, (execLinkRetrain link s) = .next t1 → Memory.wf t1.mem = true) := by
  unfold execLinkRetrain
  dsimp only
  (repeat' split) <;> (refine next_canon ?_) <;> first | exact hs | simp +contextual [countEvent_canon,
      writeRecord_canon, hs]
theorem holdPackage_canon (s : State) (kind : ℕ) (inst : ℕ) (hs : Memory.wf s.mem = true) :
    Memory.wf (holdPackage s kind inst).mem = true := by
  simp +contextual [holdPackage, writeRecord_canon, hs]
theorem setLanes_canon (s : State) (n : ℕ) (lanes : ℕ) (hs : Memory.wf s.mem = true) :
    Memory.wf (setLanes s n lanes).mem = true := by
  unfold setLanes
  grind (splits := 6) [holdPackage_canon, Acc.canon, DetTest.canon, DetGate.canon, Gate.canon, Iss.canon, Out.canon,
      EngOut.canon, StepOut.canon, RunOut.canon, Res.canon, Body.canon]
theorem execLinkRetrainComplete_canon (link : ℕ) (lanes : ℕ) (s : State) (hs : Memory.wf s.mem = true) :
    (∀ t1, (execLinkRetrainComplete link lanes s) = .next t1 → Memory.wf t1.mem = true) := by
  unfold execLinkRetrainComplete
  (repeat' split) <;>
    grind (splits := 8) [setLanes_canon, Acc.canon, DetTest.canon, DetGate.canon, Gate.canon, Iss.canon, Out.canon,
        EngOut.canon, StepOut.canon, RunOut.canon, Res.canon, Body.canon]
theorem execSoftError_canon (e : SoftErr) (s : State) (hs : Memory.wf s.mem = true) :
    (∀ t1, (execSoftError e s) = .next t1 → Memory.wf t1.mem = true) := by
  refine next_canon ?_
  simp +contextual [softErr_canon, hs]
theorem execErrorEventCount_canon (kind : ℕ) (inst : ℕ) (s : State) (hs : Memory.wf s.mem = true) :
    (∀ t1, (execErrorEventCount kind inst s) = .next t1 → Memory.wf t1.mem = true) := by
  unfold execErrorEventCount
  (repeat' split) <;>
    grind (splits := 8) [countEvent_canon, Acc.canon, DetTest.canon, DetGate.canon, Gate.canon, Iss.canon, Out.canon,
        EngOut.canon, StepOut.canon, RunOut.canon, Res.canon, Body.canon]
theorem execErrorWindowClose_canon (kind : ℕ) (inst : ℕ) (s : State) (hs : Memory.wf s.mem = true) :
    (∀ t1, (execErrorWindowClose kind inst s) = .next t1 → Memory.wf t1.mem = true) := by
  unfold execErrorWindowClose
  (repeat' split) <;>
    grind (splits := 8) [Acc.canon, DetTest.canon, DetGate.canon, Gate.canon, Iss.canon, Out.canon, EngOut.canon,
        StepOut.canon, RunOut.canon, Res.canon, Body.canon]
theorem execCntWrite_canon (k : ℕ) (value : ℕ) (s : State) (hs : Memory.wf s.mem = true) :
    (∀ t1, (execCntWrite k value s) = .next t1 → Memory.wf t1.mem = true) := by
  unfold execCntWrite
  dsimp only
  (repeat' split) <;> (refine next_canon ?_) <;> first | exact hs | simp +contextual [foldl_mem, foldl_canon, hs]
theorem execStreqWrite_canon (value : ℕ) (s : State) (hs : Memory.wf s.mem = true) :
    (∀ t1, (execStreqWrite value s) = .next t1 → Memory.wf t1.mem = true) := by
  unfold execStreqWrite
  dsimp only
  (repeat' split) <;> (refine next_canon ?_) <;> first | exact hs | simp +contextual [foldl_mem, foldl_canon, hs]
theorem execMapCommit_canon (s : State) (hs : Memory.wf s.mem = true) :
    (∀ t1, (execMapCommit s) = .next t1 → Memory.wf t1.mem = true) := by
  unfold execMapCommit
  dsimp only
  (repeat' split) <;> (refine next_canon ?_) <;> first | exact hs | simp +contextual [foldl_canon, hs]
theorem execMapApply_canon (s : State) (hs : Memory.wf s.mem = true) :
    (∀ t1, (execMapApply s) = .next t1 → Memory.wf t1.mem = true) := by
  unfold execMapApply
  (repeat' split) <;>
    grind (splits := 8) [scanStart_canon, writeYields_mem, applyMap_mem, Acc.canon, DetTest.canon, DetGate.canon,
        Gate.canon, Iss.canon, Out.canon, EngOut.canon, StepOut.canon, RunOut.canon, Res.canon, Body.canon]
theorem execHubRegisterWrite_canon (off : ℕ) (data : List Byte) (s : State) (hs : Memory.wf s.mem = true) :
    (∀ t1, (execHubRegisterWrite off data s) = .next t1 → Memory.wf t1.mem = true) := by
  unfold execHubRegisterWrite
  (repeat' split) <;>
    grind (splits := 8) [Acc.canon, DetTest.canon, DetGate.canon, Gate.canon, Iss.canon, Out.canon, EngOut.canon,
        StepOut.canon, RunOut.canon, Res.canon, Body.canon]
theorem restorePlog_mem (s : State) : (restorePlog s).mem = s.mem := by rfl
theorem execDeviceReset_canon (s : State) (hs : Memory.wf s.mem = true) :
    (∀ t1, (execDeviceReset s) = .next t1 → Memory.wf t1.mem = true) := by
  unfold execDeviceReset
  dsimp only
  (repeat' split) <;> (refine next_canon ?_) <;> first | exact hs | simp +contextual [blank_canon, restorePlog_mem, hs]
theorem testVerdict_mem (s : State) (pass : Bool) (otherFail : Bool) :
    (testVerdict s pass otherFail).mem = s.mem := by rfl
theorem enterRunning_mem (s : State) : (enterRunning s).mem = s.mem := by rfl
theorem clearRequest_mem (s : State) : (clearRequest s).mem = s.mem := by rfl
theorem execSelfTestComplete_canon (failedCores : List ℕ) (otherFail : Bool) (s : State) (hs :
    Memory.wf s.mem = true) : (∀ t1, (execSelfTestComplete failedCores otherFail s) = .next t1 →
    Memory.wf t1.mem = true) := by
  unfold execSelfTestComplete
  refine next_canon ?_
  split
  · dsimp only
    have h : ∀ (bad : List ℕ) (p o full : Bool), Memory.wf (enterRunning (if full then
        writeRecord (clearRequest (testVerdict (bad.foldl retireCore s) p o)) (testRecord p o)
        else testVerdict (bad.foldl retireCore s) p o)).mem = true := by
      intro bad p o full
      have hb : Memory.wf (testVerdict (bad.foldl retireCore s) p o).mem = true := by
        rw [testVerdict_mem]; exact foldl_canon retireCore _ _ (fun s c h => retireCore_canon _ _ h) hs
      rw [enterRunning_mem]
      split
      · exact writeRecord_canon _ _ (by rw [clearRequest_mem]; exact hb)
      · exact hb
    have hst : ∀ t : State, Memory.wf t.mem = true → Memory.wf (if t.nv.ipSet then startAddress t else t).mem = true
  := by
      intro t ht
      split
      · rw [startAddress_mem]; exact ht
      · exact ht
    exact hst _ (h _ _ _ _)
  · exact hs
theorem execTamperAlarm_canon (s : State) (hs : Memory.wf s.mem = true) :
    (∀ t1, (execTamperAlarm s) = .next t1 → Memory.wf t1.mem = true) := by
  unfold execTamperAlarm
  (repeat' split) <;>
    grind (splits := 8) [alarm_canon, Acc.canon, DetTest.canon, DetGate.canon, Gate.canon, Iss.canon, Out.canon,
        EngOut.canon, StepOut.canon, RunOut.canon, Res.canon, Body.canon]
theorem execGlitchAlarm_canon (s : State) (hs : Memory.wf s.mem = true) :
    (∀ t1, (execGlitchAlarm s) = .next t1 → Memory.wf t1.mem = true) := by
  unfold execGlitchAlarm
  (repeat' split) <;>
    grind (splits := 8) [alarm_canon, Acc.canon, DetTest.canon, DetGate.canon, Gate.canon, Iss.canon, Out.canon,
        EngOut.canon, StepOut.canon, RunOut.canon, Res.canon, Body.canon]
theorem execWritePerformedAtL2_canon (core : ℕ) (line : ℕ) (s : State) (hs : Memory.wf s.mem = true) :
    (∀ t1, (execWritePerformedAtL2 core line s) = .next t1 → Memory.wf t1.mem = true) := by
  refine next_canon ?_
  simp +contextual [writeback_canon, hs]
theorem crcExhausted_canon (s : State) (wg : ℕ) (w : ℕ) (hs : Memory.wf s.mem = true) :
    Memory.wf (crcExhausted s wg w).mem = true := by
  unfold crcExhausted
  grind (splits := 6) [State.modWarp_mem, writeRecord_canon, Acc.canon, DetTest.canon, DetGate.canon, Gate.canon,
      Iss.canon, Out.canon, EngOut.canon, StepOut.canon, RunOut.canon, Res.canon, Body.canon]
theorem engineExhausted_canon (s : State) (e : ℕ) (hs : Memory.wf s.mem = true) :
    Memory.wf (engineExhausted s e).mem = true := by
  unfold engineExhausted
  have h1 : Memory.wf (s.modEng e (fun g => { g with crcFails := 0 })).mem = true := by rw [State.modEng_mem]; exact hs
  generalize (s.modEng e (fun g => { g with crcFails := 0 })) = s1 at h1 ⊢
  dsimp only
  repeat' first
    | with_reducible exact h1
    | with_reducible exact endRun_canon _ _ _ _ h1
    | with_reducible exact endColl_canon _ _ _ _ h1
    | split
  all_goals first
    | exact endRun_canon _ _ _ _ (endReverse_canon _ _ _ _ h1)
    | exact popHead_canon _ _ _ _ (transfer_canon _ _ _ h1)
theorem writebackExhausted_canon (s : State) (core : ℕ) (line : ℕ) (hs : Memory.wf s.mem = true) :
    Memory.wf (writebackExhausted s core line).mem = true := by
  unfold writebackExhausted
  dsimp only
  split
  · rw [State.modCore_mem]; exact hs
  · refine writeRecord_canon _ _ (foldl_canon _ _ _ (fun s e h => ?_) (by rw [State.modCore_mem]; exact hs))
    rw [poisonBlock_mem]; exact h
theorem execEndToEndCrcMismatch_canon (what : CrcTarget) (n : ℕ) (s : State) (hs : Memory.wf s.mem = true) :
    (∀ t1, (execEndToEndCrcMismatch what n s) = .next t1 → Memory.wf t1.mem = true) := by
  unfold execEndToEndCrcMismatch
  (repeat' split) <;>
    grind (splits := 8) [State.modWarp_mem, crcExhausted_canon, State.modEng_mem, engineExhausted_canon,
        State.modCore_mem, writebackExhausted_canon, Acc.canon, DetTest.canon, Put.canon, DetGate.canon, Gate.canon,
        Iss.canon, Out.canon, EngOut.canon, StepOut.canon, RunOut.canon, Res.canon, Body.canon]
theorem execShockSensorLatch_canon (s : State) (hs : Memory.wf s.mem = true) :
    (∀ t1, (execShockSensorLatch s) = .next t1 → Memory.wf t1.mem = true) := by
  refine next_canon ?_
  exact hs
theorem exec_canon (i : Instr) (s : State) (hs : Memory.wf s.mem = true) :
    (∀ t1, (exec i s) = .next t1 → Memory.wf t1.mem = true) :=
  match i with
  | .nop f => execNop_canon f s hs
  | .bra f => execBra_canon f s hs
  | .brx f => execBrx_canon f s hs
  | .call f => execCall_canon f s hs
  | .callx f => execCallx_canon f s hs
  | .ret f => execRet_canon f s hs
  | .exit f => execExit_canon f s hs
  | .yield f => execYield_canon f s hs
  | .sleep f => execSleep_canon f s hs
  | .partset f => execPartset_canon f s hs
  | .partget f => execPartget_canon f s hs
  | .rjopen f => execRjopen_canon f s hs
  | .rjopenMask f => execRjopenMask_canon f s hs
  | .rjjoin f => execRjjoin_canon f s hs
  | .rjquit f => execRjquit_canon f s hs
  | .rjwait f => execRjwait_canon f s hs
  | .rjtest f => execRjtest_canon f s hs
  | .rjmask f => execRjmask_canon f s hs
  | .rjclose f => execRjclose_canon f s hs
  | .orphanedSetTrap wg warp => execOrphanedSetTrap_canon wg warp s hs
  | .iadd f => execIadd_canon f s hs
  | .isum3 f => execIsum3_canon f s hs
  | .isub f => execIsub_canon f s hs
  | .ineg f => execIneg_canon f s hs
  | .iabs f => execIabs_canon f s hs
  | .imin f => execImin_canon f s hs
  | .imax f => execImax_canon f s hs
  | .isat f => execIsat_canon f s hs
  | .icmp f => execIcmp_canon f s hs
  | .sel f => execSel_canon f s hs
  | .lea f => execLea_canon f s hs
  | .imul f => execImul_canon f s hs
  | .imulh f => execImulh_canon f s hs
  | .imad f => execImad_canon f s hs
  | .imadw f => execImadw_canon f s hs
  | .idiv f => execIdiv_canon f s hs
  | .irem f => execIrem_canon f s hs
  | .and f => execAnd_canon f s hs
  | .or f => execOr_canon f s hs
  | .xor f => execXor_canon f s hs
  | .not f => execNot_canon f s hs
  | .blut f => execBlut_canon f s hs
  | .plut f => execPlut_canon f s hs
  | .pmovGet f => execPmovGet_canon f s hs
  | .pmovSet f => execPmovSet_canon f s hs
  | .mov f => execMov_canon f s hs
  | .movi f => execMovi_canon f s hs
  | .movk f => execMovk_canon f s hs
  | .shl f => execShl_canon f s hs
  | .shr f => execShr_canon f s hs
  | .sar f => execSar_canon f s hs
  | .fshl f => execFshl_canon f s hs
  | .fshr f => execFshr_canon f s hs
  | .bfe f => execBfe_canon f s hs
  | .bfi f => execBfi_canon f s hs
  | .brev f => execBrev_canon f s hs
  | .popc f => execPopc_canon f s hs
  | .clz f => execClz_canon f s hs
  | .ctz f => execCtz_canon f s hs
  | .sext f => execSext_canon f s hs
  | .zext f => execZext_canon f s hs
  | .fadd f => execFadd_canon f s hs
  | .fsub f => execFsub_canon f s hs
  | .fmul f => execFmul_canon f s hs
  | .ffma f => execFfma_canon f s hs
  | .fmin f => execFmin_canon f s hs
  | .fmax f => execFmax_canon f s hs
  | .fcmp f => execFcmp_canon f s hs
  | .fclass f => execFclass_canon f s hs
  | .frnd f => execFrnd_canon f s hs
  | .fscale f => execFscale_canon f s hs
  | .fdot f => execFdot_canon f s hs
  | .fcvt f => execFcvt_canon f s hs
  | .fcvts f => execFcvts_canon f s hs
  | .f2i f => execF2i_canon f s hs
  | .i2f f => execI2f_canon f s hs
  | .fpack f => execFpack_canon f s hs
  | .funpack f => execFunpack_canon f s hs
  | .rand f => execRand_canon f s hs
  | .frcp f => execFrcp_canon f s hs
  | .frsq f => execFrsq_canon f s hs
  | .fsqrt f => execFsqrt_canon f s hs
  | .fdiv f => execFdiv_canon f s hs
  | .fexp2 f => execFexp2_canon f s hs
  | .flog2 f => execFlog2_canon f s hs
  | .fsin f => execFsin_canon f s hs
  | .fcos f => execFcos_canon f s hs
  | .ftanh f => execFtanh_canon f s hs
  | .vote f => execVote_canon f s hs
  | .shfl f => execShfl_canon f s hs
  | .redux f => execRedux_canon f s hs
  | .scan f => execScan_canon f s hs
  | .matchL f => execMatchL_canon f s hs
  | .sdef f => execSdef_canon f s hs
  | .sseek f => execSseek_canon f s hs
  | .spos f => execSpos_canon f s hs
  | .sflag f => execSflag_canon f s hs
  | .chain f => execChain_canon f s hs
  | .ld f => execLd_canon f s hs
  | .st f => execSt_canon f s hs
  | .ldk f => execLdk_canon f s hs
  | .ldpk f => execLdpk_canon f s hs
  | .stpk f => execStpk_canon f s hs
  | .pref f => execPref_canon f s hs
  | .stpair f => execStpair_canon f s hs
  | .lds f => execLds_canon f s hs
  | .sts f => execSts_canon f s hs
  | .ldq f => execLdq_canon f s hs
  | .stq f => execStq_canon f s hs
  | .ldmc f => execLdmc_canon f s hs
  | .atom f => execAtom_canon f s hs
  | .atomf f => execAtomf_canon f s hs
  | .lr f => execLr_canon f s hs
  | .sc f => execSc_canon f s hs
  | .red f => execRed_canon f s hs
  | .redf f => execRedf_canon f s hs
  | .lrHoldExpiry granule => execLrHoldExpiry_canon granule s hs
  | .fence f => execFence_canon f s hs
  | .bind f => execBind_canon f s hs
  | .unbind f => execUnbind_canon f s hs
  | .acq f => execAcq_canon f s hs
  | .acqGe f => execAcqGe_canon f s hs
  | .acqGeWake wg warp => execAcqGeWake_canon wg warp s hs
  | .rel f => execRel_canon f s hs
  | .bar f => execBar_canon f s hs
  | .bara f => execBara_canon f s hs
  | .barw f => execBarw_canon f s hs
  | .rrmodeOff f => execRrmodeOff_canon f s hs
  | .rrmodeRec f => execRrmodeRec_canon f s hs
  | .rrmodePlay f => execRrmodePlay_canon f s hs
  | .ordgate f => execOrdgate_canon f s hs
  | .carve f => execCarve_canon f s hs
  | .cwb f => execCwb_canon f s hs
  | .cinv f => execCinv_canon f s hs
  | .cinvI f => execCinvI_canon f s hs
  | .mxacq f => execMxacq_canon f s hs
  | .mxrel f => execMxrel_canon f s hs
  | .engineRelease core => execEngineRelease_canon core s hs
  | .tdesc f => execTdesc_canon f s hs
  | .tmaskSet f => execTmaskSet_canon f s hs
  | .tmaskFirst f => execTmaskFirst_canon f s hs
  | .gdecl f => execGdecl_canon f s hs
  | .tamax f => execTamax_canon f s hs
  | .tscupd f => execTscupd_canon f s hs
  | .tmma f => execTmma_canon f s hs
  | .tmmab f => execTmmab_canon f s hs
  | .tact f => execTact_canon f s hs
  | .tew f => execTew_canon f s hs
  | .tred f => execTred_canon f s hs
  | .ttrans f => execTtrans_canon f s hs
  | .tscl f => execTscl_canon f s hs
  | .tcvt f => execTcvt_canon f s hs
  | .tzero f => execTzero_canon f s hs
  | .taccld f => execTaccld_canon f s hs
  | .taccst f => execTaccst_canon f s hs
  | .tdrain f => execTdrain_canon f s hs
  | .tcopy f => execTcopy_canon f s hs
  | .tcopyTile f => execTcopyTile_canon f s hs
  | .tgather f => execTgather_canon f s hs
  | .tscatter f => execTscatter_canon f s hs
  | .tcoll f => execTcoll_canon f s hs
  | .hwait f => execHwait_canon f s hs
  | .htest f => execHtest_canon f s hs
  | .hcancel f => execHcancel_canon f s hs
  | .hsleep f => execHsleep_canon f s hs
  | .hstat f => execHstat_canon f s hs
  | .recbegin f => execRecbegin_canon f s hs
  | .recend f => execRecend_canon f s hs
  | .recmark f => execRecmark_canon f s hs
  | .reverse f => execReverse_canon f s hs
  | .logq f => execLogq_canon f s hs
  | .trap f => execTrap_canon f s hs
  | .eret f => execEret_canon f s hs
  | .mfs f => execMfs_canon f s hs
  | .mtsWcr f => execMtsWcr_canon f s hs
  | .mtsXflagsClear f => execMtsXflagsClear_canon f s hs
  | .mtsFmt f => execMtsFmt_canon f s hs
  | .mtsAmr f => execMtsAmr_canon f s hs
  | .mtsSc f => execMtsSc_canon f s hs
  | .mtsMx f => execMtsMx_canon f s hs
  | .cycrd f => execCycrd_canon f s hs
  | .launch f => execLaunch_canon f s hs
  | .tlbi f => execTlbi_canon f s hs
  | .tlbiAcknowledge wg warp => execTlbiAcknowledge_canon wg warp s hs
  | .scango f => execScango_canon f s hs
  | .scanpoll f => execScanpoll_canon f s hs
  | .scanstop f => execScanstop_canon f s hs
  | .coreret f => execCoreret_canon f s hs
  | .halt f => execHalt_canon f s hs
  | .icacheFill core asid va => execIcacheFill_canon core asid va s hs
  | .variableLatencyCompletion wg warp idx => execVariableLatencyCompletion_canon wg warp idx s hs
  | .fairnessOverdue wg warp pc => execFairnessOverdue_canon wg warp pc s hs
  | .sleepWake wg warp wake => execSleepWake_canon wg warp wake s hs
  | .hsleepWake wg warp wake => execHsleepWake_canon wg warp wake s hs
  | .infuserCommandStart core => execInfuserCommandStart_canon core s hs
  | .nativeStepComplete core => execNativeStepComplete_canon core s hs
  | .engineCommandCompletion ctx => execEngineCommandCompletion_canon ctx s hs
  | .collectiveComplete group remote => execCollectiveComplete_canon group remote s hs
  | .reportedTrapDelivery wg warp => execReportedTrapDelivery_canon wg warp s hs
  | .atomicUnitOperation idx => execAtomicUnitOperation_canon idx s hs
  | .replayDivergence ctx entry => execReplayDivergence_canon ctx entry s hs
  | .pageWalkComplete asid va => execPageWalkComplete_canon asid va s hs
  | .remoteTimeout wg warp => execRemoteTimeout_canon wg warp s hs
  | .ualinkRemoteRequest req => execUalinkRemoteRequest_canon req s hs
  | .yieldRequest core => execYieldRequest_canon core s hs
  | .workgroupSave wg => execWorkgroupSave_canon wg s hs
  | .safePointOverdue wg => execSafePointOverdue_canon wg s hs
  | .safePointSecondBudget wg => execSafePointSecondBudget_canon wg s hs
  | .bindCreate core => execBindCreate_canon core s hs
  | .bindResume core => execBindResume_canon core s hs
  | .bindWithdrawCore core => execBindWithdrawCore_canon core s hs
  | .bindReturnCore core => execBindReturnCore_canon core s hs
  | .workgroupRetire wg => execWorkgroupRetire_canon wg s hs
  | .launchRecordTake ctx queue => execLaunchRecordTake_canon ctx queue s hs
  | .workgroupPlacement lslot => execWorkgroupPlacement_canon lslot s hs
  | .launchFinish lslot => execLaunchFinish_canon lslot s hs
  | .deterministicMerge wg => execDeterministicMerge_canon wg s hs
  | .bufferFullRelease wg => execBufferFullRelease_canon wg s hs
  | .coreRenumber core => execCoreRenumber_canon core s hs
  | .scanComplete core => execScanComplete_canon core s hs
  | .scanAbort core => execScanAbort_canon core s hs
  | .write fr => execWrite_canon fr s hs
  | .read fr => execRead_canon fr s hs
  | .release fr => execRelease_canon fr s hs
  | .launchFrame fr => execLaunchFrame_canon fr s hs
  | .mgmtRead fr => execMgmtRead_canon fr s hs
  | .mgmtWrite fr => execMgmtWrite_canon fr s hs
  | .mgmtWritePkgid fr => execMgmtWritePkgid_canon fr s hs
  | .mgmtWritePodid fr => execMgmtWritePodid_canon fr s hs
  | .mgmtWriteIpctl fr => execMgmtWriteIpctl_canon fr s hs
  | .mgmtWriteGroup fr => execMgmtWriteGroup_canon fr s hs
  | .ipaddrDadComplete dup => execIpaddrDadComplete_canon dup s hs
  | .mailboxAckTimer sess => execMailboxAckTimer_canon sess s hs
  | .neighbourDiscovery peer pk => execNeighbourDiscovery_canon peer pk s hs
  | .icmpv6Echo peer pk => execIcmpv6Echo_canon peer pk s hs
  | .hostLinkUp up => execHostLinkUp_canon up s hs
  | .hello fr => execHello_canon fr s hs
  | .prove fr => execProve_canon fr s hs
  | .proveTimeout idx => execProveTimeout_canon idx s hs
  | .claim fr => execClaim_canon fr s hs
  | .handover fr => execHandover_canon fr s hs
  | .close fr => execClose_canon fr s hs
  | .electionWindowClose => execElectionWindowClose_canon s hs
  | .ownershipLapse => execOwnershipLapse_canon s hs
  | .load ctx => execLoad_canon ctx s hs
  | .unload ctx => execUnload_canon ctx s hs
  | .installSupervisor ctx => execInstallSupervisor_canon ctx s hs
  | .setSavePool ctx => execSetSavePool_canon ctx s hs
  | .qpfTranslationComplete ctx load kix res => execQpfTranslationComplete_canon ctx load kix res s hs
  | .supplyDroop level => execSupplyDroop_canon level s hs
  | .supplyLevelRecovery => execSupplyLevelRecovery_canon s hs
  | .holdEntry => execHoldEntry_canon s hs
  | .holdExit cycles => execHoldExit_canon cycles s hs
  | .powerFail => execPowerFail_canon s hs
  | .linkRetrain link => execLinkRetrain_canon link s hs
  | .linkRetrainComplete link lanes => execLinkRetrainComplete_canon link lanes s hs
  | .softError e => execSoftError_canon e s hs
  | .errorEventCount kind inst => execErrorEventCount_canon kind inst s hs
  | .errorWindowClose kind inst => execErrorWindowClose_canon kind inst s hs
  | .cntWrite k value => execCntWrite_canon k value s hs
  | .streqWrite value => execStreqWrite_canon value s hs
  | .mapCommit => execMapCommit_canon s hs
  | .mapApply => execMapApply_canon s hs
  | .hubRegisterWrite off data => execHubRegisterWrite_canon off data s hs
  | .deviceReset => execDeviceReset_canon s hs
  | .selfTestComplete failedCores otherFail => execSelfTestComplete_canon failedCores otherFail s hs
  | .tamperAlarm => execTamperAlarm_canon s hs
  | .glitchAlarm => execGlitchAlarm_canon s hs
  | .malformedFrame fr => execMalformedFrame_canon fr s hs
  | .writePerformedAtL2 core line => execWritePerformedAtL2_canon core line s hs
  | .endToEndCrcMismatch what n => execEndToEndCrcMismatch_canon what n s hs
  | .shockSensorLatch => execShockSensorLatch_canon s hs
theorem served_mem (s : State) (r : Ready) : (served s r).mem = s.mem := by
  unfold served
  (repeat' split) <;> grind []
theorem forgetLine_mem (s : State) (core : ℕ) (asid : ℕ) (va : ℕ) (modeS : Bool) :
    (forgetLine s core asid va modeS).mem = s.mem := by rfl
theorem trapEntry_canon (s : State) (r : Ready) (t : Trap) (amask : LaneSet) (refetch : Bool) (hs :
    Memory.wf s.mem = true) : Memory.wf (trapEntry s r t amask refetch).mem = true := by
  unfold trapEntry
  grind (splits := 6) [State.modWarp_mem, takeTrap_canon, forgetLine_mem, Acc.canon, DetTest.canon, DetGate.canon,
      Gate.canon, Iss.canon, Out.canon, EngOut.canon, StepOut.canon, RunOut.canon, Res.canon, Body.canon]
theorem afterIssue_canon (r : Ready) (x1 : Host.Outcome State Fault Refusal) (hx1 : (∀ t1, x1 = .next t1 →
    Memory.wf t1.mem = true)) : (∀ t2, (afterIssue r x1) = .next t2 → Memory.wf t2.mem = true) := by
  unfold afterIssue
  (repeat' split) <;> simp +contextual [served_mem, hx1]
theorem cursorAt_mem (s : State) (r : Ready) (npc : ℕ) (base : ℕ) : (cursorAt s r npc base).mem = s.mem := by rfl
theorem passOver_mem (s : State) (r : Ready) : (passOver s r).mem = s.mem := by rfl
theorem chainFault_mem (s : State) (wg : ℕ) (w : ℕ) (ch : Chain) (t : Trap) :
    (chainFault s wg w ch t).mem = s.mem := by rfl
theorem chainElement_canon (s : State) (wg : ℕ) (w : ℕ) (hs : Memory.wf s.mem = true) :
    Memory.wf (chainElement s wg w).mem = true := by
  have hite : ∀ (p : Prop) [Decidable p] (a b : State), Memory.wf a.mem = true → Memory.wf b.mem = true →
      Memory.wf (if p then a else b).mem = true := by
    intro p _ a b ha hb
    split
    · exact ha
    · exact hb
  rw [chainElement.eq_def]
  generalize s.getWarp wg w = x
  extract_lets x1
  cases hx : x1.chain with
  | none => exact hs
  | some ch =>
    refine hite _ _ _ hs (hite _ _ _ (by rw [State.modWarp_mem]; exact hs) ?_)
    extract_lets maint ps width addr ins outs inParts outParts ti tw crossing
    have hm : Memory.wf tw.2.2.mem = true :=
      (congrArg Memory.wf ((translateParts_mem ..).trans (translateParts_mem ..))).trans hs
    clear_value tw ti crossing
    have hd := detRoom_canon tw.2.2 wg tw.1 hm
    split
    · rw [chainFault_mem]; exact hs
    · rw [chainFault_mem]; exact hs
    · refine hite _ _ _ hs ?_
      split <;> rename_i he
      · exact hd.1 _ he
      · refine hite _ _ _ (by rw [chainFault_mem]; exact hs) ?_
        have hr := hd.2 _ he
        extract_lets rd
        have hrd : Memory.wf rd.2.2.mem = true :=
          fold_inv (fun a : List (Nat × Nat) × Option Nat × State => Memory.wf a.2.2.mem = true) _ _ _
            (fun a g h => readParts_canon _ _ _ _ _ h) hr
        clear_value rd
        split
        · rw [chainFault_mem]; exact hs
        · rw [State.modWarp_mem]
          exact fold_inv (fun a : State × Nat => Memory.wf a.1.mem = true) _ _ _ (fun a g h =>
              fillPuts_canon _ _ _ _ _ _ _ _ h) hrd
theorem tick_canon (s : State) (hs : Memory.wf s.mem = true) : Memory.wf (tick s).mem = true := by
  simp +contextual [tick, foldl_canon, chainElement_canon, hs]
theorem idle_mem (s : State) : (idle s).mem = s.mem := by rfl

end Sys2Proof.Machine
end

