-- ==== Sys2Proof/Laws/Issue.lean ====
section
/-!
SUPPORT. What an issue does once its common checks have passed, by what the instruction's own part answers.
-/

namespace Sys2Proof.Machine

open Sys2Proof

theorem issuing_wg {s : State} {i : Instr} {c : Iss} (h : issuing s i = some c) : c.s = s ∧ c.s0 = s := by
  simp only [issuing] at h
  split at h
  · obtain ⟨e, -, rfl⟩ := Option.map_eq_some_iff.mp h
    exact ⟨rfl, rfl⟩
  · cases h

/-- Taking stream elements changes neither where nor what an entry issues. -/
theorem takeStreams_same (ns : List Nat) {c d : Iss} (h : takeStreams c ns = .ok d) :
    d.wg = c.wg ∧ d.w = c.w ∧ d.act = c.act ∧ d.f = c.f ∧ d.entry = c.entry ∧ d.cur = c.cur ∧ d.core = c.core ∧
    d.op = c.op ∧ d.fn = c.fn ∧ d.s0 = c.s0 := by
  induction ns generalizing c with
  | nil => cases h; simp
  | cons n ns ih =>
    simp only [takeStreams] at h
    split at h
    · have := ih h
      exact this
    · cases h

theorem observing_same (c1 : Iss) (i : Instr) :
    let d := c1.observing i
    d.wg = c1.wg ∧ d.w = c1.w ∧ d.act = c1.act ∧ d.f = c1.f ∧ d.entry = c1.entry ∧ d.cur = c1.cur ∧ d.core = c1.core ∧
    d.op = c1.op ∧ d.fn = c1.fn ∧ d.s0 = c1.s0 := by
  simp only [Iss.observing]
  split <;> simp

/-- The issue, its checks passed, stands where the entry stands. -/
theorem Issues.same {s : State} {i : Instr} {c0 c1 c : Iss} (h : Issues s i c0 c1 c) :
    c.wg = c0.wg ∧ c.w = c0.w ∧ c.act = c0.act ∧ c.f = c0.f ∧ c.s0 = c0.s0 := by
  obtain ⟨-, -, h1, -, -, rfl⟩ := h
  have a := takeStreams_same _ h1
  have b := observing_same c1 i
  simp only at b
  refine ⟨?_, ?_, ?_, ?_, ?_⟩
  · rw [b.1, a.1]
  · rw [b.2.1, a.2.1]
  · rw [b.2.2.1, a.2.2.1]
  · rw [b.2.2.2.1, a.2.2.2.1]
  · rw [b.2.2.2.2.2.2.2.2.2, a.2.2.2.2.2.2.2.2.2]

/-- The fields of the instruction are the issue's. -/
theorem Issues.fields {s : State} {i : Instr} {c0 c1 c : Iss} (h : Issues s i c0 c1 c) : i.fields = some c.f := by
  have hs := h.same
  obtain ⟨hi, -⟩ := h
  rw [hs.2.2.2.1]
  simp only [issuing] at hi
  split at hi
  · obtain ⟨e, -, rfl⟩ := Option.map_eq_some_iff.mp hi
    assumption
  · cases hi

theorem Issues.active {s : State} {i : Instr} {c0 c1 c : Iss} (h : Issues s i c0 c1 c) : c0.act ≠ [] := by
  have := h.2.1
  simp only [Iss.sound, Bool.and_eq_true, Bool.not_eq_true', List.isEmpty_eq_false_iff] at this
  exact this.1.1.1.2

theorem lowestFail_nil : lowestFail [] = none := rfl

/-- The gate lets the instruction through. -/
theorem gate_go {s : State} {i : Instr} {c0 c1 c : Iss} (h : Issues s i c0 c1 c) (b : Body)
    (hs : b.state c0 = []) (hv : b.vals c1 = []) : gate c0 i b = .go c := by
  obtain ⟨hi, h0, h1, hsp, hu, rfl⟩ := h
  simp only [Iss.sound, Bool.and_eq_true, Option.isNone_iff_eq_none, Bool.not_eq_true', List.isEmpty_iff,
    List.isEmpty_eq_false_iff] at h0
  obtain ⟨⟨⟨⟨he, ha⟩, hst⟩, hp⟩, hf⟩ := h0
  simp only [Iss.unblocked, Bool.and_eq_true, Option.isNone_iff_eq_none] at hu
  have hpend : (blockingHandles i).find? (fun r => c1.act.any (fun l =>
      handleState c1.s c1.ctx (c1.warp.getH l r).toNat = .pending)) = none := by
    rw [List.find?_eq_none]
    intro r hr hx
    rw [List.any_eq_true] at hx
    obtain ⟨l, hl, hx⟩ := hx
    have := List.all_eq_true.mp (List.all_eq_true.mp hu.1.2 r hr) l hl
    simp at this hx
    exact this hx
  simp only [gate, he, ha, if_false, hst, hp, hf, hs, hv, List.any_nil, h1, lowestFail_nil, List.append_nil, Option.orElse,
    Bool.false_eq_true, Option.map_none, hsp]
  have hu1 := hu.1.1
  simp only [Iss.handles] at hu1
  simp only [handleGate, hu1, hpend, Iss.observing]
  cases ho : c1.observes i with
  | false =>
    have ho' := ho
    simp only [Iss.observes, Iss.handles] at ho'
    simp only [ho', Bool.not_false, if_true, Bool.false_eq_true, if_false]
  | true =>
    have hw : writebackHeld c1.s c1.core (fun _ => true) = false := by simpa [ho] using hu.2
    have ho' := ho
    simp only [Iss.observes, Iss.handles] at ho'
    simp only [ho', Bool.not_true, Bool.false_eq_true, if_false, hw, if_true]

theorem issue_out {s : State} {i : Instr} {c0 c1 c : Iss} {b : Body} {o : Out} (h : Issues s i c0 c1 c)
    (hs : b.state c0 = []) (hv : b.vals c1 = []) (hr : b.run c = .out o) :
    issue i b s = issued c i b.flagged { o with draws := o.draws + b.draws c } := by
  have hsame := h.same
  have ha := h.active
  have hg := gate_go h b hs hv
  rw [← hsame.2.2.1] at ha
  simp only [issue, h.1, hg, ha, if_false, hr, issued, hsame.1, hsame.2.1]
  rfl

theorem issue_outThen {s : State} {i : Instr} {c0 c1 c : Iss} {b : Body} {o : Out} {post : State → State}
    (h : Issues s i c0 c1 c) (hs : b.state c0 = []) (hv : b.vals c1 = []) (hr : b.run c = .outThen o post)
    (hb : b.flagged = false) :
    issue i b s = issuedThen c i { o with draws := o.draws + b.draws c } post := by
  have hsame := h.same
  have ha := h.active
  have hg := gate_go h b hs hv
  rw [← hsame.2.2.1] at ha
  simp only [issue, h.1, hg, ha, if_false, hr, issuedThen, hsame.1, hsame.2.1]
  congr 2
  simp only [commit, hb]

/-- A trap that the instruction's own part asks for. -/
theorem issue_trap {s : State} {i : Instr} {c0 c1 c : Iss} {b : Body} {t : Trap} {next : Bool}
    (h : Issues s i c0 c1 c) (hs : b.state c0 = []) (hv : b.vals c1 = []) (hr : b.run c = .trap t next) :
    issue i b s = settleDeadlock (trapNow c t next) c.wg c.w := by
  have hsame := h.same
  have ha := h.active
  have hg := gate_go h b hs hv
  rw [← hsame.2.2.1] at ha
  simp only [issue, h.1, hg, ha, if_false, hr, hsame.1, hsame.2.1]

theorem issue_other {s t : State} {i : Instr} {c0 c1 c : Iss} {b : Body}
    (h : Issues s i c0 c1 c) (hs : b.state c0 = []) (hv : b.vals c1 = []) (hr : b.run c = .other t) :
    issue i b s = settleDeadlock t c.wg c.w := by
  have hsame := h.same
  have ha := h.active
  have hg := gate_go h b hs hv
  rw [← hsame.2.2.1] at ha
  simp only [issue, h.1, hg, ha, if_false, hr, hsame.1, hsame.2.1]

/-- An append that finds no place does not issue. -/
theorem reserveAppend_stops {c : Iss} {s : State} {n : Nat} {ls : List Nat} {r : Res} (h : reserveAppend c s n ls = .error r)
    (o : Out) : r ≠ .out o := by
  simp only [reserveAppend] at h
  split at h
  · cases h
  · cases h
    simp only [Acc.stop]
    split <;> simp

/-- What an append adds to an issue: the state, and the stores that wait; it depends on the state alone. -/
theorem appendStream_out {c : Iss} {o o' : Out} {n : Nat} {vals : List (Nat × Option Nat)} (h : appendStream c o n vals = .out o') :
    ∃ t k, o' = { o with s := t, awaits := o.awaits + k } ∧
      ∀ p : Out, p.s = o.s → appendStream c p n vals = .out { p with s := t, awaits := p.awaits + k } := by
  simp only [appendStream] at h
  split at h
  · next he => exact absurd h (reserveAppend_stops he _)
  · next he =>
    split at h
    · cases h
    · next hg =>
      cases h
      exact ⟨_, _, rfl, fun p hp => by simp only [appendStream, hp, he, hg]⟩

/-- An instruction that lays results down in D. -/
theorem issue_lands {s : State} {i : Instr} {c0 c1 c : Iss} {b : Body} {o : Out} {wide : Bool} {vals : List (Nat × Nat)}
    (h : Issues s i c0 c1 c) (hs : b.state c0 = []) (hv : b.vals c1 = []) (hr : b.run c = putD c o wide vals)
    (he : exec i s = .next (issue i b s)) :
    Lands s c i b.flagged { o with draws := o.draws + b.draws c } wide vals := by
  constructor
  · intro hd
    rw [he, issue_out h hs hv (o := { o with writes := o.writes ++ destWrites c.warp c.f.d.toNat wide vals })
      (by rw [hr]; simp [putD, hd])]
  · intro hd t ht
    obtain ⟨s', k, rfl, hp⟩ := appendStream_out ht
    rw [he, issue_out h hs hv (o := { o with s := s', awaits := o.awaits + k })
      (by rw [hr]; simp only [putD, hd, if_true]; exact hp o rfl)]

/-- An instruction whose own part answers `o`: it completes. -/
theorem issue_next {s : State} {i : Instr} {c0 c1 c : Iss} {b : Body} {o : Out} {fl : Bool} (h : Issues s i c0 c1 c)
    (he : exec i s = .next (issue i b s)) (hs : b.state c0 = []) (hv : b.vals c1 = []) (hd : b.draws c = 0)
    (hf : b.flagged = fl) (hr : b.run c = .out o) : exec i s = .next (issued c i fl o) := by
  subst hf
  rw [he, issue_out h hs hv hr, hd]
  rfl

/-- The same where something is done when its lanes have moved. -/
theorem issue_nextThen {s : State} {i : Instr} {c0 c1 c : Iss} {b : Body} {o : Out} {post : State → State}
    (h : Issues s i c0 c1 c) (he : exec i s = .next (issue i b s)) (hs : b.state c0 = []) (hv : b.vals c1 = [])
    (hd : b.draws c = 0) (hf : b.flagged = false) (hr : b.run c = .outThen o post) :
    exec i s = .next (issuedThen c i o post) := by
  rw [he, issue_outThen h hs hv hr hf, hd]
  rfl

/-- An instruction that only lays down one value for each active lane. -/
theorem issue_lane {s : State} {i : Instr} {c0 c1 c : Iss} {b : Body} {wide : Bool} {vals : List (Nat × Nat)}
    (h : Issues s i c0 c1 c) (he : exec i s = .next (issue i b s)) (hs : b.state c0 = []) (hv : b.vals c1 = [])
    (hd : b.draws c = 0) (hfl : b.flagged = false) (hr : b.run c = putD c { s := c.s } wide vals) :
    Lands s c i false { s := c.s } wide vals := by
  have := issue_lands h hs hv hr he
  simpa [hd, hfl] using this

/-- An element-wise instruction. -/
theorem issue_slot {s : State} {i : Instr} {c0 c1 c : Iss} {checks : Iss → List Fail} {regs : Nat} {keeps : Iss → Bool}
    {g : Iss → Nat → Nat × Nat} {rs : List (Nat × Nat × Nat)} (h : Issues s i c0 c1 c)
    (he : exec i s = .next (issue i (slotBody checks regs keeps g) s)) (hs : checks c0 = [])
    (hk : keeps c = true → keptPoison c = none) (hr : rs = c.act.map (fun l => (l, g c l))) :
    Lands s c i true (flaggedOut c.s (slotDraws regs c) rs) (regs = 2) (rs.map (fun r => (r.1, r.2.1))) := by
  have hk' : (if keeps c then keptPoison c else none) = none := by split <;> simp_all
  have := issue_lands (b := slotBody checks regs keeps g) (o := flaggedOut c.s 0 rs) (wide := regs = 2)
    (vals := rs.map (fun r => (r.1, r.2.1))) h hs rfl (by
      subst hr
      simp only [slotBody, hk']; rfl) he
  simpa [slotBody, flaggedOut] using this

/-- An element-wise instruction of variable latency. -/
theorem issue_slot_latency {s : State} {i : Instr} {c0 c1 c : Iss} {checks : Iss → List Fail} {regs least span : Nat}
    {keeps : Iss → Bool} {g : Iss → Nat → Nat × Nat} {rs : List (Nat × Nat × Nat)} (h : Issues s i c0 c1 c)
    (he : exec i s = .next (issue i (Body.latency (slotBody checks regs keeps g) least span) s)) (hs : checks c0 = [])
    (hk : keeps c = true → keptPoison c = none) (hr : rs = c.act.map (fun l => (l, g c l))) :
    Lands s c i true { flaggedOut c.s (slotDraws regs c) rs with least := least, span := some span } (regs = 2)
      (rs.map (fun r => (r.1, r.2.1))) := by
  have hk' : (if keeps c then keptPoison c else none) = none := by split <;> simp_all
  constructor
  · intro hd
    rw [he, issue_out h (b := Body.latency (slotBody checks regs keeps g) least span) hs rfl
      (o := { flaggedOut c.s 0 rs with
        least := least, span := some span
        writes := [] ++ destWrites c.warp c.f.d.toNat (regs = 2) (rs.map (fun r => (r.1, r.2.1))) })]
    · simp [slotBody, Body.latency, flaggedOut]
    · subst hr
      simp only [Body.latency, slotBody, hk', putFlagged, putD, hd]; rfl
  · intro hd t ht
    obtain ⟨s', k, rfl, hp⟩ := appendStream_out ht
    rw [he, issue_out h (b := Body.latency (slotBody checks regs keeps g) least span) hs rfl
      (o := { flaggedOut c.s 0 rs with least := least, span := some span, s := s', awaits := 0 + k })]
    · simp [slotBody, Body.latency, flaggedOut]
    · have := hp (flaggedOut c.s 0 rs) rfl
      subst hr
      simp only [List.map_map, flaggedOut] at this
      simp only [Body.latency, slotBody, hk', putFlagged, putD, hd, if_true, List.map_map, this, flaggedOut]

end Sys2Proof.Machine
end

