-- ==== Sys2Proof/Tests/Slice0.lean ====
section
/-!
SUPPORT. The model's own tests: words written out from the spec's encoding, ill-formed terms refused, single steps with
results worked by hand from the spec, and for the statements' hypotheses states that meet them.
-/

open Sys2Proof Sys2Proof.Machine

namespace Sys2Proof.Tests

set_option maxRecDepth 100000
set_option Elab.async false

/-! ### Decoding (R186, R200) -/

/-- A canonical word written out field by field as R186 places them: OP, FN, STALL 5, GP 3, GN 1, D 0x21, A 0x43, B 0x65,
FS 6, SP 1, ST 2, WM 0x29, C 0x87, Y 1 and the IMM given. -/
def wordAt (op fn imm : Nat) : CWord :=
  BitVec.ofNat 96 (op + fn * 2 ^ 8 + 5 * 2 ^ 12 + 3 * 2 ^ 16 + 1 * 2 ^ 19 + 0x21 * 2 ^ 20 + 0x43 * 2 ^ 28 + 0x65 * 2 ^ 36 +
    6 * 2 ^ 44 + 1 * 2 ^ 47 + 2 * 2 ^ 48 + 0x29 * 2 ^ 51 + 0x87 * 2 ^ 57 + 1 * 2 ^ 65 + imm * 2 ^ 66)

/-- The fields of `wordAt`. -/
def fieldsAt (imm : Nat) : Fields :=
  { stall := 5, gp := 3, gn := true, d := 0x21, a := 0x43, b := 0x65, fs := 6, sp := true, st := 2, wm := 0x29, c := 0x87, y := true
    imm := BitVec.ofNat 28 imm }

/-- Each row's word of an OP, with what distinguishes it in IMM, decodes to its instruction, and the 12-byte form of the
instruction is that word's. -/
def reads (op : Nat) (rows : List (Nat × Nat × (Fields → Instr))) : Bool :=
  rows.all (fun r =>
    (match decodeWord (wordAt op r.1 r.2.1) with
     | .ok i => i = r.2.2 (fieldsAt r.2.1)
     | .error _ => false) &&
    encode (r.2.2 (fieldsAt r.2.1)) = some (toLE 12 (4 * (wordAt op r.1 r.2.1).toNat + 3)))

theorem test_decode_op00 : reads 0x00
    [(0, 0x0, .nop), (1, 0x0, .bra), (2, 0x0, .brx), (3, 0x0, .call), (4, 0x0, .callx), (5, 0x0, .ret),
     (6, 0x0, .exit), (7, 0x0, .yield), (8, 0x0, .sleep), (9, 0x0, .partset), (10, 0x0, .partget)] = true := by decide +kernel

theorem test_decode_op01 : reads 0x01
    [(0, 0x0, .rjopen), (0, 0x1000000, .rjopenMask), (1, 0x0, .rjjoin), (2, 0x0, .rjquit), (3, 0x0, .rjwait),
     (4, 0x0, .rjtest), (5, 0x0, .rjmask), (6, 0x0, .rjclose)] = true := by decide +kernel

theorem test_decode_op02 : reads 0x02
    [(0, 0x0, .iadd), (1, 0x0, .isum3), (2, 0x0, .isub), (3, 0x0, .ineg), (4, 0x0, .iabs), (5, 0x0, .imin),
     (6, 0x0, .imax), (7, 0x0, .isat), (8, 0x0, .icmp), (9, 0x0, .sel), (10, 0x0, .lea)] = true := by decide +kernel

theorem test_decode_op03 : reads 0x03
    [(0, 0x0, .imul), (1, 0x0, .imulh), (2, 0x0, .imad), (3, 0x0, .imadw), (4, 0x0, .idiv), (5, 0x0, .irem)] = true := by decide +kernel

theorem test_decode_op04 : reads 0x04
    [(0, 0x0, .and), (1, 0x0, .or), (2, 0x0, .xor), (3, 0x0, .not), (4, 0x0, .blut), (5, 0x0, .plut),
     (6, 0x0, .pmovGet), (6, 0x100000, .pmovSet), (7, 0x0, .mov), (8, 0x0, .movi), (9, 0x0, .movk)] = true := by decide +kernel

theorem test_decode_op05 : reads 0x05
    [(0, 0x0, .shl), (1, 0x0, .shr), (2, 0x0, .sar), (3, 0x0, .fshl), (4, 0x0, .fshr), (5, 0x0, .bfe),
     (6, 0x0, .bfi), (7, 0x0, .brev), (8, 0x0, .popc), (9, 0x0, .clz), (10, 0x0, .ctz), (11, 0x0, .sext),
     (12, 0x0, .zext)] = true := by decide +kernel

theorem test_decode_op10 : reads 0x10
    [(0, 0x0, .fadd), (1, 0x0, .fsub), (2, 0x0, .fmul), (3, 0x0, .ffma), (4, 0x0, .fmin), (5, 0x0, .fmax),
     (6, 0x0, .fcmp), (7, 0x0, .fclass), (8, 0x0, .frnd), (9, 0x0, .fscale), (10, 0x0, .fdot)] = true := by decide +kernel

theorem test_decode_op11 : reads 0x11
    [(0, 0x0, .fcvt), (1, 0x0, .fcvts), (2, 0x0, .f2i), (3, 0x0, .i2f), (4, 0x0, .fpack), (5, 0x0, .funpack),
     (6, 0x0, .rand)] = true := by decide +kernel

theorem test_decode_op12 : reads 0x12
    [(0, 0x0, .frcp), (1, 0x0, .frsq), (2, 0x0, .fsqrt), (3, 0x0, .fdiv), (4, 0x0, .fexp2), (5, 0x0, .flog2),
     (6, 0x0, .fsin), (7, 0x0, .fcos), (8, 0x0, .ftanh)] = true := by decide +kernel

theorem test_decode_op13 : reads 0x13
    [(0, 0x0, .vote), (1, 0x0, .shfl), (2, 0x0, .redux), (3, 0x0, .scan), (4, 0x0, .matchL)] = true := by decide +kernel

theorem test_decode_op14 : reads 0x14
    [(0, 0x0, .sdef), (1, 0x0, .sseek), (2, 0x0, .spos), (3, 0x0, .sflag), (4, 0x0, .chain)] = true := by decide +kernel

theorem test_decode_op20 : reads 0x20
    [(0, 0x0, .ld), (1, 0x0, .st), (2, 0x0, .ldk), (3, 0x0, .ldpk), (4, 0x0, .stpk), (5, 0x0, .pref),
     (6, 0x0, .stpair)] = true := by decide +kernel

theorem test_decode_op21 : reads 0x21
    [(0, 0x0, .lds), (1, 0x0, .sts), (2, 0x0, .ldq), (3, 0x0, .stq), (4, 0x0, .ldmc)] = true := by decide +kernel

theorem test_decode_op22 : reads 0x22
    [(0, 0x0, .atom), (1, 0x0, .atomf), (2, 0x0, .lr), (3, 0x0, .sc), (4, 0x0, .red), (5, 0x0, .redf)] = true := by decide +kernel

theorem test_decode_op23 : reads 0x23
    [(0, 0x0, .fence), (1, 0x0, .bind), (2, 0x0, .unbind), (3, 0x0, .acq), (3, 0x1000000, .acqGe), (4, 0x0, .rel),
     (5, 0x0, .bar), (6, 0x0, .bara), (7, 0x0, .barw), (8, 0x0, .rrmodeOff), (8, 0x40000, .rrmodeRec),
     (8, 0x80000, .rrmodePlay), (9, 0x0, .ordgate)] = true := by decide +kernel

theorem test_decode_op24 : reads 0x24
    [(0, 0x0, .carve), (1, 0x0, .cwb), (2, 0x0, .cinv), (2, 0x4000000, .cinvI)] = true := by decide +kernel

theorem test_decode_op30 : reads 0x30
    [(0, 0x0, .mxacq), (1, 0x0, .mxrel), (2, 0x0, .tdesc), (3, 0x0, .tmaskSet), (3, 0x2000000, .tmaskFirst),
     (4, 0x0, .gdecl), (5, 0x0, .tamax), (6, 0x0, .tscupd)] = true := by decide +kernel

theorem test_decode_op31 : reads 0x31
    [(0, 0x0, .tmma), (1, 0x0, .tmmab), (2, 0x0, .tact), (3, 0x0, .tew), (4, 0x0, .tred), (5, 0x0, .ttrans),
     (6, 0x0, .tscl), (7, 0x0, .tcvt), (8, 0x0, .tzero), (9, 0x0, .taccld), (10, 0x0, .taccst), (11, 0x0, .tdrain)] = true := by decide +kernel

theorem test_decode_op32 : reads 0x32
    [(0, 0x0, .tcopy), (0, 0x8000000, .tcopyTile), (1, 0x0, .tgather), (2, 0x0, .tscatter), (3, 0x0, .tcoll)] = true := by decide +kernel

theorem test_decode_op33 : reads 0x33
    [(0, 0x0, .hwait), (1, 0x0, .htest), (2, 0x0, .hcancel), (3, 0x0, .hsleep), (4, 0x0, .hstat)] = true := by decide +kernel

theorem test_decode_op38 : reads 0x38
    [(0, 0x0, .recbegin), (1, 0x0, .recend), (2, 0x0, .recmark), (3, 0x0, .reverse), (4, 0x0, .logq)] = true := by decide +kernel

theorem test_decode_op3C : reads 0x3C
    [(0, 0x0, .trap), (1, 0x0, .eret), (2, 0x0, .mfs), (3, 0x0, .mtsWcr), (3, 0x1, .mtsXflagsClear),
     (3, 0x8, .mtsFmt), (3, 0xF, .mtsFmt), (3, 0x10, .mtsAmr), (3, 0x100, .mtsSc), (3, 0x1FF, .mtsSc),
     (3, 0x200, .mtsMx), (3, 0x207, .mtsMx), (4, 0x0, .cycrd), (5, 0x0, .launch), (6, 0x0, .tlbi)] = true := by decide +kernel

theorem test_decode_op3D : reads 0x3D
    [(0, 0x0, .scango), (1, 0x0, .scanpoll), (2, 0x0, .scanstop), (3, 0x0, .coreret), (4, 0x0, .halt)] = true := by decide +kernel
/-- Every blank cell of the grid of R200, and an OP outside it, is reserved. -/
theorem test_reserved_cells :
    [(0x00, 11), (0x01, 7), (0x02, 11), (0x03, 6), (0x04, 10), (0x05, 13), (0x10, 11), (0x11, 7), (0x12, 9), (0x13, 5), (0x14, 5),
     (0x20, 7), (0x21, 5), (0x22, 6), (0x23, 10), (0x24, 3), (0x30, 7), (0x31, 12), (0x32, 4), (0x33, 5), (0x38, 5), (0x3C, 7),
     (0x3D, 5)].all (fun e => (List.range (16 - e.2)).all (fun k =>
        decodeWord (wordAt e.1 (e.2 + k) 0) = .error (.reservedOpFn e.1 (e.2 + k)))) = true ∧
    [0x06, 0x0F, 0x15, 0x25, 0x34, 0x37, 0x39, 0x3B, 0x3E, 0x3F, 0xFF].all (fun op =>
        decodeWord (wordAt op 0 0) = .error (.reservedOpFn op 0)) = true := by decide +kernel

/-- A bundle whose control word gives NI = 2, LSI = 3, with a 6-byte and an 8-byte form: the forms stand at 4 and 10, the second
is followed by the next bundle (R192, R193). -/
theorem test_bundle :
    let b : List Byte := fitBytes 64 ([0x02, 0x03, 0, 0, 0x09, 0xC0, 0xC0, 0x40, 0x80, 0] ++
      [0x42, 0x4C, 0x01, 0x41, 0x81, 0x41, 0x2A, 0x38])
    bundleForms b = some [4, 10] ∧ bundleLSI (ofLE (b.take 4)) = 3 ∧ nextInBundle b 0x400 4 = 0x40A ∧
    nextInBundle b 0x400 10 = 0x444 ∧ bundleForms (fitBytes 64 []) = none := by decide +kernel

/-! ### Ill-formed terms (R443, R444, R452) -/

abbrev z : Fields := Claim.zeroFields

/-- One ill-formed term for each check, refused with the reason and field that R443 and R444 give, beside well-formed ones. -/
theorem test_ill_formed :
    encodingFailure (.nop { z with d := 1 }) = some (5, .d) ∧ encodingFailure (.nop { z with fs := 1 }) = some (5, .fs) ∧
    encodingFailure (.nop { z with imm := 1 }) = some (5, .imm) ∧
    encodingFailure (.shl { z with d := 1, imm := 0x2000000 }) = some (5, .imm) ∧
    encodingFailure (.brx { z with a := 255 }) = some (6, .a) ∧
    encodingFailure (.iadd { z with d := 128 }) = some (7, .d) ∧
    encodingFailure (.iadd { z with d := 1, imm := 0x8000000 }) = some (8, .d) ∧
    encodingFailure (.sel { z with d := 1, c := 5 }) = some (8, .c) ∧
    encodingFailure (.iadd { z with d := 1, a := 176 }) = some (9, .a) ∧
    encodingFailure (.icmp { z with d := 0x70, imm := 0x600000 }) = some (10, .imm) ∧
    encodingFailure (.ld { z with d := 4, a := 2, imm := 0xA000000 }) = some (10, .imm) ∧
    encodingFailure (.mtsWcr { z with a := 2, imm := 5 }) = some (10, .imm) ∧
    encodingFailure (.iadd { z with st := 7 }) = some (2, .st) ∧
    WellFormed (.nop z) ∧ WellFormed (.iadd { z with d := 3, a := 1, b := 2 }) ∧
    WellFormed (.iadd { z with d := 2, a := 255, b := 4, imm := 0x80FFFFF }) ∧ WellFormed .deviceReset := by decide +kernel

/-! ### Single steps and operations, with results worked in the spec -/

/-- The default format table of R104. -/
def formats : Sparse Word :=
  [(0, 0x0141FEF1), (1, 0x01403D4B), (2, 0x0141FCF1), (3, 0x02001C69), (4, 0x01403C4B), (5, 0x3E1), (6, 0x1E1), (7, 0xE1)]

/-- A page of 1 GiB that maps virtual 0 to physical 0, with every right. -/
def pageAt0 : TlbEntry := { asid := 1, va := 0, size := 30, pa := 0, mt := 0, priv := false, x := true, wr := true, rd := true }

/-- Page tables that map the lowest 2 GiB of virtual addresses to the same physical ones, with every right (R146, R147). -/
def tables : List Host.Cell :=
  [(0x100000, 1), (0x100002, 0x11), (0x110000, 1), (0x110002, 0x12), (0x120000, 1), (0x120002, 0x13), (0x130000, 0x1F)]

/-- One warp of 32 threads, placed by `placeWord`, with the stored form given, default formats, 4 KiB of scratchpad, the page
above in its TLB, and its warp changed by `g`. -/
def placed (form : List Byte) (g : Warp → Warp) : State :=
  let s := placeWord State.reset form
  { s with
    mem := tables
    ctxs := [(1, { Ctx.init with exists_ := true, asid := 1, pt6 := 0x100000 })]
    launches := [(0, { placedLaunch with lr := { placedRecord with scratch := 4096 } })]
    wgs := [(0, { Wg.init with nwarps := 1, fmt := formats })]
    warps := s.warps.map (fun e => (e.1, g e.2))
    cores := s.cores.map (fun e => (e.1, { e.2 with tlb := [pageAt0] })) }

/-- The same, at the point where the entry's instruction is carried out. -/
def issuingAt (g : Warp → Warp) : State :=
  { placed [] g with cur := some { wg := 0, warp := 0, pc := BitVec.ofNat 80 (placedBase + 4),
                                   npc := BitVec.ofNat 80 (placedBase + 8), base := BitVec.ofNat 80 placedBase } }

/-- Every lane's window register takes the values listed: (register, value). -/
def withV (rs : List (Nat × Nat)) (x : Warp) : Warp :=
  { x with v := rs.flatMap (fun r => (List.range 32).map (fun l => (vKey r.1 l, BitVec.ofNat 32 r.2))) }

/-- The warp after the instruction is carried out. -/
def warpAfter (i : Instr) (s : State) : Option Warp :=
  match exec i s with
  | .next t => some (t.getWarp 0 0)
  | _ => none

/-- The warp after one step. -/
def warpStepped (s : State) : Option Warp :=
  match step s with
  | .next t => some (t.getWarp 0 0)
  | _ => none

/-- What the last operation under way writes to a lane's window register (frame pointer 0). -/
def writesV (x : Option Warp) (lane pos : Nat) : Option Nat :=
  x.bind (fun w => (w.pend.getLast?).bind (fun b => b.writes.findSome? (fun r =>
    match r with
    | .v l p (some v) => if l = lane ∧ p = pos then some v.toNat else none
    | _ => none)))

/-- What it writes to a lane's predicate. -/
def writesP (x : Option Warp) (lane n : Nat) : Option Bool :=
  x.bind (fun w => (w.pend.getLast?).bind (fun b => b.writes.findSome? (fun r =>
    match r with
    | .p l k v => if l = lane ∧ k = n then some v else none
    | _ => none)))

/-- The flags it ORs in. -/
def raises (x : Option Warp) : Option Nat := x.bind (fun w => (w.pend.getLast?).map (fun b => b.flags.toNat))

/-- The worked case of R221: FSHR, BFE.u, BFE, CLZ, POPC and BREV. -/
theorem test_bit_fields :
    let s := issuingAt (withV [(10, 0xB3C5A17E), (11, 0xD2), (12, 0x1A56)])
    writesV (warpAfter (.fshr { z with d := 12, a := 10, b := 11, c := 219 }) s) 0 12 = some 0x1A56 ∧
    writesV (warpAfter (.bfe { z with d := 13, a := 12, b := 255, imm := 0x4000C00 }) s) 0 13 = some 0xA56 ∧
    writesV (warpAfter (.bfe { z with d := 14, a := 12, b := 255, imm := 0xC00 }) s) 31 14 = some 0xFFFFFA56 ∧
    writesV (warpAfter (.clz { z with d := 15, a := 12 }) s) 0 15 = some 19 ∧
    writesV (warpAfter (.popc { z with d := 16, a := 12 }) s) 0 16 = some 7 ∧
    writesV (warpAfter (.brev { z with d := 17, a := 12 }) s) 0 17 = some 0x6A580000 := by decide +kernel

/-- The worked cases of R190 and R198: one step of the stored IADD with v1 = 5 and v2 = 6 leaves 11 for v3 under way, due 4
cycles on, and the entry at the next form with STALL + 1 = 4 cycles less the one that has passed. -/
theorem test_step_iadd :
    let t := warpStepped (placed [0x09, 0xC0, 0xC0, 0x40, 0x80, 0] (withV [(1, 5), (2, 6)]))
    writesV t 7 3 = some 11 ∧ t.map (fun x => x.table.map (fun e => (e.pc.toNat, e.stall))) = some [(placedBase + 68, 4)] ∧
    t.map (fun x => x.pend.map (fun b => (b.due - b.issued, b.token))) = some [(4, 0)] := by decide +kernel

/-- Sums wrap, or clamp under SAT; ICMP.lt of the worked case of R221 with 99 and 100; IDIV of −2^31 by −1 and of 7 by 0. -/
theorem test_integer_edges :
    let s := issuingAt (withV [(1, 0xFFFFFFFF), (2, 0x7FFFFFFF), (3, 0x80000000), (4, 99), (6, 7)])
    writesV (warpAfter (.iadd { z with d := 5, a := 1, b := 193 }) s) 0 5 = some 0 ∧
    writesV (warpAfter (.iadd { z with d := 5, a := 2, b := 193, imm := 0x2000000 }) s) 0 5 = some 0x7FFFFFFF ∧
    writesP (warpAfter (.icmp { z with d := 0x71, a := 4, b := 255, imm := 0x200064 }) s) 3 1 = some true ∧
    writesV (warpAfter (.idiv { z with d := 5, a := 3, b := 1, st := 1 }) s) 0 5 = some 0x80000000 ∧
    writesV (warpAfter (.irem { z with d := 5, a := 6, b := 192, st := 1 }) s) 0 5 = some 7 ∧
    writesV (warpAfter (.shl { z with d := 5, a := 6, b := 224 }) s) 0 5 = some 0 ∧
    writesV (warpAfter (.movi { z with d := 5, imm := 0x8000001 }) s) 0 5 = some 0xF8000001 := by decide +kernel

/-- The worked cases of R110: results rounded into s1e5m5. -/
theorem test_rounding :
    let n := Slot.of 0x014030AB 0
    let x (a b : Nat) : Val := .num false (.rat a b)
    roundVal n (x 407 10) 0 = (0x229, 1) ∧ roundVal n (x 101 1) 0 = (0x252, 1) ∧
    roundVal (Slot.of 0x014030AB 4) (x 101 1) 0 = (0x253, 1) ∧ roundVal n (x 600000 1) 0 = (0x3E0, 5) ∧
    roundVal n (x 3 (2 ^ 17)) 0 = (2, 3) ∧ n.W = 11 ∧ n.L = 2 := by decide +kernel

/-- The worked case of R243: FPACK into elements 2 and 3, inexact; and 1.5 + 0.25 = 1.75 by FADD, exact. -/
theorem test_float :
    let s := issuingAt (withV [(0, 0x40466666), (1, 0xBDB851EC), (2, 0x11223344), (8, 0x3FC00000), (9, 0x3E800000)])
    let t := warpAfter (.fpack { z with d := 2, a := 0, b := 1, fs := 3, imm := 0x1000000 }) s
    writesV t 0 2 = some 0x9C443344 ∧ raises t = some 1 ∧
    writesV (warpAfter (.fadd { z with d := 3, a := 8, b := 9 }) s) 5 3 = some 0x3FE00000 := by decide +kernel

/-- The worked cases of R127 and R496: a scale of 64 for 3.1 in slot 3 with guard 1, and 9.0 at scale 64 clamped to 448. -/
theorem test_scales :
    nextScale 0x40466666 (Slot.of 0x02001C69 0) 1 0x3F800000 = (0x42800000, 0) ∧
    scaledCode (decodeVal 0x40466666 f32) (Slot.of 0x02001C69 0) 0x42800000 0 = (0x74, 1) ∧
    scaledCode (decodeVal 0x41100000 f32) (Slot.of 0x02001C69 0) 0x42800000 0 = (0x7E, 5) := by decide +kernel

/-- The worked case of R250: `part` 8, v0 = lane, lanes 0 to 5 and 8 to 15 in the entry, VP = p2. -/
theorem test_cross_lane :
    let s := issuingAt (fun x =>
      { x with v := (List.range 32).map (fun l => (l, BitVec.ofNat 32 l)), part := 8
               table := x.table.map (fun e => { e with mask := 0xFF3F }) })
    let down (n : Nat) := warpAfter (.shfl { z with d := 1, a := 0, b := BitVec.ofNat 8 (192 + n), imm := 0x4200000 }) s
    let sum := warpAfter (.redux { z with d := 1, a := 0, imm := 0x4000000 }) s
    writesV (down 1) 5 1 = some 5 ∧ writesP (down 1) 5 2 = some false ∧ writesV (down 1) 12 1 = some 13 ∧
    writesP (down 1) 12 2 = some true ∧ writesV (down 4) 12 1 = some 12 ∧ writesP (down 4) 12 2 = some false ∧
    writesV (down 1) 7 1 = none ∧ writesV sum 5 1 = some 15 ∧ writesV sum 12 1 = some 92 ∧ writesP sum 12 2 = some true := by
  decide +kernel

/-- The worked case of R225: a CALL.fr16 whose return point lies at section offset 0x444 leaves 0x1000_0444 in position 79, with
frame pointer 16 and depth 1; and a BRA of one bundle. -/
theorem test_calls :
    let s := { issuingAt id with cur := some { wg := 0, warp := 0, pc := BitVec.ofNat 80 (placedBase + 4), npc := BitVec.ofNat 80 (placedBase + 0x444), base := BitVec.ofNat 80 (placedBase + 0x400) } }
    let t := warpAfter (.call { z with imm := 0x4000002 }) s
    writesV t 3 79 = some 0x10000444 ∧ t.map (fun x => ((x.lane 3).fp, (x.lane 3).depth)) = some (16, 1) ∧
    t.map (fun x => x.table.map (fun e => e.pc.toNat)) = some [placedBase + 0x484] ∧
    (warpAfter (.bra { z with imm := 0xFFFFFFF }) s).map (fun x => x.table.map (fun e => e.pc.toNat)) =
      some [placedBase + 0x3C4] := by decide +kernel

/-- The worked case of R230: RJQUIT by lanes 0 to 7 of set 2, then RJTEST and RJWAIT by lanes 8 to 31. -/
theorem test_rejoin :
    let j (m : LaneSet) : RjSet := { mem := m, arr := 0, depth := 0, isOpen := true, orph := false }
    let p := issuingAt (fun x => { x with j := [(2, j 0xFFFFFFFF)], table := x.table.map (fun e => { e with mask := 0xFF }) })
    let q := issuingAt (fun x => { x with j := [(2, j 0xFFFFFF00)], table := x.table.map (fun e => { e with mask := 0xFFFFFF00 }) })
    (warpAfter (.rjquit { z with imm := 0x200000 }) p).map (fun x => (x.rj 2).mem) = some 0xFFFFFF00 ∧
    writesP (warpAfter (.rjtest { z with d := 0x73, imm := 0x200000 }) q) 9 3 = some true ∧
    (warpAfter (.rjwait { z with imm := 0x200000 }) q).map (fun x => ((x.rj 2).mem, (x.rj 2).arr)) = some (0xFFFFFF00, 0) ∧
    (warpAfter (.rjwait { z with imm := 0x200000 }) q).map (fun x => x.table.map (fun e => (e.pc.toNat, e.mask))) =
      some [(placedBase + 8, 0xFFFFFF00)] := by decide +kernel

/-- The worked case of R452: RJJOIN by lanes of two call depths traps for lanes 4 to 7; without a supervisor that ends the
workgroup with class 1 and reason 0x0E in its record, DETAIL 0xFFFD (R398), and no lane joins. -/
theorem test_rjjoin_trap :
    let s := issuingAt (fun x =>
      { x with j := [(3, { mem := 0, arr := 0, depth := 2, isOpen := true, orph := false })]
               table := x.table.map (fun e => { e with mask := 0xFF })
               lanes := (List.range 32).map (fun l => (l, { Lane.init with launched := true, depth := if l < 4 then 2 else 1 })) })
    (match exec (.rjjoin { z with imm := 0x300000 }) s with
     | .next t => (t.getWg 0).failed && (t.getWarp 0 0).rj 3 = (s.getWarp 0 0).rj 3
     | _ => false) = true := by decide +kernel

/-- A reserved word traps with class 1 even in a step (the worked case of R442): the workgroup without a supervisor ends. -/
theorem test_reserved_word_step :
    (match step (placed [0x18, 0x00, 0xC0, 0x40] id) with
     | .next t => (t.getWg 0).failed && !(t.getWg 0).alive
     | _ => false) = true := by decide +kernel

/-- ST of v4 to [v2] writes the four bytes, little-endian, that LD then reads, and no other (R135, R265). -/
theorem test_store_load :
    let s := issuingAt (fun x => { withV [(2, 0x1000), (4, 0x11223344)] x with table := x.table.map (fun e => { e with mask := 1 }) })
    (match exec (.st { z with a := 2, b := 4 }) s with
     | .next t =>
       [0xFFF, 0x1000, 0x1001, 0x1002, 0x1003, 0x1004].map (fun a => l1Peek t 0 a) = [0, 0x44, 0x33, 0x22, 0x11, 0] &&
       (match exec (.ld { z with d := 5, a := 2, st := 1 }) { t with warps := s.warps } with
        | .next u => writesV (some (u.getWarp 0 0)) 0 5 = some 0x11223344
        | _ => false)
     | _ => false) = true := by decide +kernel

/-- Scratchpad stores and loads (R270), and an integer atomic on the scratchpad, lanes in ascending order (R131). -/
theorem test_scratchpad :
    let s := issuingAt (withV [(2, 64), (4, 1)])
    (match exec (.atom { z with d := 5, a := 2, b := 4, imm := 0x8000, st := 1 }) s with
     | .next t => (scratchRead t 0 64 4).1 = [32, 0, 0, 0] && writesV (some (t.getWarp 0 0)) 31 5 = some 31
     | _ => false) = true := by decide +kernel

/-! ### States and operands that meet the statements' hypotheses -/

/-- Every instruction of the rows issues in `s` and passes its common checks, and the row's further conditions hold. -/
def meets (s : State) (rows : List (Instr × (Iss → Iss → Iss → Bool))) : Bool :=
  rows.all (fun r =>
    match issuing s r.1 with
    | none => false
    | some c0 => c0.sound r.1 &&
      (match takeStreams c0 (inputStreams r.1) with
       | .ok c1 => streamPoison c1 r.1 = none && c1.unblocked r.1 && r.2 c0 c1 (c1.observing r.1)
       | .error _ => false))

/-- So each row meets the hypothesis `Issues` together with its further conditions. -/
theorem meets_issues {s : State} {rows : List (Instr × (Iss → Iss → Iss → Bool))} (h : meets s rows = true) :
    ∀ r ∈ rows, ∃ c0 c1 c, Issues s r.1 c0 c1 c ∧ r.2 c0 c1 c = true := by
  intro r hr
  have h1 := List.all_eq_true.mp h r hr
  revert h1
  cases hi : issuing s r.1 with
  | none => simp
  | some c0 =>
    simp only [Bool.and_eq_true]
    intro h1
    cases ht : takeStreams c0 (inputStreams r.1) with
    | error e => simp [ht] at h1
    | ok c1 =>
      simp only [ht, Bool.and_eq_true, decide_eq_true_eq] at h1
      exact ⟨c0, c1, _, ⟨hi, h1.1, ht, h1.2.1.1, h1.2.1.2, rfl⟩, h1.2.2⟩

/-- Two lanes, window registers 2 and 8 an address, 4 a value, and nothing else set. -/
def twoLanes (g : Warp → Warp) : State :=
  issuingAt (fun x => g { withV [(2, 0x1000), (4, 7), (8, 0x2000)] x with table := x.table.map (fun e => { e with mask := 3 }) })

/-- A row without further conditions. -/
def plain (i : Instr) : Instr × (Iss → Iss → Iss → Bool) := (i, fun _ _ _ => true)
/-- Every active lane has the same width of result, and one lane at least has one. -/
def oneWidth {α : Type} (c : Iss) (g : Nat → Option (Bool × α)) : Bool :=
  (g c.l0).isSome && c.act.all (fun l => (g l).map (·.1) = (g c.l0).map (·.1))

theorem test_meets_IntegerResults :
    let f : Fields := { z with d := 6, a := 2, b := 4 }
    let g : Fields := { f with c := 10 }
    meets (twoLanes id) ([.iadd f, .iadd { f with imm := 0x8000000 }, .iadd { f with imm := 0x6000000 }, .isum3 g, .isub f,
      .ineg { f with b := 0 }, .iabs { f with b := 0 }, .imin f, .imax f, .isat f, .icmp { f with d := 0x71 },
      .icmp { f with d := 0x71, c := 0x72, imm := 0x1500000 }, .sel { g with c := 0x71 }, .lea { f with imm := 0x1F00000 }, .imul f, .imulh f,
      .imad g, .imadw g, .and f, .or f, .xor f, .not { f with b := 0 }, .blut { g with imm := 0xFF00000 },
      .plut { g with d := 0x71, a := 0x70, b := 0x77, c := 0x72, imm := 0x9600000 }, .pmovGet { z with d := 6 },
      .mov { f with b := 0 }, .movi { z with d := 6, imm := 0xFFFFFFF }, .movk { f with imm := 0x100000 }, .shl f, .shr f, .sar f,
      .fshl g, .fshr g, .bfe f, .bfi g, .brev { f with b := 0 }, .popc { f with b := 0 }, .clz { f with b := 0 },
      .ctz { f with b := 0 }, .sext f, .zext f, .partget { z with d := 6 }, .rjtest { z with d := 0x71 },
      .rjmask { z with d := 6 }, .cycrd { z with d := 6 }].map
        (fun i => (i, fun _ _ c => oneWidth c (Claim.intResult i c)))) = true := by decide +kernel

theorem test_meets_DivisionResults :
    let f : Fields := { z with d := 6, a := 2, b := 4, st := 1 }
    meets (twoLanes id) ([.idiv f, .irem f, .idiv { f with imm := 0x8000000 }, .irem { f with imm := 0x8000000 }].map plain) = true := by
  decide +kernel

theorem test_meets_FloatResults :
    let f : Fields := { z with d := 6, a := 2, b := 4, st := 1 }
    let g : Fields := { f with b := 0 }
    meets (twoLanes id) ([.fadd f, .fsub f, .fmul f, .ffma { f with c := 10, fs := 1 }, .fmin f, .fmax f, .frnd { g with imm := 0xA00000 },
      .fscale f, .frcp g, .frsq g, .fsqrt g, .fdiv f, .fexp2 g, .flog2 g, .fsin g, .fcos g, .ftanh g].map (fun i =>
        (i, fun c0 _ c => slotFail c0 c0.f.fs.toNat true = [] && c.f.grp = 0 && 0 < c.nd.L &&
          c.act.all (fun l => (List.range c.nd.L).all (fun j => (Claim.floatElem i c l j).isSome))))) = true := by decide +kernel

theorem test_meets_ConversionResults :
    let f : Fields := { z with d := 6, a := 2 }
    let from_ (n grp : Nat) (x : Fields) : Fields := { x with imm := BitVec.ofNat 28 (n * 2 ^ 21 + grp * 2 ^ 24) }
    meets (twoLanes id) ([.fcvt (from_ 0 1 { f with fs := 1 }), .fcvt (from_ 3 3 { f with fs := 0 }), .f2i (from_ 0 0 { f with fs := 5 }),
      .i2f (from_ 5 0 f), .fpack (from_ 0 1 { f with b := 4, fs := 3 }), .funpack (from_ 3 1 f),
      .fdot (from_ 3 0 { f with b := 4, c := 10 })].map (fun i =>
        (i, fun c0 _ c => slotFail c0 c0.f.fs.toNat true = [] && slotFail c0 c0.f.x3 false = [] &&
          (match i with
           | .f2i _ => c0.nd.E = 0 && c0.nd.B = 0
           | .i2f _ => c0.ns.E = 0
           | .fdot _ => 16 < c0.nd.W
           | _ => true) &&
          c0.f.grp < (Claim.convLimit i c0).1 && (!Claim.convKeeps i c || keptPoison c = none) &&
          oneWidth c (Claim.convResult i c)))) = true := by decide +kernel

/-- The same, with the matrix engine owned by the workgroup under engine context 0. -/
def owning (g : Warp → Warp) : State :=
  let s := twoLanes g
  { s with engs := [(0, { Eng.init with owner := some 1 })] }.modMx 0 (fun m => { m with owner := some 0 })
    |>.modWg 0 (fun w => { w with eng := some 0 })

theorem test_meets_ScaledConversion :
    meets (owning id) ([.fcvts { z with d := 6, a := 2, b := 4, fs := 3, imm := 0x1100000 },
        .fcvts { z with d := 6, a := 2, b := 4, fs := 2, imm := 0 }].map (fun i =>
      (i, fun c0 _ c => slotFail c0 c0.f.fs.toNat true = [] && slotFail c0 c0.f.x3 false = [] && c0.owns &&
        c0.f.grp < grpLimit c0.nd.L c0.ns.L && (!c.keepsSome || keptPoison c = none)))) = true := by decide +kernel

theorem test_meets_TestAndRandomResults :
    meets (twoLanes id)
      ([.fcmp { z with d := 0x71, a := 2, b := 4, fs := 1, imm := 0x1000000 }, .fcmp { z with d := 6, a := 2, b := 4 },
        .fclass { z with d := 6, a := 2, b := 4 }].map (fun i =>
          (i, fun c0 _ c => slotFail c0 c0.f.fs.toNat false = [] && (!isP c0.f.d.toNat || c0.f.grp < c0.nd.L) &&
            (List.range 32).all (fun l => (List.range 4).all (fun j => (Claim.elemTest i c l j).isSome)))) ++
       [plain (.rand { z with d := 6 }), (.rand { z with d := 6, imm := 0x200000 }, fun c0 _ _ => slotFail c0 0 true = [])]) = true := by
  decide +kernel

theorem test_meets_CrossLaneResults :
    let f : Fields := { z with d := 6, a := 2 }
    meets (twoLanes id) ([.vote f, .vote { f with imm := 0xE300000 }, .shfl { f with b := 4, imm := 0x2600000 }, .matchL f,
      .matchL { f with imm := 0x100000 }].map (fun i => (i, fun _ _ c => oneWidth c (fun l => (Claim.crossResult i c l).map (fun r => (r.1, r.2)))))) = true := by
  decide +kernel

theorem test_meets_ReductionResults :
    let f : Fields := { z with d := 6, a := 2 }
    meets (twoLanes id) ([.redux f, .redux { f with imm := 0x1000000 }, .redux { f with imm := 0x700000 }, .scan f,
      .scan { f with imm := 0x1600000, fs := 1 }].map (fun i => (i, fun c0 _ c =>
        oneWidth c (Claim.reduxLanes i c) && (c0.f.mX % 8 < 6 || slotFail c0 c0.f.fs.toNat true = [])))) = true := by decide +kernel

/-- An input stream of three binary32 elements at 0x1000, in stream register 1. -/
def streaming (x : Warp) : Warp := { x with s := [(1, { desc := BitVec.ofNat 128 (2 ^ 127 + 2 * 2 ^ 108 + 0x1000), pos := 0 })] }

theorem test_meets_StreamManagement :
    meets (twoLanes (fun x => streaming { x with k := [(0, 0x1000)] }))
      [(.sdef { z with a := 64, st := 1 }, fun _ c1 c => bits c1.kDesc 120 3 < 5 && !c.streamBusy c.sn),
       (.sseek { z with a := 10, st := 1, imm := 0x100000 }, fun c0 c1 c => (c0.warp.stream c0.sn).V &&
         Claim.seekable (c1.warp.stream c1.sn) (c1.a true c1.l0) && !c.streamBusy c.sn),
       (.spos { z with d := 6, imm := 0x100000 }, fun c0 _ _ => (c0.warp.stream c0.sn).V),
       (.sflag { z with d := 0x71, st := 1, imm := 0x2100000 }, fun c0 _ c => (c0.warp.stream c0.sn).V && !c.streamBusy c.sn)] = true := by
  decide +kernel

theorem test_meets_ChainStarts :
    let s := { twoLanes id with mem := [(0x2004, 64), (0x2005, 64), (0x2007, 0x80)] }
    meets s
      [(.chain { z with a := 8, b := 10 }, fun _ c1 c => c1.a true c1.l0 % 64 = 0 && c.warp.chain = none && c.b false c.l0 = 0),
       (.chain { z with a := 8, b := 4 }, fun _ c1 c =>
         c1.a true c1.l0 % 64 = 0 && c.warp.chain = none && c.b false c.l0 = 7 &&
         (match c.access c.s rightR false (partsOf c.l0 (sextVa (c.a true c.l0)) 64) with
          | .ok ts t =>
            let r := readParts t c.wg c.core 0 ts
            let ps := chainSteps ((List.range 8).map (fun j => leAt r.1 (8 * j) 8))
            !r.2.1 && ps.length = 1 && chainFail c ps = none &&
            !((chainIns ps ++ (chainOuts ps).map (·.1)).dedup).any c.streamBusy
          | _ => false))] = true := by decide +kernel

theorem test_meets_ControlFlow :
    meets (twoLanes id)
      [plain (.nop z), plain (.bra { z with imm := 1 }), (.brx { z with a := 10 }, fun _ c1 c => targetFails c1 = [] &&
         c.act.all (fun l => c.a false l < c.sect.2)), plain (.yield z),
       (.sleep { z with a := 10 }, fun _ _ c => c.a false c.l0 = 0), (.sleep { z with a := 4 }, fun _ _ c => c.a false c.l0 ≠ 0),
       (.partset { z with a := 255, imm := 32 }, fun _ c1 _ => [2, 4, 8, 16, 32].contains (c1.a false c1.l0)),
       (.partset { z with a := 255, imm := 2 }, fun _ c1 _ => [2, 4, 8, 16, 32].contains (c1.a false c1.l0))] = true := by decide +kernel

/-- No lane of a call needs a spill or more depth. -/
def fits (c : Iss) (tgt : Nat → Int) : Bool :=
  c.act.all (fun l => c.warp.depth l ≠ 65535 && !needsSpill c (16 * c.frameCode (tgt l - c.sect.1).toNat) l)

theorem test_meets_CallsAndReturns :
    let deep (x : Warp) : Warp :=
      { x with lanes := x.lanes.map (fun e => (e.1, { e.2 with depth := 1, fp := 16 })), v := [(vKey 79 0, 0x10000004), (vKey 79 1, 0x10000004)] }
    meets (twoLanes id)
      [(.call { z with imm := 0x4000000 }, fun _ _ c => fits c (fun _ => c.direct (signed 26 c.f.immN))),
       (.callx { z with a := 10 }, fun _ c1 c => targetFails c1 = [] && !c.qpf && fits c (fun l => (c.sect.1 : Int) + c.a false l) &&
         c.act.all (fun l => c.a false l < c.sect.2)), plain (.exit z)] = true ∧
    meets (twoLanes deep)
      [(.ret z, fun _ _ c => c.act.all (fun l => (c.warp.lane l).depth ≠ 0 && bits (c.warp.getV l (c.warp.pos l 63)).toNat 30 2 = 0 &&
         Claim.linkOffset c l < c.sect.2 && (c.warp.lane l).rb + Claim.linkFrame c l ≤ (c.warp.lane l).fp &&
         Claim.linkFrame c l = 16))] = true := by decide +kernel

theorem test_meets_RejoinAndPredicateSets :
    let set_ (x : Warp) : Warp := { x with j := [(15, { RjSet.init with mem := 3, isOpen := true })] }
    let f : Fields := { z with imm := 0xF00000 }
    meets (twoLanes id)
      [(.rjopen f, fun c0 _ _ => !(c0.warp.rj c0.set).isOpen && c0.act.all (fun l => c0.warp.depth l = c0.warp.depth c0.l0)),
       (.rjopenMask { f with a := 4, imm := 0x1F00000 }, fun c0 _ _ =>
         !(c0.warp.rj c0.set).isOpen && c0.act.all (fun l => c0.warp.depth l = c0.warp.depth c0.l0)),
       (.pmovSet { z with d := 112, a := 4, imm := 0xFF00000 }, fun _ _ c => bits c.f.immN 20 8 = 0xFF)] = true ∧
    meets (twoLanes set_)
      [(.rjjoin f, fun c0 _ _ => (c0.warp.rj c0.set).isOpen && c0.act.all (fun l => (c0.warp.rj c0.set).depth ≤ c0.warp.depth l)),
       (.rjquit f, fun c0 _ _ => (c0.warp.rj c0.set).isOpen), (.rjwait f, fun c0 _ _ => (c0.warp.rj c0.set).isOpen),
       (.rjclose f, fun c0 _ _ => (c0.warp.rj c0.set).arr = 0)] = true := by decide +kernel

/-- The same in a deterministic launch (R172). -/
def det (g : Warp → Warp) : State :=
  { twoLanes g with launches := [(0, { placedLaunch with lr := { placedRecord with scratch := 4096, flags := 1, wbsize := 65536, pisize := 65536 } })] }

/-- An output stream of 64 binary32 elements at 0x3000, in stream register 2. -/
def outStream (x : Warp) : Warp := { x with s := [(2, { desc := BitVec.ofNat 128 (3 * 2 ^ 126 + 63 * 2 ^ 108 + 0x3000), pos := 0 })] }

/-- The access passes its checks. -/
def granted : Acc → Bool
  | .ok _ _ => true
  | _ => false

/-- A load is granted, and no write-back of its lines comes first. -/
def loads (c : Iss) : Bool :=
  match c.access c.s rightR false (Claim.lineAccess c).flatten with
  | .ok ts t => !scopeHeld c t ts
  | _ => false

/-- The values can be appended to the stream of D. -/
def appends (c : Iss) (o : Out) (vals : List (Nat × Option Nat)) : Bool :=
  match appendStream c o (c.f.d.toNat - 96) vals with
  | .out _ => true
  | _ => false

theorem test_meets_LoadsComplete :
    meets (twoLanes (fun x => outStream { x with k := [(2, 0x1000)] }))
      [(.ld { z with d := 6, a := 2, st := 1, imm := 0xFFFC }, fun _ _ c => loads c),
       (.ld { z with d := 98, a := 2, st := 1 }, fun _ _ c => loads c),
       (.ldk { z with d := 70, a := 66, st := 1 }, fun _ _ c => granted (c.access c.s rightR false (partsOf c.l0 (c.addr c.l0) c.size))),
       (.ldpk { z with d := 6, a := 2, b := 4, fs := 3, st := 2 }, fun c0 _ c => slotFail c0 c0.f.fs.toNat false = [] &&
         !isS c.f.d.toNat && granted (c.access c.s rightR false (Claim.packedAccess c).flatten)),
       (.ldpk { z with d := 98, a := 2, b := 4, fs := 3, st := 2 }, fun c0 _ c => slotFail c0 c0.f.fs.toNat false = [] &&
         isS c.f.d.toNat && (match c.access c.s rightR false (Claim.packedAccess c).flatten with
          | .ok ts t =>
            let rs := Claim.packedRead c t (Claim.byLane c (Claim.packedAccess c) ts)
            appends c { s := rs.2 } (rs.1.map (fun r => (r.1, c.result r.1 (if r.2.2 then none else some r.2.1))))
          | _ => false))] = true := by decide +kernel

/-- The workgroup's buffer has room for the parts. -/
def hasRoom (c : Iss) (t : State) (ts : List TPart) (reds : Nat) : Bool :=
  match detGate c t ts reds with
  | .ok _ => true
  | _ => false

/-- A store of the parts is granted, no write-back comes first, and it has room. -/
def stores (c : Iss) (ps : List Part) : Bool :=
  match c.access c.s rightW true ps with
  | .ok ts t => !scopeHeld c t ts && hasRoom c t ts 0
  | _ => false

theorem test_meets_StoresComplete :
    let rows : List (Instr × (Iss → Iss → Iss → Bool)) :=
      [(.st { z with a := 2, b := 4 }, fun _ _ c => stores c (Claim.lineAccess c).flatten),
       (.stpk { z with a := 2, b := 4, c := 10, fs := 3 }, fun c0 _ c => slotFail c0 c0.f.fs.toNat false = [] &&
         stores c (Claim.packedAccess c).flatten)]
    meets (twoLanes id) (plain (.pref { z with a := 2 }) :: rows) = true ∧ meets (det id) rows = true := by decide +kernel

theorem test_meets_ScratchpadAccess :
    let at_ (q : Iss → Nat) : Iss → Iss → Iss → Bool := fun _ _ c =>
      let places := c.act.map (fun l => (l, q c, Claim.padAt c l))
      padTrap c c.size places = none && !padSource c c.size places
    meets (twoLanes id)
      [(.lds { z with d := 6, a := 10, st := 1, imm := 4092 }, at_ (fun c => c.g.qgpos)), (.sts { z with a := 10, b := 4, imm := 4092 }, at_ (fun c => c.g.qgpos)),
       (.ldq { z with d := 6, a := 10, st := 1 }, at_ Iss.qpos), (.stq { z with a := 10, b := 4 }, at_ Iss.qpos),
       (.ldmc { z with a := 2, b := 10, imm := 0x20000 }, fun _ _ c =>
         let pss := c.act.map (fun l => partsOf l (c.ea c.f.a.toNat false (offOf c.f) l) c.size)
         let places := c.act.flatMap (fun l => (setBitsOf 4 (bits c.f.immN 17 4)).map (fun q => (l, q, c.read c.f.b.toNat false l)))
         padTrap c c.size places = none && !padSource c c.size places &&
         granted (c.access c.s rightR false pss.flatten))] = true := by decide +kernel

/-- The access reaches the units, with nothing of the thread before it. -/
def reaches (c : Iss) (r : Right) (mark : Bool) (ps : List Part) (p : List TPart → State → Bool) : Bool :=
  match c.reach c.s r mark ps with
  | .ok ts t => !ownWaiting t c.wg c.w AtomReq.fills ts && !(r.wr && writesSource t c.wg c.w ts) && p ts t
  | _ => false

/-- The requests go out: in a deterministic launch there is room, and with a stream for D places to append to. -/
def sends (c : Iss) (t : State) (qs : List AtomReq) (reds : Nat) : Bool :=
  if c.s.wgDet c.wg then
    !(qs.any (fun q => q.wparts.any (fun x => t.heldWithin x.pa x.part.n c.wg (· ≠ c.w)))) && hasRoom c t (detAll t qs).2.1 reds &&
      (!isS c.f.d.toNat || appends c { s := (detAll t qs).2.2 } (detAll t qs).1)
  else !isS c.f.d.toNat || (match reserveAppend c t (c.f.d.toNat - 96) (qs.map (·.lane)) with
    | .ok _ => true
    | .error _ => false)

/-- An aligned request for every lane is granted and goes out. -/
def sendable (c : Iss) (r : Right) (mark : Bool) (kind : Nat) (hasD : Bool) : Bool :=
  alignTrap (c.act.map (fun l => (l, c.atomVa l))) c.size = none &&
  reaches c r mark (c.act.map (fun l => ⟨l, c.atomVa l, c.size⟩)) (fun ts t =>
    let qs := Claim.requests c kind ts hasD
    ts.all (fun x => x.mt ≠ 2) && qs.length = 2 && sends c t qs 2)

theorem test_meets_GlobalAtomics :
    let f : Fields := { z with d := 6, a := 2, b := 4, st := 1 }
    let g : Fields := { z with a := 2, b := 4 }
    let row (i : Instr) (r : Right) (kind : Nat) (hasD : Bool) : Instr × (Iss → Iss → Iss → Bool) :=
      (i, fun _ _ c => (kind = 3 || c.f.spc = 0) && sendable c r true kind hasD)
    let rows (f : Fields) := [row (.atom f) rightRW 0 true, row (.atomf { f with imm := 0x200000 }) rightRW 1 true,
      row (.red g) rightW 4 false, row (.redf g) rightW 5 false, row (.sc { f with d := 0x71, a := 2 }) rightRW 3 true]
    let toStream := [row (.atom { f with d := 98 }) rightRW 0 true, row (.sc { f with d := 98 }) rightRW 3 true]
    meets (twoLanes id) (rows f) = true ∧ meets (det id) (rows f) = true ∧
    meets (twoLanes outStream) toStream = true ∧ meets (det outStream) toStream = true := by
  decide +kernel

theorem test_meets_LoadReserved :
    let f : Fields := { z with d := 6, a := 2, st := 1 }
    let row (f : Fields) : Instr × (Iss → Iss → Iss → Bool) := (.lr f, fun _ _ c => sendable c rightRW false 2 true)
    meets (twoLanes id) [row f] = true ∧ meets (det id) [row f] = true ∧
    meets (twoLanes outStream) [row { f with d := 98 }] = true := by decide +kernel

/-- `padClear`, decided. -/
def padFree (c : Iss) : Bool :=
  let q := if c.f.spc = 2 then c.f.qp13 else c.g.qgpos
  let offs := c.act.map (fun l => (l, c.padOff c.aOff l))
  alignTrap offs c.size = none && padTrap c c.size (offs.map (fun e => (e.1, q, e.2))) = none &&
  offs.all (fun e => !(scratchRead c.s (c.peer q) e.2 c.size).2) && !padSource c c.size (offs.map (fun e => (e.1, q, e.2)))

theorem test_meets_ScratchpadAtomicsAndPairs :
    let f : Fields := { z with d := 6, a := 10, b := 4, st := 1, imm := 0x8000 }
    let g : Fields := { z with a := 10, b := 4, imm := 0x10000 }
    meets (twoLanes id) ([.atom f, .atomf { f with imm := 0x208000 }, .red g, .redf g].map (fun i => (i, fun _ _ c => c.f.spc ≠ 0 && padFree c)) ++
      [(.stpair { z with a := 2, b := 4, c := 8 }, fun _ _ c =>
         alignTrap (c.act.flatMap (fun l => [(l, c.addr l), (l, c.twinVa l)])) c.size = none &&
         reaches c rightRW true (c.act.flatMap (fun l => [⟨l, c.addr l, c.size⟩, ⟨l, c.twinVa l, c.size⟩]))
           (fun ts _ => ts.all (fun x => x.mt ≠ 2) && ts.length = 4))]) = true := by decide +kernel

/-- The same with entry 3 of the region table bound to 0x1000 and 0x40 bytes, with its object at 0x2000. -/
def bound (g : Warp → Warp) (n rrm : Nat) : State :=
  (twoLanes g).modCtx 1 (fun x => { x with regions := [(n,
    { Region.init with base := 0x1000, size := 0x40, obj := 0x2000, valid := true, rrm := rrm, log := 0x4000, logn := 16 })] })

/-- No write-back comes before the fence. -/
def fences (c : Iss) (sco : Nat) : Bool :=
  match fenceFirst c c.s sco with
  | .ok _ => true
  | .error _ => false

theorem test_meets_FencesAndBindings :
    meets (twoLanes (fun x => { x with v := [(vKey 2 0, 0x1000), (vKey 2 1, 0x1000), (vKey 4 0, 0x40), (vKey 8 0, 0x2000)] }))
      [(.fence { z with imm := 0xC0000 }, fun _ _ c => fences c c.f.sco),
       (.fence { z with imm := 0x60000 }, fun _ _ c => fences c c.f.sco),
       (.bind { z with a := 2, b := 4, c := 8, imm := 0xFF00000 }, fun c0 _ c => !c0.region.valid &&
         (let base := c.ea c.f.a.toNat (bitB c.f.immN 19) 0 c.l0
          let size := c.read c.f.b.toNat true c.l0
          let obj := c.ea c.f.c.toNat (bitB c.f.immN 19) 0 c.l0
          base % 64 = 0 && size % 64 = 0 && size ≠ 0 && obj % 64 = 0 && base + size ≤ 2 ^ 80 && !(base ≤ obj && obj < base + size) &&
          (c.s.ctxView c.wg).validRegions.isEmpty)),
       plain (.unbind { z with imm := 0xFF00000 })] = true := by decide +kernel

/-- `objectAt` holds of what the access gives. -/
def objectOk (c : Iss) (r : Right) (p : TPart → State → Bool) : Bool :=
  c.addr c.l0 % 64 = 0 &&
  (match c.access c.s r false [⟨c.l0, c.addr c.l0, 8⟩] with
   | .ok [t] u => (u.ctxView c.wg).validRegions.any (fun e => e.2.obj = c.addr c.l0) && !blockPoison u t.pa && p t u
   | _ => false)

/-- `dropsFree`, decided. -/
def dropsOk (c : Iss) (t : TPart) (u : State) : Bool :=
  let v := ownLine u c.wg t.pa
  (u.wgDet c.wg || !lineHeld u c.core t.pa c.wg c.w) &&
  (!wideScope c.f.sco || v.wgDet c.wg || !writebackHeld v c.core (lineInPieces (boundPieces c v (c.addr c.l0))))

theorem test_meets_AcquireAndRelease :
    let s := bound id 3 0
    let d := { s with launches := (det id).launches }
    meets s [(.acq { z with d := 6, a := 8, st := 1, imm := 0xC0000 }, fun _ _ c => objectOk c rightR (dropsOk c)),
      (.acqGe { z with d := 6, a := 8, b := 10, st := 1, imm := 0x10C0000 }, fun _ _ c => objectOk c rightR (fun t u => dropsOk c t u &&
        (seqNow (ownLine u c.wg t.pa) c.wg t.pa + 2 ^ 64 - c.read c.f.b.toNat true c.l0 % 2 ^ 64) % 2 ^ 64 < 2 ^ 63)),
      (.rel { z with a := 8, imm := 0xC0000 }, fun _ _ c => objectOk c rightW (fun t u => !u.wgDet c.wg && !memPending c &&
        !u.heldFrom t.pa 8 c.wg c.w && !lineHeld u c.core t.pa c.wg c.w &&
        !writebackHeld u c.core (inPieces (boundPieces c u (c.addr c.l0)))))] = true ∧
    meets { s with holdsLR := [{ granule := 0x2000 / 32, wg := 0, warp := 1 }]
                   warps := s.warps ++ [(warpKey 0 1, { Warp.init with lanes := [(0, { Lane.init with resv := some (0x2000 / 32) })] })] }
      [(.rel { z with a := 8, imm := 0xC0000 }, fun _ _ c => objectOk c rightW (fun t u => !memPending c &&
        !writebackHeld u c.core (inPieces (boundPieces c u (c.addr c.l0))) && u.heldFrom t.pa 8 c.wg c.w))] = true ∧
    meets d [(.rel { z with a := 8, imm := 0xC0000 }, fun _ _ c => objectOk c rightW (fun t u => u.wgDet c.wg &&
      (match detGate c u [t] 1 with
       | .ok _ => true
       | _ => false)))] = true := by decide +kernel

theorem test_meets_BarrierInstructions :
    let f : Fields := { z with imm := 0xF60000 }
    let here (x : Warp) : Warp := { x with lanes := x.lanes.map (fun e => (e.1, { e.2 with arrived := [(3, 15, e.1)] })) }
    meets (twoLanes id) ([.bar f, .bara f].map (fun i => (i, fun c0 _ c =>
      c0.act.all (fun l => c0.arrivedIn l = none) && fences c c.f.sco))) = true ∧
    meets (twoLanes here) [(.barw f, fun c0 _ c => c0.act.all (fun l => c0.arrivedIn l ≠ none) &&
      !writebackHeld c.s c.core (fun _ => true))] = true := by decide +kernel

theorem test_meets_RecordAndReplayModes :
    let f : Fields := { z with a := 10, b := 12, c := 4, imm := 0xFF40000 }
    let log (x : Warp) : Warp := { x with v := [(vKey 4 0, 16), (vKey 4 1, 16), (vKey 12 0, 0x4000), (vKey 12 1, 0x4000)] }
    let enters : Iss → Iss → Iss → Bool := fun c0 c1 c => c0.region.valid && c0.region.size ≤ 65536 && c1.logVa % 64 = 0 &&
      logTrap c c.logVa (c.read c.f.c.toNat false c.l0) = none
    meets (bound log 255 0) [(.rrmodeOff { z with imm := 0xFF00000 }, fun c0 _ _ => c0.region.valid),
      (.rrmodeRec f, enters), (.rrmodePlay { f with imm := 0xFF80000 }, enters),
      (.ordgate { z with d := 6, imm := 0xFF00000 }, fun _ _ c => c.region.valid && c.region.rrm = 0),
      (.ordgate { z with d := 6, imm := 0x0100000 }, fun _ _ c => !c.region.valid)] = true ∧
    meets { bound log 255 0 with launches := (det id).launches } [(.rrmodeRec f, fun c0 c1 c => enters c0 c1 c &&
      (match kettlePa (passGate c c.s) c.asid c.logVa with
       | some pa => (match detGate c (passGate c c.s) [⟨⟨c.l0, c.logVa, 20⟩, pa, 0⟩] 0 with
         | .ok _ => true
         | _ => false)
       | none => false))] = true ∧
    meets (bound log 255 1) [(.ordgate { z with d := 6, imm := 0xFF00000 }, fun _ _ c => c.region.rrm = 1 &&
      logHeader c.s c.wg c.asid c.region.log = some (0, 0, 0))] = true ∧
    meets { bound log 255 2 with mem := [(0x4000, 1), (0x4040, 5)] ++ tables } [(.ordgate { z with d := 6, imm := 0xFF00000 }, fun _ _ c =>
      c.region.rrm = 2 && logHeader c.s c.wg c.asid c.region.log = some (1, 0, 0) && logChunk c.s c.wg c.asid c.region.log 0 = some (0, 5))] = true := by
  decide +kernel

theorem test_meets_CacheControl :
    meets (twoLanes id)
      [(.carve { z with d := 6, a := 4, st := 1 }, fun _ c1 c => c1.a false c1.l0 < 16 && !writebackHeld c.s c.core (fun _ => true)),
       (.cwb { z with a := 2, b := 4 }, fun _ _ c => !writebackHeld c.s c.core (fun a => lineInPieces c.pieces a)),
       (.cwb { z with imm := 0x8000000 }, fun _ _ c => c.allB && !writebackHeld c.s c.core (fun _ => true)),
       (.cinv { z with a := 2, b := 4 }, fun _ _ c => !writebackHeld c.s c.core (fun a => lineInPieces c.pieces a)),
       (.cinv { z with imm := 0x8000000 }, fun _ _ c => c.allB && !writebackHeld c.s c.core (fun _ => true)),
       plain (.cinvI { z with a := 2, b := 4, imm := 0x4000000 })] = true := by decide +kernel

/-- Descriptors: m0 accumulator memory, m1 and m2 scratchpad elements in slot 0, m3 block-scaled 4-bit elements, m4 global memory;
one element each but for m3, which has one row or column of 16. -/
def descs : Sparse (BitVec 256) :=
  [(0, BitVec.ofNat 256 (2 ^ 255 + 2 * 2 ^ 253)), (1, BitVec.ofNat 256 (2 ^ 255 + 4 * 2 ^ 192)), (2, BitVec.ofNat 256 (2 ^ 255 + 4 * 2 ^ 192 + 64 * 2 ^ 112)),
   (3, BitVec.ofNat 256 (2 ^ 255 + 2 ^ 250 + 8 * 2 ^ 192 + 128 * 2 ^ 112 + 64 * 2 ^ 64)), (4, BitVec.ofNat 256 (2 ^ 255 + 3 * 2 ^ 253 + 4 * 2 ^ 192 + 0x5000 * 2 ^ 112))]
/-- The owner of the engine with these descriptors. -/
def tiled (g : Warp → Warp) : State := (owning g).modWg 0 (fun w => { w with m := descs })

theorem test_meets_EngineOwnership :
    meets (owning id) [(.mxacq { z with d := 0x71, st := 1 }, fun _ _ c => (c.s.mxOf c.wg).owner = some c.wg && !(c.s.mxOf c.wg).held),
      plain (.mxrel z)] = true ∧
    meets ((owning id).modMx 0 (fun m => { m with owner := some 5 }))
      [(.mxacq { z with d := 0x71, st := 1 }, fun _ _ c => (c.s.mxOf c.wg).owner = some 5)] = true ∧
    meets (twoLanes id) [(.mxacq { z with d := 0x71, st := 1 }, fun _ _ c => (c.s.mxOf c.wg).owner = none && (freeEngs c.s).length = 4096)] = true ∧
    (let s := (owning id).modMx 0 (fun m => { m with held := true })
     (s.getCore 0).mx.owner = some 0 ∧ (s.getCore 0).mx.held = true ∧ (s.getCore 0).mx.run = none ∧ (s.getCore 0).mx.staged = none ∧
     (s.getWg 0).eng = some 0) := by decide +kernel

/-- A pool with a free context gives one, and a pool with none gives none: both cases of MXACQ occur. -/
theorem test_pool (s : State) (ctx kind : Nat) :
    (freeEngs s ≠ [] → ∃ e t, takeEng s ctx kind = some (e, t)) ∧ (freeEngs s = [] → takeEng s ctx kind = none) := by
  unfold takeEng
  generalize freeEngs s = fl
  refine ⟨fun h => ?_, fun h => by subst h; rfl⟩
  have h1 := List.getElem?_eq_getElem (Nat.mod_lt (Config.choice s.free) (List.length_pos_iff.mpr h))
  simp only [h1]
  exact ⟨_, _, rfl⟩

theorem test_meets_DescriptorsAndDeclarations :
    meets (twoLanes id)
      [(.tdesc { z with a := 64, imm := 0xF00000 }, fun _ c1 c => bits c1.kOct.toNat 224 3 = 0 &&
         !c.awaitsCmd (fun i => (namedDescs i).contains (bits c.f.immN 20 4))),
       (.tmaskSet { z with a := 72, imm := 0x1300000 }, fun _ _ c => (wgCommands c.s c.wg).isEmpty),
       (.tmaskFirst { z with a := 4, imm := 0x2000000 }, fun _ _ c => (wgCommands c.s c.wg).isEmpty),
       (.gdecl { z with a := 255, imm := 0x700400 }, fun c0 c1 _ => (c0.g.sign (bits c0.f.immN 20 3)).sgn = 0 && c1.a false c1.l0 = 1024)] = true := by
  decide +kernel

theorem test_meets_ScaleInstructions :
    meets (owning id)
      [(.tamax { z with d := 6, st := 1, imm := 0xF00000 }, fun c0 _ c => c0.owns && c.bit23 && !c.awaitsCmd isDrain),
       (.tscupd { z with a := 2, b := 4, fs := 3, imm := 0x1F00000 }, fun c0 c1 c => c0.owns && slotFail c0 c0.f.fs.toNat false = [] &&
         0 < scCount c1 && scCount c1 ≤ 256 && !c.awaitsCmd (fun i => isDrain i || readsScales i))] = true := by decide +kernel

/-- A tile operation's fields: D h1, the value A, and the descriptors. -/
def tile (a : Nat) (md ma mb : Nat) : Fields :=
  { z with d := 0x79, a := BitVec.ofNat 8 a, st := 1, imm := BitVec.ofNat 28 (md * 2 ^ 24 + ma * 2 ^ 20 + mb * 2 ^ 16) }

/-- One of each tile operation. -/
def tileOps : List Instr :=
  [.tmma (tile 0 0 1 2), .tmmab (tile 0 0 3 3), .tact (tile 0 0 0 0), .tew (tile 0 0 0 0), .tred (tile 0 0 0 0), .ttrans (tile 0 0 1 0),
   .tscl (tile 0 0 0 0), .tcvt { tile 4 0 0 0 with a := 0 }, .tzero (tile 0 0 0 0), .taccld (tile 0 0 1 0), .taccst (tile 0 1 0 0), .tdrain (tile 4 4 0 0)]

theorem test_meets_TileOperations :
    let sound_ (i : Instr) (c0 : Iss) : Bool :=
      (match Claim.tileFn i with
       | some fn => tileFails c0 fn c0.f.opx = []
       | none => false) && !c0.f.se
    meets (tiled id) (tileOps.map (fun i => (i, fun c0 _ c => sound_ i c0 && enginePlace c.s c.wg = .free 0 && fences c 3))) = true ∧
    meets ((tiled id).modMx 0 (fun m => { m with held := true }))
      (tileOps.map (fun i => (i, fun c0 _ c => sound_ i c0 && enginePlace c.s c.wg = .held 0))) = true := by decide +kernel

theorem test_meets_SignedTileOperations :
    let signing (decl : Nat) (l : Option Latch) : State :=
      (tiled id).modWg 0 (fun w => { w with g := [(7, { SignReg.init with decl := decl, latch := l })] })
    let f : Fields := { tile 0 0 1 2 with st := 0, imm := BitVec.ofNat 28 (0 * 2 ^ 24 + 1 * 2 ^ 20 + 2 * 2 ^ 16 + 7 * 2 ^ 13 + 2 ^ 12) }
    let cond : Iss → Iss → Iss → Bool := fun c0 _ c => tileFails c0 0 c0.f.opx = [] && c0.f.se &&
      (c0.g.sign c0.f.sg).sgn + c0.act.length ≤ (c0.g.sign c0.f.sg).decl && c.g.sign c.f.sg = c0.g.sign c0.f.sg &&
      (match (c.g.sign c.f.sg).latch with
       | some t => signMismatch c t = none
       | none => true) && fences c 3 && enginePlace c.s c.wg = .free 0
    meets (signing 4 none) [(.tmma f, cond)] = true ∧ meets (signing 2 none) [(.tmma f, cond)] = true ∧
    meets (signing 3 (some { instr := .tmma f, vals := [0], draw := 0, gid := 0 })) [(.tmma f, cond)] = true := by decide +kernel

/-- One engine context of each shared kind for context 1. -/
def queues (g : Warp → Warp) : State :=
  { tiled g with engs := [(0, { Eng.init with owner := some 1 }), (1, { Eng.init with owner := some 1, kind := 0 }),
                          (2, { Eng.init with owner := some 1, kind := 1 }), (3, { Eng.init with owner := some 1, kind := 2 })] }

theorem test_meets_QueuedCommands :
    let room (c : Iss) (kind sco e : Nat) : Bool :=
      queueOf c.s c.ctx kind c.queue = some e && (c.s.getEng e).queue.length + c.act.length ≤ 64 && fences c sco
    let f : Fields := { z with d := 0x79, a := 2, b := 8, c := 4, st := 1 }
    meets (queues id)
      [(.tcopy f, fun _ _ c => room c 0 6 1 && rangeTrap c [] = none),
       (.tcopy { f with b := 10, imm := 0x2000000 }, fun _ _ c => room c 0 6 1 &&
         rangeTrap c (c.act.map (fun l => (l, c.place true c.f.b.toNat l, c.read c.f.c.toNat false l))) = none),
       (.tcopyTile { f with a := 0, b := 0, c := 0, imm := BitVec.ofNat 28 (2 ^ 27 + 1 * 2 ^ 16 + 4 * 2 ^ 12) }, fun c0 _ c =>
         room c 0 6 1 && tcopyFails c0 = []),
       (.tgather { f with a := 10, c := 12 }, fun _ _ c => room c 1 6 2 && rangeTrap c (c.act.flatMap (fun l =>
         [(l, c.read c.f.a.toNat false l, 4 * rowCount c.f), (l, c.read c.f.c.toNat false l, rowCount c.f * rowBytes c.f)])) = none),
       (.tscatter { f with a := 10, c := 12 }, fun _ _ c => room c 1 6 2 && rangeTrap c (c.act.flatMap (fun l =>
         [(l, c.read c.f.a.toNat false l, 4 * rowCount c.f), (l, c.read c.f.c.toNat false l, rowCount c.f * rowBytes c.f)])) = none)] = true ∧
    meets (queues (fun x => { x with table := x.table.map (fun e => { e with mask := 1 }) }))
      [(.tcoll f, fun _ c1 c => c1.act.length = 1 && room c 2 7 3)] = true := by decide +kernel

theorem test_meets_HandleInstructions :
    let h (n : Nat) (x : Warp) : Warp := { x with h := [(32, BitVec.ofNat 64 n), (33, BitVec.ofNat 64 n)] }
    let f : Fields := { z with a := 0x79 }
    let g : Fields := { f with d := 6, st := 1 }
    let ok : Iss → Bool := fun c => c.handleFault = none
    meets (queues (h 0)) [(.hwait f, fun _ _ c => ok c && c.act.all (fun l => c.isDone l)), (.htest { g with d := 0x71 }, fun _ _ c => ok c),
      (.hcancel f, fun _ _ c => ok c), (.hsleep f, fun _ _ c => ok c), (.hstat g, fun _ _ c => ok c),
      (.hstat { g with imm := 0x100000 }, fun _ _ c => ok c && promiseOf c.s c.ctx (c.handle 0) = none)] = true ∧
    meets { queues (h (2 ^ 52 + 1)) with engs := [(1, { Eng.init with owner := some 1, kind := 0, next := 2, proms := [(1, 50)] })] }
      [(.hwait f, fun _ _ c => ok c && c.act.any (fun l => !c.isDone l)), (.htest { g with d := 0x71 }, fun _ _ c => ok c && !c.isDone 0),
       (.hcancel f, fun _ _ c => ok c && !c.isDone 0), (.hsleep f, fun _ _ c => ok c && promiseOf c.s c.ctx (c.handle 0) = some 50),
       (.hstat { g with imm := 0x100000 }, fun _ _ c => ok c && promiseOf c.s c.ctx (c.handle 1) = some 50)] = true := by decide +kernel

theorem test_meets_RecordInstructions :
    let f : Fields := { z with d := 0x7A }
    let free_ (c : Iss) : Bool := enginePlace c.s c.wg = .free 0 && fences c 3
    meets (tiled id)
      [(.recbegin { f with a := 2, b := 4, c := 4, imm := 0xF }, fun c0 c1 c =>
         let bv := c1.read c1.f.b.toNat false c1.l0
         !c0.g.recd.act && c1.caddy % 256 = 0 && 0 < bv && bv ≤ 2 ^ 24 && payOff bv + 256 ≤ 256 * c1.read c1.f.c.toNat false c1.l0 && free_ c),
       (.recend f, fun _ _ c => free_ c), (.recmark { f with a := 4 }, fun _ c1 c => c1.read c1.f.a.toNat false c1.l0 ≠ 0xFFFFFFFF && free_ c),
       (.reverse { f with a := 4, b := 8 }, fun c0 c1 c => !c0.g.recd.rev && c1.read c1.f.b.toNat false c1.l0 % 64 = 0 && free_ c),
       (.logq { z with d := 6, st := 1, imm := 0x500000 }, fun _ _ c => (c.s.mxOf c.wg).run = none && (c.s.mxOf c.wg).staged = none)] = true := by
  decide +kernel

/-- The warp in mode S, in a launch with the maintenance right. -/
def supervising (g : Warp → Warp) : State :=
  { owning (fun x => g { x with modeS := true, trapLanes := 3, tfbase := 0x5000, tcause := 0x101 }) with
    launches := [(0, { placedLaunch with lr := { placedRecord with scratch := 4096, flags := 2 } })] }

theorem test_meets_SystemRegisters :
    let f : Fields := { z with d := 6, st := 1 }
    meets (supervising id) ([0, 1, 8, 15, 0x40, 0x41, 0x100, 0x1FF, 0x200, 0x207, 0x302].map (fun n =>
        (.mfs { f with imm := BitVec.ofNat 28 n }, fun c0 _ _ => c0.owns)) ++
      [0x10, 0x300, 0x304, 0x306].map (fun n => plain (.mfs { f with imm := BitVec.ofNat 28 (2 ^ 27 + n) })) ++
      [plain (.mtsWcr { z with a := 4, st := 1 }), plain (.mtsXflagsClear { z with a := 4, st := 1, imm := 1 }),
       plain (.mtsFmt { z with a := 4, st := 1, imm := 15 }), plain (.mtsAmr { z with a := 2, st := 1, imm := 0x8000010 }),
       (.mtsSc { z with a := 4, st := 1, imm := 0x1FF }, fun c0 _ c => c0.owns && !c.awaitsCmd readsScales),
       (.mtsMx { z with a := 4, st := 1, imm := 0x207 }, fun c0 _ _ => c0.owns)]) = true := by decide +kernel

theorem test_meets_TrapsAndReturns :
    let rpc : List Host.Cell := [(0x5010, 4), (0x5012, 1)]
    let ready (need : Bool) : Iss → Iss → Iss → Bool := fun c0 _ c => c0.entry.mask = c0.warp.trapLanes &&
      (match c.access c.s rightR false ((lineParts c.warp.tfbase 2304).map (fun p => { p with lane := c.l0 })) with
       | .ok ts t =>
         let r := Claim.frameOf c ts t
         let u := r.2.2.modWarp c.wg c.w (fun x => restoreFrame x r.1 (fun off => r.2.1.any (fun e => e.1 ≤ off && off < e.1 + e.2)))
         let fill := c.warp.tcause.toNat % 256 = 2
         let ls := lanesOf (BitVec.ofNat 32 (leAt r.1 0x2C 4) &&& c.warp.trapLanes)
         c.warp.tcause.toNat / 256 ≠ 7 && isStart c.s c.wg false (leAt r.1 0x10 10) &&
         (if need then c.warp.tcause.toNat / 256 = 4 && ls ≠ [] &&
            granted (c.access u (if fill then rightR else rightW) false (windowParts c.warp fill ls))
          else c.warp.tcause.toNat / 256 ≠ 4)
       | _ => false)
    meets (twoLanes id) [plain (.trap { z with imm := 0xFFFF })] = true ∧
    meets { supervising id with mem := rpc } [(.eret z, ready false)] = true ∧
    meets { supervising (fun x => { x with tcause := 0x401, spbase := 0x8000 }) with
        mem := rpc ++ [(0x502C, 1)]
        launches := [(0, { placedLaunch with lr := { placedRecord with scratch := 4096, flags := 2, spbase := 0x8000, spsize := 4096 } })] }
      [(.eret z, ready true)] = true := by decide +kernel

theorem test_meets_SystemInstructions :
    let f : Fields := { z with d := 6, a := 4, st := 1 }
    let full : State := (supervising id).modCtx 1 (fun x => { x with queues := [(1, List.replicate 64 { lid := 1, bytes := [], host := false, owner := false, prio := 0 })] })
    let launches (n : Nat) : Iss → Iss → Iss → Bool := fun _ _ c =>
      match fenceFirst c c.s 6 with
      | .error _ => false
      | .ok u =>
        (match c.access u rightR false ((lineParts (c.ea c.f.a.toNat (bitB c.f.immN 24) 0 c.l0) 256).map (fun p => { p with lane := c.l0 })) with
         | .ok ts t =>
           let r := readParts t c.wg c.core 0 ts
           !r.2.1 && ((r.2.2.getCtx c.ctx).queues.get [] (1 + bits c.f.immN 20 2)).length = n
         | _ => false)
    let core (n : Nat) (q : Iss → Bool) : Iss → Iss → Iss → Bool := fun _ _ c => c.coreArg = n && q c
    let failed : State := (supervising id).modCore 7 (fun x => { x with scan := { x.scan with state := 3 } })
    meets (supervising (fun x => { x with v := x.v ++ [(vKey 12 0, 320), (vKey 12 1, 320), (vKey 14 0, 319), (vKey 14 1, 319)] }))
      ([(.launch { f with a := 2, imm := 0x300000 }, launches 0), plain (.tlbi { z with a := 2, b := 8 }), plain (.tlbi { z with imm := 0x8000000 }),
        plain (.halt { z with a := 4 })] ++
       [.scango { f with a := 12 }, .scanpoll { f with a := 12 }, .scanstop { f with a := 12 },
        .coreret { f with a := 12 }].map (fun i => (i, core 320 (fun _ => true))) ++
       [.scango { f with a := 14 }, .scanpoll { f with a := 14 }, .scanstop { f with a := 14 }].map
         (fun i => (i, core 319 (fun _ => true))) ++
       [(.coreret f, core 7 (fun c => (c.s.getCore 7).scan.state = 0))]) = true ∧
    meets full [(.launch { f with a := 2 }, launches 64)] = true ∧
    meets failed [(.coreret f, core 7 (fun c => (c.s.getCore 7).scan.state = 3 && c.s.mask.getLsbD 7))] = true ∧
    meets { failed with mask := 0 } [(.coreret f, core 7 (fun c => (c.s.getCore 7).scan.state = 3 && !c.s.mask.getLsbD 7))] = true := by
  decide +kernel

/-- The machine of the tests with its cycle counter at n. -/
def late (n : Nat) (s : State) : State := { s with cyc := BitVec.ofNat 64 n }

/-- An operation under way. -/
def pending : Writeback :=
  { idx := 1, op := 3, fn := 4, issued := 0, lat := 0, isVar := true, due := 0, awaits := 0, token := 1, lanes := 3, writes := [],
    reads := [], flags := 0, flagLanes := 0, nextPc := 0 }
/-- A report of a cause, for any entry of the warp. -/
def report (cause : Nat) : Report :=
  { cause := cause, info := 0, info2 := 0, fmask := 0, lanes := 0, amask := 0, order := 0, held := false, engine := false }

theorem test_meets_WarpEvents :
    let s := queues (fun x => { x with pend := [pending], reports := [report 0x501, report 0x908] })
    let hold (h : Nat) : State := queues (fun x => { x with h := [(32, BitVec.ofNat 64 h)], lanes :=
      [(0, { Lane.init with launched := true, hold := some { kind := .hsleep 1, rpc := 0, wake := 5, need := false, group := 0, stall := 0 } }), (1, { Lane.init with launched := true })] })
    (s.getWarp 0 0).pend.find? (fun b => b.idx = 1 && b.isVar && b.awaits = 0 && b.due ≤ s.now) = some pending ∧
    (late 5 (hold 0)).now = 5 ∧
    ((late 5 (hold 0)).getWarp 0 0).heldLanes.filter (fun l => (hsleeping ((late 5 (hold 0)).getWarp 0 0) 5 l).isSome) = [0] ∧
    ((late 5 (hold 0)).getWarp 0 0).lane 0 = { Lane.init with launched := true, hold := some { kind := .hsleep 1, rpc := 0, wake := 5, need := false, group := 0, stall := 0 } } ∧
    handleState (hold 0) 1 0 = .complete ∧
    handleState { hold (2 ^ 52 + 1) with engs := [(1, { Eng.init with owner := some 1, kind := 0, next := 2 })] } 1
      (((hold (2 ^ 52 + 1)).getWarp 0 0).getH 0 1).toNat = .pending ∧
    nextReport (s.getWarp 0 0) isOrphan = some (report 0x501) ∧ (reportEntry (s.getWarp 0 0) (report 0x501)).isSome = true ∧
    (s.getWarp 0 0).owes = false ∧ reportHeir s 0 0 = none ∧
    ((hold (2 ^ 52 + 1)).getWarp 0 0).getH 0 1 = BitVec.ofNat 64 (2 ^ 52 + 1) ∧
    (let u := queues (fun x => { x with table := x.table.map (fun e => { e with wait := .remote 9 5 }) })
     ((late 5 u).getWarp 0 0).table.map (·.wait) = [.remote 9 5] ∧ (late 5 u).now = 5) ∧
    nextReport (s.getWarp 0 0) (fun r => !isOrphan r) = some (report 0x908) ∧
    (reportEntry (s.getWarp 0 0) (report 0x908)).isSome = true := by decide +kernel

/-- A request at an atomic unit. -/
def request (region : Option Nat) : AtomReq :=
  { wg := 0, warp := 0, lane := 0, idx := 1, pa := 0x1000, va := 0x1000, kind := 0, size := 4, aop := 0, b := 1, c := 0, twin := 0, twinVa := 0,
    dst := [], late := [], due := 0, ctx := 1, region := region }

theorem test_meets_MemoryEvents :
    let v : Walk := { core := 0, asid := 1, va := 0x1000, hint := 0, modeS := false }
    let i : Inval := { wg := 0, warp := 0, idx := 1, asid := 1, lo := 0, hi := 0, frames := [] }
    let s := { twoLanes id with walks := [v], invals := [i], atomQ := [request none] }
    let r := late 500000 { bound id 3 2 with atomQ := [request (some 3)], mem := [(0x4000, 1), (0x4040, 5), (0x4043, 7)] ++ tables }
    s.walks = [v] ∧ (∀ x ∈ ([] : List Walk), ¬ (x.asid = v.asid ∧ x.va / 65536 = v.va / 65536)) ∧
    s.invals = [i] ∧ i.hi = 0 ∧ s.atomQ[0]? = some (request none) ∧ atomReady s 0 = true ∧
    diverged r 1 3 = true ∧
    r.atomQ.find? (fun q => q.ctx = 1 && q.region = some 3) = some (request (some 3)) ∧
    s.power = .running ∧ remoteWaits s (.read 5 0x1000 64) = false ∧ (s.wgs.find? 0).isSome = true ∧ (s.getWg 0).alive = true ∧
    inHBM (paLocal 0x1000) = true ∧ paPkg 0x1000 = s.pkgid ∧
    ((queues id).getEng 1).owner ≠ none ∧ coreDie 0 ≠ paDie (0x40000000 * 128) := by decide +kernel

/-- A tile command of the workgroup. -/
def command (i : Instr) (a b c : Nat) : Cmd :=
  { instr := i, num := 1, wg := 0, warp := 0, lane := 0, a := a, b := b, c := c, dd := descs.get 0 0, da := descs.get 0 1, db := descs.get 0 2,
    mr := BitVec.allOnes 256, mc := BitVec.allOnes 256, fmt := (List.range 8).map (formats.get 0), amr := 0, draw := 0, gid := 0, log := false, recBase := 0, recCap := 0,
    recSize := 0, priv := false, promised := 0, cancel := false, begun := false, coll := 0 }

theorem test_meets_EngineEvents :
    let cmd := command (.tzero (tile 0 0 0 0)) 0 0 0
    let staged := (tiled id).modMx 0 (fun m => { m with staged := some cmd })
    let run (c : Cmd) (due : Nat) : RunCmd := { cmd := c, step := 0, total := 1, stepDue := due, xf := 0, corr := false, code := 0 }
    let running (c : Cmd) (due : Nat) : State := (tiled id).modMx 0 (fun m => { m with run := some (run c due) })
    let copy (cancel : Bool) : Cmd := { command (.tcopy { z with imm := 0 }) 0x1000 0x2000 64 with cancel := cancel }
    let queue (c : Cmd) : State := { queues id with engs := [(1, { Eng.init with owner := some 1, kind := 0, next := 2, queue := [c] })] }
    let coll := command (.tcoll z) 0x1000 0x2000 1
    let group : State := { queues id with
      engs := [(3, { Eng.init with owner := some 1, kind := 2, next := 2, queue := [coll] })]
      groups := [(0, { words := [(0, 2), (2, 9)], k := 1 })] }
    let parts : List CollPart := [{ rank := 1, op := 0, count := 1, members := [0, 9], data := [1, 0, 0, 0] }]
    (staged.getCore 0).mx.staged = some cmd ∧ infuserReady staged 0 = true ∧ tileOf cmd.instr = some (8, tile 0 0 0 0) ∧
    ((running cmd 0).getCore 0).mx.run = some (run cmd 0) ∧ (0 : Nat) < parkedDue ∧
    ((running { cmd with cancel := true } parkedDue).getCore 0).mx.run = some (run { cmd with cancel := true } parkedDue) ∧
    (let rev := { command (.reverse z) 0 0 0 with cancel := true }
     ((running rev parkedDue).getCore 0).mx.run = some (run rev parkedDue) ∧ (endReverse (running rev parkedDue) rev 0 .done).fin ≠ some .wait) ∧
    headDue (queue (copy true)) ((queue (copy true)).getEng 1) = true ∧ headDue (queue (copy false)) ((queue (copy false)).getEng 1) = true ∧
    (transfer (queue (copy false)) (copy false) (fun _ => true)).fin = .done ∧
    oldestColl group 0 = some (3, coll) ∧ groupMembers group 0 = [0, 9] ∧ group.pkgid = 0 ∧
    (parts.all (fun p => p.rank < 2 && p.op = 0 && p.count = coll.c && p.members = groupMembers group 0)) = true ∧
    (match engRead group (coll.who group) coll.a (4 * coll.c) with
     | (.ok own, t) => (engWrite t (coll.who group) coll.b (collResult 0 coll.c [own, [1, 0, 0, 0]])).fin = .done
     | _ => false) = true := by decide +kernel

/-- A bind record for the workgroup. -/
def bind (kind : Nat) : Bind := { kind := kind, core := 0, ctx := 1, qgp := 0, qgn := 0, lslot := 0, wg := 0 }
/-- With a bind record at the head of core 0's. -/
def binding (kind : Nat) (s : State) : State := { s with slots := [(0, [bind kind])] }

theorem test_meets_BindingEvents :
    let s := binding 0 { twoLanes id with wgs := [], warps := [] }
    let stopping (late_ : Bool) : State := (twoLanes id).modWg 0 (fun w => { w with phase := .stopping 0 late_ })
    let ended_ : State := { (twoLanes id).modWarp 0 0 (fun x => { x with table := [] }) with warps := [(0, { Warp.init with lanes := [(0, { Lane.init with launched := true, exited := true })] })] }
    firstBind s 0 = some (bind 0) ∧ createReady s (bind 0) = true ∧
    firstBind (binding 2 (twoLanes id)) 0 = some (bind 2) ∧ yieldReady (binding 2 (twoLanes id)) (bind 2) = true ∧
    ((binding 2 (twoLanes id)).wgs.find? (wgKey 0 0)).isSome = true ∧ ((binding 2 (twoLanes id)).getWg (wgKey 0 0)).alive = true ∧
    firstBind (binding 2 { twoLanes id with wgs := [] }) 0 = some (bind 2) ∧ yieldReady (binding 2 { twoLanes id with wgs := [] }) (bind 2) = true ∧
    firstBind (binding 3 (twoLanes id)) 0 = some (bind 3) ∧ firstBind (binding 4 (twoLanes id)) 0 = some (bind 4) ∧
    firstOverdue (late (3 * yieldBudget) (stopping false)) 0 = true ∧
    ((unitOf (stopping false) 0 Wg.alive).any (fun k => ((stopping false).getWg k).swapStop)) = false ∧
    secondOverdue (late (3 * yieldBudget) (stopping true)) 0 = true ∧
    retireReady ended_ 0 = true ∧ (ended_.wgs.find? 0).isSome = true := by decide +kernel

/-- A stopped workgroup in a context with a save pool. -/
def stoppedUnit (nwarps : Nat) : State :=
  let s := twoLanes (fun x => { x with table := x.table.map (fun e => { e with stopped := true }) })
  ({ s with launches := [(0, placedLaunch)] }.modWg 0 (fun w => { w with phase := .stopping 0 false, nwarps := nwarps })).modCtx 1
    (fun x => { x with poolBase := 0x10000000, poolLen := 0x4000000 })

theorem test_meets_workgroupSave :
    saveReady (stoppedUnit 1) 0 = true ∧
    (unitRoom (preparedUnit (stoppedUnit 1) (unitOf (stoppedUnit 1) 0 Wg.alive)) 0 (unitOf (stoppedUnit 1) 0 Wg.alive)).isSome = true := by
  decide +kernel

/-- A workgroup without warps whose saved image, 2,304 bytes at 0x121C_0000, is a header (R96) and a workgroup block of zeros. -/
def savedUnit : State :=
  let s := (twoLanes id).modWg 0 (fun w => { w with phase := .saved 0x121C0000 2304, nwarps := 0 })
  binding 1 { s with
    launches := [(0, placedLaunch)]
    mem := tables ++ [(0, 69), (1, 72), (2, 73), (3, 67), (4, 1), (9, 9), (16, 1), (33, 1), (56, 201), (57, 4), (58, 227), (59, 1)].map
      (fun e => (0x121C0000 + e.1, BitVec.ofNat 8 e.2)) }

theorem test_meets_bindResume :
    firstBind savedUnit 0 = some (bind 1) ∧ resumeReady savedUnit (bind 1) = true ∧
    ((groupBinds savedUnit (bind 1)).all (fun x => (checkedImage savedUnit (wgKey x.lslot x.wg)).isSome)) = true := by decide +kernel

theorem test_meets_LaunchEvents :
    let q : QRec := { lid := 7, bytes := zeros 256, host := true, owner := true, prio := 0 }
    let queued := (twoLanes id).modCtx 1 (fun x => { x with queues := [(0, [q])], poolBase := 0x10000000, poolLen := 0x4000000 })
    let fresh := { queued with wgs := [], warps := [], launches := [(0, { placedLaunch with nextWg := 0 })] }
    let done_ := { queued with wgs := [], warps := [], launches := [(0, { placedLaunch with ndone := 1 })] }
    let point (s : State) := s.modWg 0 (fun w => { w with det := { w.det with arrived := true } })
    let clash := (point (det id)).modWg 0 (fun w => { w with det := { w.det with writes := [(0x9000, 1)], vas := [(0x9000 / 32, 0x9000 / 32)] } })
    (queued.getCtx 1).queues.get [] 0 = [q] ∧ (List.range 1024).find? (fun i => (queued.launches.find? i).isNone) = some 1 ∧
    checkDue fresh 0 = false ∧ (fresh.getLaunch 0).lid ≠ 0 ∧ swapVictim fresh 0 = none ∧
    (match planOf fresh 0 with
     | .bind _ => true
     | _ => false) = true ∧
    launchDone done_ 0 = true ∧ (done_.getLaunch 0).failing = false ∧ (done_.getLaunch 0).reason = 0 ∧ (done_.getLaunch 0).failed = 0 ∧
    mergeReady (point (det id)) 0 = true ∧ ((point (det id)).getWg 0).det.direct = false ∧
    (match mergeRun (point (det id)) 0 with
     | .ok _ => true
     | .error _ => false) = true ∧
    mergeReady (clash.modLaunch 0 (fun l => { l with writers := [(0x9000, { plain := some 3, reds := [] })] })) 0 = true ∧
    (match mergeRun (clash.modLaunch 0 (fun l => { l with writers := [(0x9000, { plain := some 3, reds := [] })] })) 0 with
     | .ok _ => false
     | .error _ => true) = true ∧
    bufferReady ((det id).modWg 0 (fun w => { w with det := { w.det with held := true } })) 0 = true := by decide +kernel

theorem test_meets_CoreEvents :
    let retiring := { (twoLanes id).modCore 5 (fun x => { x with retiring := true }) with wgs := [], warps := [], launches := [] }
    let above := { ((twoLanes id).modCore 0 (fun x => { x with retiring := true })).modCtx 1 (fun x => { x with poolBase := 0x10000000, poolLen := 0x4000000 }) with
      launches := [(0, placedLaunch)] }
    let scan (st ended : Nat) := (twoLanes id).modCore 5 (fun x => { x with scan := { Scan.init with state := st, ended := ended } })
    let wants := (twoLanes id).modCore 5 (fun x => { x with withdrawn := true, scan := { Scan.init with why := 4 } })
    let commits (l : List Nat) (why : Nat) : State :=
      { (twoLanes id).modCore 5 (fun x => { x with scan := { Scan.init with why := why } }) with
        mapStat := 1, mapScan := l, mapNew := BitVec.allOnes 320, mask := BitVec.allOnes 320 }
    renumberReady retiring 5 = true ∧ drainNext retiring 5 = (none, true) ∧ renumberReady above 0 = true ∧ (drainNext above 0).1.isSome = true ∧
    scanOver (scan 1 0) 5 = true ∧ scanOver wants 5 = false ∧ lastingNext wants 5 = .scan ∧ ((scan 1 9).getCore 5).scan.state = 1 ∧
    mapReady (commits [] 0) = true ∧ mapScanNext (commits [] 0) = none ∧ drainFrom (commits [] 0) = none ∧
    mapReady (commits [5] 3) = true ∧ mapScanNext (commits [5] 3) = some 5 ∧
    (let s := { twoLanes id with errs := [(errKey 4 0, { count := 1, opened := 0, thr := 2, win := 0 })] }
     s.errs.find? (errKey 4 0) = some { count := 1, opened := 0, thr := 2, win := 0 } ∧
     windowOver s { count := 1, opened := 0, thr := 2, win := 0 } = true) := by decide +kernel

/-- An open session of slot 2 in context 1, and the owner; the port answers on the address 1. -/
def session : Session :=
  { id := 9, slot := 2, ctx := 1, peer := 4, here := 1, e := 41, unacked := 1, unackedSince := 0, lastNack := 0, held := [] }
def ported (s : State) : State :=
  { s with linkLocal := false, ipctl := 2, nv := { s.nv with ipaddr := List.replicate 15 0 ++ [1] } }
def hosted : State := { ported (twoLanes id) with sessions := [session], owner := some 2 }
/-- A frame with the header of R380 and its CRC. -/
def frameOf (sess seq ty addr : Nat) (payload : List Byte) : Frame :=
  let h := toLE 2 0x4845 ++ toLE 1 1 ++ toLE 1 ty ++ toLE 4 sess ++ toLE 4 seq ++ zeros 4 ++ toLE 2 payload.length ++ zeros 1 ++
    toLE 1 1 ++ toLE 10 addr ++ zeros 2 ++ payload
  { peer := 4, dst := 1, port := 19520, ext := false, tags := 0, data := h ++ toLE 4 (crc32c h) }
/-- The session's next frame. -/
def frame (ty addr : Nat) (payload : List Byte) : Frame := frameOf 9 41 ty addr payload

/-- `Claim.inTurn`, as a test. -/
def inTurn (s : State) (fr : Frame) (x : Session) (ty : Nat) (owned : Bool) : Bool :=
  acceptFrame s fr = some x && fr.ftype = ty && fr.seq = x.e && fr.zeroOk && fr.ctx = x.ctx && (!owned || s.owner = some x.slot)
theorem inTurn_claim {s : State} {fr : Frame} {x : Session} {ty : Nat} {o : Bool} (h : inTurn s fr x ty o = true) :
    Claim.inTurn s fr x ty o := by
  simp only [inTurn, Bool.and_eq_true, decide_eq_true_eq, Bool.or_eq_true, Bool.not_eq_true'] at h
  refine ⟨h.1.1.1.1.1, h.1.1.1.1.2, h.1.1.1.2, h.1.1.2, h.1.2, fun ho => ?_⟩
  rcases h.2 with h | h
  · simp [ho] at h
  · exact h

/-- CRC-32C of the ASCII digits 1 to 9: the check value published for that CRC, which R380 names. -/
theorem test_crc32c : crc32c ((List.range 9).map (fun i => BitVec.ofNat 8 (0x31 + i))) = 0xE3069283 := by decide +kernel

theorem test_meets_HostRequests :
    let nobody : State := { hosted with owner := none }
    let u := Claim.heard hosted session
    inTurn hosted (frame 1 0x7FFFFFFE [1, 2]) session 1 true = true ∧ inTurn hosted (frame 2 0x1000 [0, 0x20, 0, 0]) session 2 false = true ∧
    inTurn hosted (frame 3 0x2000 []) session 3 true = true ∧ inTurn hosted (frame 4 0 (zeros 256)) session 4 true = true ∧
    inTurn nobody (frame 0x24 0 []) session 0x24 false = true ∧ inTurn hosted (frame 0x25 0 [2]) session 0x25 true = true ∧
    inTurn hosted (frame 0x26 0 [1]) session 0x26 false = true ∧ inTurn hosted (frame 0x26 0 [0]) session 0x26 false = true ∧
    hostHeld hosted (frame 1 0x7FFFFFFE [1, 2]) 2 rightW = false ∧ (hostParts u (u.getCtx 1).asid 0x7FFFFFFE 2 rightW).isSome = true ∧
    meetsObject (u.getCtx 1) 0x7FFFFFFE 2 = false ∧ hostHeld hosted (frame 2 0x1000 [0, 0x20, 0, 0]) 8192 rightR = false ∧
    readLength (frame 2 0x1000 [0, 0x20, 0, 0]) = 8192 ∧ (hostParts u (u.getCtx 1).asid 0x1000 8192 rightR).isSome = true ∧
    (match hostParts u (u.getCtx 1).asid 0x2000 8 rightW with
     | some [t] => blockPoison u t.pa = false
     | _ => false) = true ∧ hostHeld hosted (frame 3 0x2000 []) 8 rightW = false ∧ (0x2000 : Nat) ≠ (u.getCtx 1).loadObj ∧
    (frame 4 0 (zeros 256)).payload.length = 256 ∧ ((u.getCtx 1).queues.get [] 0).length < 256 ∧
    acceptFrame hosted (frame 99 0 []) = some session ∧ (frame 99 0 []).seq = session.e ∧ (frame 99 0 []).known = false ∧
    (late 4200 hosted).session 9 = some session ∧ ackDue (late 4200 hosted) session = true ∧
    nobody.electionDone = false ∧ ({ nobody with electionDone := true }).electionDone = true ∧
    u.sessions.any (fun y => y.slot = leAt [2] 0 1) = true := by decide +kernel

theorem test_meets_ManagementRequests :
    let u := Claim.heard hosted session
    inTurn hosted (frame 5 0 (zeros 4)) session 5 false = true ∧ (mgmtReg u 0).isSome = true ∧ (mgmtReg u 0x2C).isSome = true ∧
    (mgmtReg u (0x10000 + 8192 * 255 + 4 * 1024)).isSome = true ∧ mgmtReg u 0x1C = none ∧ mgmtReg u (0x10000 + 4 * 1025) = none ∧
    ([0, 0xC, 0x10, 0x1C, 0x2C, 0x30, 0x10000 + 8192 * 255 + 4 * 1024].all (fun a =>
      inTurn hosted (frame 5 a (zeros 8)) session 5 true && (frame 5 a (zeros 8)).payload.length = 8 && (frame 5 a (zeros 8)).addr = a)) = true ∧
    (0x2C : Nat) = 0x20 + 4 * 3 := by
  decide +kernel

theorem test_meets_HostPortAndSessions :
    let s : State := ported (twoLanes id)
    let hello : Frame := frameOf 0 0 0x20 0 (zeros 128)
    let prove : Frame := frameOf 0 0 0x22 0 (zeros 64)
    let h : Handshake := { peer := 4, slot := 2, ctx := 1, create := false, hostNonce := [], devNonce := [], key := [], since := 0 }
    let shaking : State := { ported (twoLanes id) with handshakes := [h] }
    ({ twoLanes id with ipctl := 1 }).ipctl = 1 ∧ s.open_ = true ∧ answersOn s 1 = true ∧ answersOn s 2 = false ∧
    (taken0 s hello 0x20 = true ∧ helloOk hello = true ∧ s.nv.attKey = true) ∧
    taken0 shaking prove 0x22 = true ∧ shaking.handshakes.find? (fun h => h.peer = prove.peer && !handshakeOver shaking h) = some h ∧
    prove.zeroOk = true ∧
    (late 2100000000 shaking).handshakes[0]? = some h ∧ h.since + 2100000000 ≤ (late 2100000000 shaking).now ∧
    electionOver { twoLanes id with electionOpen := true } = true ∧ (7 : Nat) < 8 ∧ hosted.owner = some 2 ∧
    hosted.ownerSeen + 21000000000 ≤ (late 21000000000 hosted).now := by decide +kernel

/-- The request bytes of R393: OPC, kernel, container address and length. -/
def requestBytes (opc caddr clen : Nat) : List Byte := toLE 4 opc ++ zeros 4 ++ toLE 8 caddr ++ toLE 8 clen ++ zeros 40

theorem test_meets_LoadRequests :
    let asks (b : List Byte) : State :=
      { (twoLanes id).modCtx 1 (fun x => { x with requests := [b], loads := [{ id := 0, kernels := [placedKernel, { placedKernel with form := 1 }], res := 0, dest := 0, dlen := 0 }] }) with wgs := [], warps := [], launches := [] }
    (∀ n ∈ [1, 2, 3], (headReq (asks (requestBytes n 0 0)) 1).map (·.opc) = some n) ∧
    (let s := asks (requestBytes 3 0 0)
     (loadOf (popReq s 1) 1 0).isSome = true ∧ ((loadOf (popReq s 1) 1 0).bind (fun L => L.kernels[0]?)).map (·.form) = some 0 ∧
     ((loadOf s 1 0).bind (fun L => L.kernels[1]?)).map (·.form) = some 1 ∧ ctxBusy (popReq s 1) 1 = false) ∧
    (let s := asks (requestBytes 4 0x10000000 0x4000000)
     (headReq s 1).map (fun r => (r.opc, r.caddr % 2 ^ 21, r.clen % 2 ^ 21)) = some (4, 0, 0) ∧ (2 : Nat) ^ 26 ≤ 0x4000000 ∧
     ctxBusy (popReq s 1) 1 = false) := by decide +kernel

/-- A supervisor page of 2 GiB, readable and writable: the page that a save pool needs. -/
theorem test_meets_setSavePool :
    let s := { twoLanes id with mem := tables.dropLast ++ [(0x130000, 0x3F)] }
    (match (walk s 0 1 0x10000000).1 with
     | .ok e => e.priv && e.rd && e.wr && e.mt = 0 && e.size = 31
     | .error _ => false) = true := by decide +kernel

/-- The smallest container: a header (R390) and a record table of one empty data record, unsigned. -/
def container : List Byte :=
  toLE 4 0x30584845 ++ toLE 2 1 ++ toLE 2 1 ++ zeros 8 ++ zeros 4 ++ toLE 4 64 ++ toLE 4 128 ++ toLE 4 128 ++ zeros 32 ++
  (toLE 2 8 ++ zeros 14) ++ zeros 48

/-- The request to load it from 0x9000, with no code area and its result at 0xA000. -/
def loadAsked : LoadReq := { opc := 1, kix := 0, caddr := 0x9000, clen := 128, dest := 0, dlen := 0, res := 0xA000, loadId := 0 }
def asking (n clen : Nat) (launched : Bool) : State :=
  { (twoLanes id).modCtx 1 (fun x => { x with
      requests := [toLE 8 n ++ toLE 8 0x9000 ++ toLE 8 clen ++ zeros 16 ++ toLE 8 0xA000 ++ zeros 16]
      loads := if n = 1 then [] else [{ id := 0, kernels := [placedKernel], res := 0, dest := 0, dlen := 0 }] }) with
    wgs := [], warps := [], launches := if launched then [(0, { placedLaunch with lr := { placedLaunch.lr with sect := placedKernel.sect } })] else []
    mem := ((container.zipIdx).map (fun b => (0x9000 + b.2, b.1))).filter (fun c => c.2 ≠ 0) ++ tables }

/-- A load that is accepted, where policy asks for no signature (R390, R524), and one that is refused; a load that cannot be read;
an unload of a load that nothing uses, and of one that a launch names. -/
theorem test_meets_loadAccepted (h : bitB (Config.policyByte 8).toNat 0 = false) :
    headReq (asking 1 128 false) 1 = some loadAsked ∧ kettleRead (popReq (asking 1 128 false) 1) 1 0x9000 128 = some container ∧
    loadReason (popReq (asking 1 128 false) 1) 1 loadAsked container = 0 := by
  have hs : signatureOk container = true := by
    have hl : (parseHead container).siglen = 0 := by decide +kernel
    simp only [signatureOk, hl, h]; rfl
  refine ⟨by decide +kernel, by decide +kernel, ?_⟩
  simp only [loadReason, hs]
  decide +kernel

theorem test_meets_loadRefusedAndUnload :
    (headReq (asking 1 0 false) 1).map (fun r => (r.opc, r.clen)) = some (1, 0) ∧
    kettleRead (popReq (asking 1 0 false) 1) 1 0x9000 0 = some [] ∧
    loadReason (popReq (asking 1 0 false) 1) 1 { loadAsked with clen := 0 } [] = 1 ∧
    kettleRead (popReq { asking 1 128 false with mem := [] } 1) 1 0x9000 128 = none ∧
    ((asking 1 128 false).getCtx 1).asid = 1 ∧
    (headReq (asking 2 0 false) 1).map (·.opc) = some 2 ∧
    (let t := popReq (asking 2 0 false) 1
     (loadOf t 1 0).map (sectionsUsed t 1) = some false ∧ (t.getCtx 1).tvec = none) ∧
    (let t := popReq (asking 2 0 true) 1
     (loadOf t 1 0).map (sectionsUsed t 1) = some true) := by decide +kernel

theorem test_meets_SupplyAndLinks :
    let s : State := twoLanes id
    s.runs = true ∧ s.level < 1 ∧ 0 < ({ s with level := 2 }).level ∧ ({ s with power := .hold 0 }).power = .hold 0 ∧ s.power ≠ .off ∧
    isLink 9 = true ∧ isLink 16 = true ∧ (linkOf s 31).lanes ≠ 0 ∧
    (linkOf { s with links := [(16, { retraining := true, lanes := 4 })] } 16).retraining = true := by decide +kernel

theorem test_meets_ResetAndAlarms :
    ({ State.reset with power := .booting true }).power = .booting true ∧ (twoLanes id).power ≠ .off := by decide +kernel

theorem test_meets_EncodingAndDecodingAgree :
    (opFn (.iadd z) ≠ none ∧ (Instr.iadd z).rowOk = true) ∧ (opFn (.mtsFmt { z with imm := 15 }) ≠ none ∧ (Instr.mtsFmt { z with imm := 15 }).rowOk = true) ∧
    (wordAt 2 0 0).toNat < 2 ^ 94 ∧ decodeWord (wordAt 2 0 0) = .ok (.iadd (fieldsAt 0)) ∧ opFn (.softError (.memory 0)) = none := by decide +kernel

theorem test_meets_StoredForms :
    (∀ code ∈ [0, 1, 2, 3], (1 : CWord).toNat < 2 ^ (8 * formLength code - 2)) ∧ (BitVec.ofNat 96 (2 ^ 93) : CWord).toNat < 2 ^ (8 * formLength 3 - 2) ∧
    (expandForm ([0x09, 0xC0, 0xC0, 0x40, 0x80, 0] : List Byte)).isSome = true := by decide +kernel


/-! ### The machine as a whole -/

/-- The states at an issue whose next form is `form`: the entry that goes, its warp, and its line. -/
def goes (s : State) : Option (Ready × Warp × ICLine) :=
  match s.power, nextOutside s, due s, dueCollective s, pick s with
  | .running, none, none, none, some r =>
    let x := s.getWarp r.wg r.warp
    match icLine s (s.getWg r.wg).core (s.wgAsid r.wg) r.entry.pc.toNat x.modeS with
    | some l => if todo s r.wg r.warp x r.entry = some r.todo && l.fault = 0 && !l.poison then some (r, x, l) else none
    | none => none
  | _, _, _, _, _ => none

/-- The stored IADD of R190; the word of the reserved OP 0x06; a QPF word of OP 0 and FN 0; and no line. -/
theorem test_meets_StepRunsDecoded :
    (match goes (placed [0x09, 0xC0, 0xC0, 0x40, 0x80, 0] id) with
     | some (r, x, l) =>
       !runsQpf (placed [0x09, 0xC0, 0xC0, 0x40, 0x80, 0] id) r.wg x.modeS && bundleForms l.bytes = some [4] && r.entry.pc.toNat % 64 = 4 &&
       (match decodeBytes (l.bytes.drop 4) with
        | .ok (i, _) => (i.fields.map (fun f => stopsHere x r.entry f.sp)) = some false
        | .error _ => false)
     | none => false) = true ∧
    (match goes (placed [0x18, 0x00, 0xC0, 0x40] id) with
     | some (r, x, l) =>
       (match expandForm (l.bytes.drop 4) with
        | some (w, _) => decodeWord w = .error (.reservedOpFn 6 0) && !stopsHere x r.entry (fieldsOf w).sp
        | none => false)
     | none => false) = true ∧
    (let s := (placed (zeros 12) (fun x => { x with table := [Entry.fresh (BitVec.ofNat 80 placedBase) (BitVec.allOnes 32)] })).modWg 0 (fun w => { w with qpf := true })
     let s := s.modCore 0 (fun c => { c with icache := c.icache.map (fun e => (e.1, { e.2 with bytes := zeros 64 })) })
     match goes s with
     | some (r, x, l) =>
       runsQpf s r.wg x.modeS && (r.entry.pc.toNat - (sectionOf s r.wg x.modeS).1) % 16 = 0 && !stopsHere x r.entry false &&
       (qpfForm (l.bytes.drop (r.entry.pc.toNat % 64))).instr.isSome && (qpfForm (l.bytes.drop (r.entry.pc.toNat % 64))).fails = []
     | none => false) = true ∧
    (let s := (placed [] id).modCore 0 (fun c => { c with icache := [] })
     match pick s with
     | some r => (icLine s (s.getWg r.wg).core (s.wgAsid r.wg) r.entry.pc.toNat (s.getWarp r.wg r.warp).modeS).isNone &&
         todo s r.wg r.warp (s.getWarp r.wg r.warp) r.entry = some r.todo && (due s).isNone && (nextOutside s).isNone && (dueCollective s).isNone
     | none => false) = true ∧
    (let s := placed [0x09, 0xC0, 0xC0, 0x40, 0x80, 0] id
     s.warps = [(warpKey 0 0, s.getWarp 0 0)] ∧ (s.getWarp 0 0).table.length = 1 ∧ (s.getWg 0).alive = true ∧ (s.getWg 0).det.held = false ∧
     partOf s 0 (s.getWarp 0 0) ∉ s.served ∧ nextReport (s.getWarp 0 0) (fun _ => true) = none ∧ ((s.getWarp 0 0).table[0]?.bind (todo s 0 0 (s.getWarp 0 0))).isSome = true) := by decide +kernel

theorem test_meets_EveryStepGoesOn :
    (twoLanes id).power ≠ .off ∧ (twoLanes id).power ≠ .recovery ∧ ({ State.reset with power := .off }).power = .off ∧
    ({ State.reset with power := .recovery }).agenda = [] ∧ State.reset.power = .reset := by decide +kernel

/-- The stages of the common checks, each reached: ST = 7, a privileged instruction in mode P and in mode S, a reserved flag
set, a set above those declared, no active lane, and a source of which an earlier write is under way or which is poisoned. -/
theorem test_meets_CommonChecks :
    let few (s : State) : State := { s with launches := [(0, { placedLaunch with lr := { placedRecord with sets := 2 } })] }
    let passed (s : State) (i : Instr) (p : Iss → Bool) : Bool :=
      match issuing s i with
      | some c => !c.warp.owes && p c
      | none => false
    let late_ : Writeback := { idx := 0, op := 2, fn := 0, issued := 0, lat := 4, isVar := false, due := 4, awaits := 0, token := 0,
                               lanes := 3, writes := [.v 0 4 (some 0), .v 1 4 (some 0)], reads := [], flags := 0, flagLanes := 0, nextPc := 0 }
    passed (twoLanes id) (.iadd { z with st := 7 }) (fun c => c.f.st = 7 && shape (.iadd { z with st := 7 }) ≠ none) = true ∧
    passed (twoLanes id) (.eret z) (fun c => Claim.level c < privLevel (.eret z)) = true ∧
    passed (twoLanes (fun x => { x with modeS := true })) (.coreret z) (fun c => Claim.level c = 1 && Claim.level c < privLevel (.coreret z)) = true ∧
    passed (twoLanes id) (.nop { z with fs := 1 }) (fun c => c.f.st ≠ 7 && privLevel (.nop z) ≤ Claim.level c && encodingFail c (.nop { z with fs := 1 }) = some (5, .fs)) = true ∧
    (WellFormed (.rjopen { z with imm := 0x300000 }) ∧
     passed (few (twoLanes id)) (.rjopen { z with imm := 0x300000 }) (fun c => (declFail c (.rjopen { z with imm := 0x300000 })).isSome) = true) ∧
    (WellFormed (.iadd { z with d := 3, a := 4, b := 2, gn := true }) ∧
     passed (twoLanes id) (.iadd { z with d := 3, a := 4, b := 2, gn := true }) (fun c => c.act = [] && declFail c (.iadd { z with d := 3, a := 4, b := 2, gn := true }) = none) = true) ∧
    (WellFormed (.iadd { z with d := 3, a := 4, b := 2 }) ∧
     passed (twoLanes (fun x => { x with wcr := x.wcr ||| 0xFFFFFFFF#32, pend := [late_] })) (.iadd { z with d := 3, a := 4, b := 2 })
       (fun c => c.act ≠ [] && declFail c (.iadd { z with d := 3, a := 4, b := 2 }) = none && (stallTrap c (.iadd { z with d := 3, a := 4, b := 2 })).isSome) = true) ∧
    passed (twoLanes (fun x => { x with poison := [(poisonV 4 1, true)] })) (.iadd { z with d := 3, a := 4, b := 2 })
       (fun c => c.act ≠ [] && stallTrap c (.iadd { z with d := 3, a := 4, b := 2 }) = none && (poisonTrap c (.iadd { z with d := 3, a := 4, b := 2 })).isSome) = true := by
  decide +kernel

/-- A trap in mode S, without a supervisor, with a frame that cannot be written, and with one that can. -/
theorem test_meets_TrapEntry :
    let s (g : Warp → Warp) (tv : Option Nat) : State :=
      { (twoLanes (fun x => g { x with tfbase := 0x5000 })).modCtx 1 (fun x => { x with tvec := tv }) with mem := tables.dropLast ++ [(0x130000, 0x3F)] }
    let t : Trap := { cls := 2, reason := 1, info := 0, fmask := 3 }
    let write (s : State) : Put :=
      let s0 := s.modWarp 0 0 Warp.flush
      superWrite s0 0 (s0.getWarp 0 0).tfbase (frameBytes s0 0 0 t 3 3 (placedBase + 4) false)
    t.cls ≠ 6 ∧
    (∀ u ∈ [s (fun x => { x with modeS := true }) none, s id none, s (fun x => { x with tfbase := 0x90000000 }) (some 0x20000), s id (some 0x20000)],
      (((u.modWarp 0 0 Warp.flush).getWarp 0 0).entryAt (BitVec.ofNat 80 (placedBase + 4))).map (·.mask) = some 3) ∧
    ((s (fun x => { x with modeS := true }) none).getWarp 0 0).modeS = true ∧ ((s id none).getWarp 0 0).modeS = false ∧
    ((s id none).getCtx 1).tvec = none ∧ (match write (s (fun x => { x with tfbase := 0x90000000 }) (some 0x20000)) with
     | .fault => true
     | _ => false) = true ∧
    ((s id (some 0x20000)).getCtx 1).tvec = some 0x20000 ∧ (match write (s id (some 0x20000)) with
     | .done _ => true
     | _ => false) = true ∧
    poisonedSlots ((s id (some 0x20000)).getWarp 0 0) 3 = [] := by decide +kernel

/-- An addition's issue: nothing deadlocks, something is under way, and its lanes go on. -/
theorem test_meets_IssueFrame :
    let i : Instr := .iadd { z with d := 3, a := 4, b := 2, st := 1 }
    (match issuing (twoLanes id) i with
     | some c =>
       let o : Out := { s := c.s, writes := [.v 0 3 (some 1)] }
       !rejoinDeadlock ((commit c i { flagged := false, run := fun _ => .wait } o).getWarp c.wg c.w) && c.f.st ≠ 0 && o.moves = [] && c.entry.mask ≠ 0 &&
       latOf i = some 4 && fixedLat i = some 4 && !namesStream i && c.strm = []
     | none => false) = true := by decide +kernel

theorem test_meets_OperationsComplete :
    let b : Writeback := { idx := 0, op := 2, fn := 0, issued := 0, lat := 4, isVar := false, due := 4, awaits := 0, token := 2, lanes := 3,
                           writes := [.v 0 4 (some 9), .k 1 (some 7), .h 2 1 (some 5), .p 3 2 true], reads := [], flags := 1, flagLanes := 0, nextPc := 0 }
    let x := (twoLanes (fun x => { x with pend := [b], v := [] })).getWarp 0 0
    Sparse.sorted x.v = true ∧ Sparse.sorted x.k = true ∧ Sparse.sorted x.h = true ∧ Sparse.sorted x.p = true ∧ Sparse.sorted x.tokens = true ∧
    RegWrite.k 1 (some 7) ∈ b.writes ∧ RegWrite.v 0 4 (some 9) ∈ b.writes ∧ RegWrite.h 2 1 (some 5) ∈ b.writes ∧ RegWrite.p 3 2 true ∈ b.writes ∧
    b ∈ x.pend ∧ b.flagLanes = 0 ∧ ({ b with flagLanes := 1 } : Writeback).flagLanes ≠ 0 ∧ b.due ≤ 4 ∧ (3 : Nat) < b.due ∧
    (let s : State := { twoLanes id with warps := [], wgs := [], launches := [] }
     s.power = .running ∧ nextOutside s = none ∧ due s = none ∧ dueCollective s = none ∧ pick s = none ∧ s.warps.all (fun y => y.2.chain.isNone) = true) := by
  decide +kernel

theorem test_meets_MemoryBytes :
    let s := twoLanes id
    Memory.wf s.mem = true ∧ (∀ k < 8, ownHub s (0x5000 + k) = false) ∧ ownHub s 0x4FFF = false ∧ ((s.getCore 0).l1.find? 0x5003) = none ∧
    l1Present (s.getCore 0) 0x5000 = false ∧ (l1Room s 0 (0x5000 / 128)).isSome = true ∧
    ((s.getCore 0).setOf (0x5000 / 128)).length < (s.getCore 0).ways ∧
    l1Present ((l1Store s 0 0x5000 [(1, 0xFF)] 0 0 1 0x5000).getCore 0) 0x5000 = true ∧
    hintAllocates 0 0 = true ∧ ([(1, 0xFF), (2, 0x0F)] : List (Byte × Byte))[1]? = some (2, 0x0F) ∧ inHub (paLocal 0x5000) = false := by decide +kernel

theorem test_meets_IntegerFormsAndFields :
    (5 : Nat) < 2 ^ 32 ∧ (1 : Nat) ≤ 5 % 2 ^ 7 ∧ 5 % 2 ^ 7 < 32 ∧ (31 : Nat) < 32 ∧
    meets (twoLanes id) [plain (.isat { z with d := 3, a := 4, b := 2 }), plain (.bfe { z with d := 3, a := 4, b := 2 }),
                         plain (.bfi { z with d := 3, a := 4, b := 2, c := 8 })] = true := by decide +kernel

theorem test_meets_MemoryStaysCanonical :
    let s := { placed [0x09, 0xC0, 0xC0, 0x40, 0x80, 0] (withV [(1, 5), (2, 6)]) with mem := [(0x5000, 7), (0x5001, 9)] }
    Memory.wf s.mem = true ∧ (match step s with
      | .next t => t.mem.length == 2
      | _ => false) = true := by decide +kernel

end Sys2Proof.Tests
end

section
/-!
Stored forms (R190): what the bytes of a stored form say of its word, both ways, and the fields that a short form cannot carry.
-/

namespace Sys2Proof

/-! ### Little-endian numbers and length codes -/

/-- The bytes bound the number they hold. -/
theorem ofLE_lt (bs : List Byte) : ofLE bs < 256 ^ bs.length := by
  induction bs with
  | nil => simp [ofLE]
  | cons b bs ih =>
    have hb := b.isLt
    simp only [ofLE, List.length_cons, Nat.pow_succ]
    omega

/-- The length code stands in the first byte: the others do not reach bits [1:0]. -/
theorem ofLE_cons_mod_four (b : Byte) (bs : List Byte) : ofLE (b :: bs) % 4 = b.toNat % 4 := by
  simp only [ofLE]; omega

/-- The carried bits and the two bits of the code fill the bytes. -/
theorem pow_256_eq (n : Nat) (hn : 0 < n) : 256 ^ n = 4 * 2 ^ (8 * n - 2) := by
  calc 256 ^ n = 2 ^ (8 * n) := by rw [Nat.pow_mul]
    _ = 2 ^ (2 + (8 * n - 2)) := by congr 1; omega
    _ = 4 * 2 ^ (8 * n - 2) := by rw [Nat.pow_add]

/-- The four lengths, for every code. -/
theorem formLength_cases (code : Nat) :
    formLength code = 4 ∨ formLength code = 6 ∨ formLength code = 8 ∨ formLength code = 12 := by
  unfold formLength; split_ifs <;> simp

/-- The lengths in the order of their codes. -/
theorem formLength_eq_getD : ∀ code < 4, formLength code = [4, 6, 8, 12].getD code 0 := by decide

/-! ### From bytes to the word -/

/-- What the decoder reads at the head of `b :: bs`: as many bytes as `b`'s code asks for, the bits above the code. -/
theorem expandForm_cons_eq_some (b : Byte) (bs : List Byte) (w : CWord) (n : Nat) :
    expandForm (b :: bs) = some (w, n) ↔
      formLength (b.toNat % 4) = n ∧ n ≤ (b :: bs).length ∧ BitVec.ofNat 96 (ofLE ((b :: bs).take n) / 4) = w := by
  simp only [expandForm]
  split
  next h => simp only [reduceCtorEq, false_iff]; omega
  next h =>
    simp only [Option.some.injEq, Prod.mk.injEq]
    constructor
    · rintro ⟨hw, rfl⟩
      exact ⟨rfl, by omega, hw⟩
    · rintro ⟨rfl, -, hw⟩
      exact ⟨hw, rfl⟩

/-- Bytes as long as their own code says are a stored form, whatever follows them. -/
theorem expandForm_append (bs rest : List Byte) (h : formLength (ofLE bs % 4) = bs.length) :
    expandForm (bs ++ rest) = some (BitVec.ofNat 96 (ofLE bs / 4), bs.length) := by
  cases bs with
  | nil => have := formLength_cases (ofLE [] % 4); rw [List.length_nil] at h; omega
  | cons b bs =>
    rw [ofLE_cons_mod_four] at h
    refine (expandForm_cons_eq_some b (bs ++ rest) _ _).mpr ⟨h, by simp, ?_⟩
    rw [← List.cons_append, List.take_left]

/-- `n` bytes carry `8n - 2` bits beside the code. -/
theorem ofLE_take_div_four_lt (bs : List Byte) (n : Nat) (hn : 0 < n) : ofLE (bs.take n) / 4 < 2 ^ (8 * n - 2) := by
  have hlt := ofLE_lt (bs.take n)
  have hle : 256 ^ (bs.take n).length ≤ 256 ^ n := Nat.pow_le_pow_right (by omega) (by simp)
  have := pow_256_eq n hn
  omega

/-- The bits of a word that a form does not carry are read as zero. -/
theorem toNat_of_expandForm (b : Byte) (bs : List Byte) (w : CWord) (n : Nat) (h : expandForm (b :: bs) = some (w, n)) :
    w.toNat = ofLE ((b :: bs).take n) / 4 ∧ w.toNat < 2 ^ (8 * n - 2) := by
  obtain ⟨rfl, -, rfl⟩ := (expandForm_cons_eq_some b bs w n).mp h
  have hcases := formLength_cases (b.toNat % 4)
  have hlt := ofLE_take_div_four_lt (b :: bs) (formLength (b.toNat % 4)) (by omega)
  have hfit : 2 ^ (8 * formLength (b.toNat % 4) - 2) ≤ 2 ^ 96 := Nat.pow_le_pow_right (by omega) (by omega)
  rw [BitVec.toNat_ofNat, Nat.mod_eq_of_lt (by omega)]
  exact ⟨rfl, hlt⟩

/-- What the decoder answers depends on the bytes through the word and the length alone. -/
theorem decodeBytes_of_expandForm (bs : List Byte) (w : CWord) (n : Nat) (h : expandForm bs = some (w, n)) :
    decodeBytes bs = (decodeWord w).map (fun i => (i, n)) := by
  simp only [decodeBytes, h]
  cases decodeWord w <;> rfl

/-! ### From the word to bytes -/

/-- A form that carries every nonzero bit of the word loses nothing. -/
theorem ofLE_toLE_formLength (w : CWord) (code : Nat) (hc : code < 4) (hw : w.toNat < 2 ^ (8 * formLength code - 2)) :
    ofLE (toLE (formLength code) (w.toNat * 4 + code)) = w.toNat * 4 + code := by
  have hcases := formLength_cases code
  have := pow_256_eq (formLength code) (by omega)
  rw [ofLE_toLE, Nat.mod_eq_of_lt (by omega)]

/-- A form that carries every nonzero bit of the word is read as that word. -/
theorem expandForm_toLE_append (w : CWord) (code : Nat) (rest : List Byte) (hc : code < 4)
    (hw : w.toNat < 2 ^ (8 * formLength code - 2)) :
    expandForm (toLE (formLength code) (w.toNat * 4 + code) ++ rest) = some (w, formLength code) := by
  have hS := ofLE_toLE_formLength w code hc hw
  have hcode : (w.toNat * 4 + code) % 4 = code := by omega
  have hbits : (w.toNat * 4 + code) / 4 = w.toNat := by omega
  rw [expandForm_append _ rest (by rw [hS, hcode, length_toLE]), hS, hbits, length_toLE, BitVec.ofNat_toNat,
    BitVec.setWidth_eq]

/-! ### The fields that a short form cannot carry -/

/-- A field that lies above every nonzero bit of the word is zero. -/
theorem extractLsb'_eq_zero_of_lt {m k : Nat} (w : BitVec m) (lo n : Nat) (hw : w.toNat < 2 ^ k) (hk : k ≤ lo) :
    w.extractLsb' lo n = 0 := by
  have hlt : w.toNat < 2 ^ lo := hw.trans_le (Nat.pow_le_pow_right (by omega) hk)
  apply BitVec.eq_of_toNat_eq
  simp [Nat.shiftRight_eq_zero _ _ hlt]

/-- A bit above every nonzero bit of the word is zero. -/
theorem getLsbD_eq_false_of_lt {m k : Nat} (w : BitVec m) (i : Nat) (hw : w.toNat < 2 ^ k) (hk : k ≤ i) :
    w.getLsbD i = false :=
  Nat.testBit_lt_two_pow (hw.trans_le (Nat.pow_le_pow_right (by omega) hk))

/-- FS[2], SP, ST and WM stand at W[46] and above. -/
theorem fieldsOf_of_lt_two_pow_46 (w : CWord) (hw : w.toNat < 2 ^ 46) :
    (fieldsOf w).sp = false ∧ (fieldsOf w).st = 0 ∧ (fieldsOf w).wm = 0 ∧ (fieldsOf w).fs.toNat < 4 := by
  refine ⟨getLsbD_eq_false_of_lt w 47 hw (by omega), extractLsb'_eq_zero_of_lt w 48 3 hw (by omega),
    extractLsb'_eq_zero_of_lt w 51 6 hw (by omega), ?_⟩
  simp only [fieldsOf, BitVec.extractLsb'_toNat, Nat.shiftRight_eq_div_pow]
  omega

/-- C[7:5], Y and IMM stand at W[62] and above. -/
theorem fieldsOf_of_lt_two_pow_62 (w : CWord) (hw : w.toNat < 2 ^ 62) :
    (fieldsOf w).imm = 0 ∧ (fieldsOf w).y = false ∧ (fieldsOf w).c.toNat ≤ 31 := by
  refine ⟨extractLsb'_eq_zero_of_lt w 66 28 hw (by omega), getLsbD_eq_false_of_lt w 65 hw (by omega), ?_⟩
  simp only [fieldsOf, BitVec.extractLsb'_toNat, Nat.shiftRight_eq_div_pow]
  omega

/-- A form of 4 or 6 bytes carries W[45:0] at most. -/
theorem eight_le_formLength (w : CWord) (code : Nat) (hw : w.toNat < 2 ^ (8 * formLength code - 2))
    (hf : (fieldsOf w).sp = true ∨ (fieldsOf w).st ≠ 0 ∨ (fieldsOf w).wm ≠ 0 ∨ 4 ≤ (fieldsOf w).fs.toNat) :
    8 ≤ formLength code := by
  by_contra hshort
  have hle : 8 * formLength code - 2 ≤ 46 := by have := formLength_cases code; omega
  obtain ⟨hsp, hst, hwm, hfs⟩ := fieldsOf_of_lt_two_pow_46 w (hw.trans_le (Nat.pow_le_pow_right (by omega) hle))
  simp only [hsp, hst, hwm, ne_eq, not_true_eq_false, Bool.false_eq_true, false_or] at hf
  omega

/-- A form of less than 12 bytes carries W[61:0] at most. -/
theorem formLength_eq_twelve (w : CWord) (code : Nat) (hw : w.toNat < 2 ^ (8 * formLength code - 2))
    (hf : (fieldsOf w).imm ≠ 0 ∨ (fieldsOf w).y = true ∨ 31 < (fieldsOf w).c.toNat) : formLength code = 12 := by
  by_contra hshort
  have hle : 8 * formLength code - 2 ≤ 62 := by have := formLength_cases code; omega
  obtain ⟨himm, hy, hc⟩ := fieldsOf_of_lt_two_pow_62 w (hw.trans_le (Nat.pow_le_pow_right (by omega) hle))
  simp only [himm, hy, ne_eq, not_true_eq_false, Bool.false_eq_true, false_or] at hf
  omega

/-- Settles O49: the number in the bytes is the word's, four times, and the code, so that the decoder reads the word again;
the fields that ask for a longer form lie above the bits of the shorter ones; and the bytes read bound the word. -/
theorem storedForms : Obligations.StoredForms := by
  unfold Obligations.StoredForms
  constructor
  · intro w code rest hc hw bs
    have hS : ofLE bs = w.toNat * 4 + code := ofLE_toLE_formLength w code hc hw
    have hlen : bs.length = formLength code := length_toLE _ _
    have hexp : expandForm (bs ++ rest) = some (w, formLength code) := expandForm_toLE_append w code rest hc hw
    refine ⟨hlen, by omega, by omega, hexp, decodeBytes_of_expandForm _ w _ hexp, ?_, ?_⟩
    · intro hf
      exact hlen ▸ eight_le_formLength w code hw hf
    · intro hf
      exact hlen.trans (formLength_eq_twelve w code hw hf)
  · intro b bs w n h
    obtain ⟨hn, hlen, -⟩ := (expandForm_cons_eq_some b bs w n).mp h
    obtain ⟨hbits, hlt⟩ := toNat_of_expandForm b bs w n h
    exact ⟨hn ▸ formLength_eq_getD _ (by omega), hlen, hbits, hlt⟩

end Sys2Proof
end

section
/-!
Numbers of a fixed width: what wrapping, clamping and replacing a field do to the value of a number and to its bits.
-/

namespace Sys2Proof

/-! ### Wrapping and clamping -/

theorem wrap_lt (n : Nat) (x : Int) : wrap n x < 2 ^ n := by
  have := Int.emod_lt_of_pos x (show (0 : Int) < (2 ^ n : Nat) by positivity)
  have := Int.emod_nonneg x (show ((2 ^ n : Nat) : Int) ≠ 0 by positivity)
  unfold wrap
  omega

theorem natCast_wrap (n : Nat) (x : Int) : (wrap n x : Int) = x % 2 ^ n := by
  rw [wrap, Int.toNat_of_nonneg (Int.emod_nonneg x (by positivity))]
  norm_cast

theorem wrap_natCast {n a : Nat} (h : a < 2 ^ n) : wrap n (a : Int) = a := by
  have hmod := natCast_wrap n a
  rw [Int.emod_eq_of_lt (by positivity) (by exact_mod_cast h)] at hmod
  exact_mod_cast hmod

theorem wrap_add_two_pow (n : Nat) (x : Int) : wrap n (x + 2 ^ n) = wrap n x := by
  simp [wrap]

theorem clampInt_mem {lo hi : Int} (h : lo ≤ hi) (x : Int) : lo ≤ clampInt lo hi x ∧ clampInt lo hi x ≤ hi := by
  unfold clampInt
  split_ifs <;> omega

/-! ### Bits -/

/-- Bit `j` of an integer extended without bound: above its digits it repeats its sign. -/
def intBit (x : Int) (j : Nat) : Bool := x / 2 ^ j % 2 = 1

theorem intBit_natCast (a j : Nat) : intBit (a : Int) j = a.testBit j := by
  rw [intBit, Nat.testBit_eq_decide_div_mod_eq, decide_eq_decide]
  norm_cast

theorem intBit_ediv (x : Int) (p j : Nat) : intBit (x / 2 ^ p) j = intBit x (p + j) := by
  rw [intBit, intBit, Int.ediv_ediv_of_nonneg (by positivity), pow_add]

/-- Adding a multiple of `2 ^ n` leaves the bits below `n`. -/
theorem intBit_add_mul {n j : Nat} (h : j < n) (x q : Int) : intBit (x + 2 ^ n * q) j = intBit x j := by
  have hsplit : (2 : Int) ^ n * q = 2 ^ j * (2 * (2 ^ (n - j - 1) * q)) := by
    rw [← mul_assoc, ← mul_assoc, ← pow_succ, ← pow_add]
    congr 2
    omega
  rw [intBit, intBit, hsplit, Int.add_mul_ediv_left _ _ (by positivity), Int.add_mul_emod_self_left]

/-- Wrapping keeps the bits below the width. -/
theorem testBit_wrap (n : Nat) (x : Int) (j : Nat) : (wrap n x).testBit j = (decide (j < n) && intBit x j) := by
  by_cases h : j < n
  · have hx : x = (wrap n x : Int) + 2 ^ n * (x / 2 ^ n) := by
      rw [natCast_wrap, Int.emod_add_mul_ediv]
    rw [← intBit_natCast, decide_eq_true h, Bool.true_and]
    conv_rhs => rw [hx, intBit_add_mul h]
  · rw [decide_eq_false h, Bool.false_and]
    exact Nat.testBit_lt_two_pow ((wrap_lt n x).trans_le (Nat.pow_le_pow_right (by omega) (not_lt.mp h)))

/-- The sign bit. -/
theorem testBit_width_sub_one {w a : Nat} (hw : 0 < w) (h : a < 2 ^ w) : a.testBit (w - 1) = decide (2 ^ w ≤ 2 * a) := by
  have hpow : 2 ^ w = 2 * 2 ^ (w - 1) := (Nat.pow_pred_mul hw).symm.trans (Nat.mul_comm _ _)
  by_cases ha : 2 ^ (w - 1) ≤ a
  · rw [Nat.testBit_of_two_pow_le_and_two_pow_add_one_gt ha (by rwa [Nat.sub_add_cancel hw]), decide_eq_true (by omega)]
  · rw [Nat.testBit_lt_two_pow (not_le.mp ha), decide_eq_false (by omega)]

theorem testBit_setBits (x lo n v j : Nat) :
    (setBits x lo n v).testBit j = if lo ≤ j ∧ j < lo + n then v.testBit (j - lo) else x.testBit j := by
  have hx : x % 2 ^ lo < 2 ^ lo := Nat.mod_lt _ (by positivity)
  have hv : v % 2 ^ n < 2 ^ n := Nat.mod_lt _ (by positivity)
  have hset : setBits x lo n v = 2 ^ lo * (2 ^ n * (x >>> (lo + n)) + v % 2 ^ n) + x % 2 ^ lo := by
    simp only [setBits, Nat.shiftLeft_eq, pow_add]
    ring
  rw [hset, Nat.testBit_two_pow_mul_add _ hx, Nat.testBit_two_pow_mul_add _ hv]
  by_cases hlo : j < lo
  · rw [if_pos hlo, if_neg (by omega), Nat.testBit_mod_two_pow, decide_eq_true hlo, Bool.true_and]
  rw [if_neg hlo]
  by_cases hn : j < lo + n
  · rw [if_pos (by omega), if_pos ⟨by omega, hn⟩, Nat.testBit_mod_two_pow, decide_eq_true (by omega), Bool.true_and]
  · rw [if_neg (by omega), if_neg (by omega), Nat.testBit_shiftRight, show lo + n + (j - lo - n) = j by omega]

theorem setBits_lt {w x lo n : Nat} (v : Nat) (hx : x < 2 ^ w) (h : lo + n ≤ w) : setBits x lo n v < 2 ^ w := by
  refine Nat.lt_pow_two_of_testBit _ fun j hj => ?_
  rw [testBit_setBits, if_neg (by omega), Nat.testBit_lt_two_pow (hx.trans_le (Nat.pow_le_pow_right (by omega) hj))]

end Sys2Proof

namespace Sys2Proof.Machine

/-! ### The range of a field, signed and unsigned (R208, R210) -/

/-- The least number of a field of `k` bits. -/
def intMin (u : Bool) (k : Nat) : Int := if u then 0 else -2 ^ (k - 1)

/-- The greatest number of a field of `k` bits. -/
def intMax (u : Bool) (k : Nat) : Int := if u then 2 ^ k - 1 else 2 ^ (k - 1) - 1

theorem two_pow_eq_two_mul {k : Nat} (hk : 0 < k) : (2 : Int) ^ k = 2 * 2 ^ (k - 1) := by
  rw [← pow_succ', Nat.sub_add_cancel hk]

theorem intMin_nonpos (u : Bool) (k : Nat) : intMin u k ≤ 0 := by
  cases u <;> simp [intMin]

theorem intMax_nonneg (u : Bool) (k : Nat) : 0 ≤ intMax u k := by
  have hone : ∀ m, (1 : Int) ≤ 2 ^ m := fun m => one_le_pow₀ (by norm_num)
  cases u
  · exact Int.sub_nonneg_of_le (hone (k - 1))
  · exact Int.sub_nonneg_of_le (hone k)

theorem intMin_le_intMax (u : Bool) (k : Nat) : intMin u k ≤ intMax u k := (intMin_nonpos u k).trans (intMax_nonneg u k)

/-- The least number of a longer field is no greater. -/
theorem intMin_anti (u : Bool) {k w : Nat} (h : k ≤ w) : intMin u w ≤ intMin u k := by
  have : (2 : Int) ^ (k - 1) ≤ 2 ^ (w - 1) := pow_le_pow_right₀ (by norm_num) (by omega)
  cases u <;> simp [intMin, this]

/-- The greatest number of a longer field is no less. -/
theorem intMax_mono (u : Bool) {k w : Nat} (h : k ≤ w) : intMax u k ≤ intMax u w := by
  have : (2 : Int) ^ k ≤ 2 ^ w := pow_le_pow_right₀ (by norm_num) h
  have : (2 : Int) ^ (k - 1) ≤ 2 ^ (w - 1) := pow_le_pow_right₀ (by norm_num) (by omega)
  cases u <;> simpa [intMax]

/-! ### Reading what was written -/

theorem readInt_of_lt {w a : Nat} (u : Bool) (h : a < 2 ^ w) :
    readInt w u a = if u || 2 * a < 2 ^ w then (a : Int) else a - 2 ^ w := by
  cases u <;> simp [readInt, signed, Nat.mod_eq_of_lt h]

theorem readInt_true {w a : Nat} (h : a < 2 ^ w) : readInt w true a = a := by
  rw [readInt_of_lt true h, Bool.true_or, if_pos rfl]

theorem readInt_false (w a : Nat) : readInt w false a = signed w a := rfl

theorem readInt_eq_zero {w a : Nat} (u : Bool) (h : a < 2 ^ w) : readInt w u a = 0 ↔ a = 0 := by
  have hpow : ((2 ^ w : Nat) : Int) = 2 ^ w := by norm_cast
  rw [readInt_of_lt u h]
  split
  next => omega
  next hs =>
    simp only [Bool.or_eq_true, decide_eq_true_eq, not_or] at hs
    omega

/-- What is read lies within the range of the width. -/
theorem readInt_mem {w a : Nat} (hw : 0 < w) (u : Bool) (h : a < 2 ^ w) :
    intMin u w ≤ readInt w u a ∧ readInt w u a ≤ intMax u w := by
  have h2 := two_pow_eq_two_mul hw
  have hpow : ((2 ^ w : Nat) : Int) = 2 ^ w := by norm_cast
  rw [readInt_of_lt u h]
  cases u <;> simp only [intMin, intMax, Bool.false_eq_true, if_false, Bool.false_or, decide_eq_true_eq, if_true, Bool.true_or]
  · split <;> omega
  · omega

/-- A number within the range of the width is read back. -/
theorem readInt_wrap {w : Nat} (hw : 0 < w) (u : Bool) {x : Int} (hlo : intMin u w ≤ x) (hhi : x ≤ intMax u w) :
    readInt w u (wrap w x) = x := by
  have h2 := two_pow_eq_two_mul hw
  have hx := natCast_wrap w x
  have hpow : ((2 ^ w : Nat) : Int) = 2 ^ w := by norm_cast
  rw [readInt_of_lt u (wrap_lt w x)]
  cases u
  · simp only [intMin, intMax, Bool.false_eq_true, if_false, Bool.false_or, decide_eq_true_eq] at *
    obtain hneg | hpos := lt_or_ge x 0
    · rw [← Int.add_emod_right, Int.emod_eq_of_lt (by omega) (by omega)] at hx
      rw [if_neg (by omega)]
      omega
    · rw [Int.emod_eq_of_lt hpos (by omega)] at hx
      rw [if_pos (by omega)]
      omega
  · simp only [intMin, intMax, if_true, Bool.true_or] at *
    rw [hx, Int.emod_eq_of_lt hlo (by omega)]

/-- A number clamped into a field of at most `w` bits is read back from `w` bits. -/
theorem readInt_wrap_clampInt {k w : Nat} (hw : 0 < w) (hk : k ≤ w) (u : Bool) (x : Int) :
    readInt w u (wrap w (clampInt (intMin u k) (intMax u k) x)) = clampInt (intMin u k) (intMax u k) x := by
  obtain ⟨hlo, hhi⟩ := clampInt_mem (intMin_le_intMax u k) x
  exact readInt_wrap hw u ((intMin_anti u hk).trans hlo) (hhi.trans (intMax_mono u hk))

/-- What is read of `w` bits has them as its low bits, and above them its sign. -/
theorem intBit_readInt {w a : Nat} (hw : 0 < w) (u : Bool) (h : a < 2 ^ w) (j : Nat) :
    intBit (readInt w u a) j = Claim.extBit w u a j := by
  rw [readInt_of_lt u h, Claim.extBit, testBit_width_sub_one hw h]
  split
  next hs =>
    rw [intBit_natCast]
    split
    next => rfl
    next hj =>
      rw [Nat.testBit_lt_two_pow (h.trans_le (Nat.pow_le_pow_right (by omega) (not_lt.mp hj)))]
      cases u
      · rw [Bool.false_or, decide_eq_true_eq] at hs
        rw [decide_eq_false (not_le.mpr hs), Bool.and_false]
      · rfl
  next hs =>
    simp only [Bool.or_eq_true, decide_eq_true_eq, not_or, Bool.not_eq_true, not_lt] at hs
    obtain ⟨rfl, hneg⟩ := hs
    split
    next hj => rw [show (a : Int) - 2 ^ w = a + 2 ^ w * (-1) by omega, intBit_add_mul hj, intBit_natCast]
    next hj =>
      have hle : (2 : Int) ^ w ≤ 2 ^ j := pow_le_pow_right₀ (by norm_num) (not_lt.mp hj)
      have hpow : ((2 ^ w : Nat) : Int) = 2 ^ w := by norm_cast
      have hq : ((a : Int) - 2 ^ w) / 2 ^ j = -1 := by
        rw [Int.ediv_eq_iff_of_pos (by positivity)]
        omega
      simp [intBit, hq, hneg]

/-! ### Results that saturate (R210) -/

theorem writeInt_lt (w : Nat) (u sat : Bool) (x : Int) : writeInt w u sat x < 2 ^ w := by
  unfold writeInt
  split <;> exact wrap_lt _ _

theorem writeInt_sat (w : Nat) (u : Bool) (x : Int) :
    writeInt w u true x = wrap w (clampInt (intMin u w) (intMax u w) x) := by
  cases u <;> simp [writeInt, intMin, intMax]

theorem readInt_writeInt_sat {w : Nat} (hw : 0 < w) (u : Bool) (x : Int) :
    readInt w u (writeInt w u true x) = clampInt (intMin u w) (intMax u w) x := by
  rw [writeInt_sat, readInt_wrap_clampInt hw le_rfl]

end Sys2Proof.Machine
end

section
/-!
Instructions that compute one value for each active lane (R207 to R221, R229, R66, R353): what an issue lands for them.
-/

namespace Sys2Proof.Machine

theorem Issues.act_ne_nil {s : State} {i : Instr} {c0 c1 c : Iss} (h : Issues s i c0 c1 c) : c.act ≠ [] := by
  obtain ⟨-, -, hact, -⟩ := h.same
  exact hact ▸ h.active

theorem lands_laneBody {s : State} {i : Instr} {c0 c1 c : Iss} {W : Iss → Bool} {g : Iss → Nat → Nat} (h : Issues s i c0 c1 c)
    (he : exec i s = .next (issue i (laneBody W g) s)) :
    Lands s c i false { s := c.s } (W c) (c.act.map (fun l => (l, g c l))) :=
  issue_lane h he rfl rfl rfl rfl rfl

/-- The same of variable latency. -/
theorem lands_laneBodyV {s : State} {i : Instr} {c0 c1 c : Iss} {W : Iss → Bool} {least span : Iss → Nat} {g : Iss → Nat → Nat}
    (h : Issues s i c0 c1 c) (he : exec i s = .next (issue i (laneBodyV W least span g) s)) :
    Lands s c i false { s := c.s, least := least c, span := some (span c) } (W c) (c.act.map (fun l => (l, g c l))) :=
  issue_lands (b := laneBodyV W least span g) (o := { s := c.s, least := least c, span := some (span c) }) h rfl rfl rfl he

/-- An instruction whose lanes compute the table's values lands them. -/
theorem lands_of_intResult {s : State} {i : Instr} {c0 c1 c : Iss} {W : Iss → Bool} {g : Iss → Nat → Nat} {wide : Bool}
    {val : Nat → Nat} (h : Issues s i c0 c1 c) (hv : ∀ l ∈ c.act, Claim.intResult i c l = some (wide, val l))
    (he : exec i s = .next (issue i (laneBody W g) s)) (hr : ∀ l, Claim.intResult i c l = some (W c, g c l)) :
    Lands s c i false { s := c.s } wide (c.act.map (fun l => (l, val l))) := by
  have hg : ∀ l ∈ c.act, W c = wide ∧ g c l = val l := fun l hl => by simpa [hr l] using hv l hl
  obtain ⟨l, hl⟩ := List.exists_mem_of_ne_nil _ h.act_ne_nil
  have hvals : c.act.map (fun l => (l, g c l)) = c.act.map (fun l => (l, val l)) :=
    List.map_congr_left fun l hl => by rw [(hg l hl).2]
  rw [← (hg l hl).1, ← hvals]
  exact lands_laneBody h he

/-- Settles O1: the instruction's own part is a function of one lane's operands, and it is the table's, by cases on the
instruction; where the table speaks of the instruction's fields, they are those of the issue. -/
theorem integerResults : Obligations.IntegerResults := by
  unfold Obligations.IntegerResults
  intro s i c0 c1 c wide val h hv
  cases i with
  | iadd f | isum3 f | isub f | ineg f | imin f | imax f | isat f | sel f | imul f | imad f | imadw f | and f | or f | xor f | not f
  | pmovGet f | mov f | shl f | shr f | fshl f | fshr f | bfe f | bfi f | brev f | popc f | clz f | ctz f | sext f | zext f
  | partget f | cycrd f => exact lands_of_intResult h hv rfl fun _ => rfl
  | blut f | plut f | movi f | movk f | rjtest f | rjmask f =>
    obtain rfl : f = c.f := Option.some.inj h.fields
    exact lands_of_intResult h hv rfl fun _ => rfl
  | iabs f => exact lands_of_intResult h hv rfl fun l => by simp [Claim.intResult, Iss.ia, Iss.W]
  | icmp f =>
    obtain rfl : f = c.f := Option.some.inj h.fields
    refine lands_of_intResult h hv rfl fun l => ?_
    simp only [Claim.intResult]
    generalize c.f.mX / 8 = combination
    match combination with
    | 0 | 1 | 2 | n + 3 => rfl
  | lea f =>
    obtain rfl : f = c.f := Option.some.inj h.fields
    exact lands_of_intResult h hv rfl fun l => by simp [Claim.intResult, Iss.W]
  | imulh f => exact lands_of_intResult h hv rfl fun l => by simp [Claim.intResult, Iss.ia, Iss.ib, Iss.W]
  | sar f => exact lands_of_intResult h hv rfl fun l => by simp [Claim.intResult, Iss.W]
  | _ =>
    -- The table has no entry for the others.
    obtain ⟨l, hl⟩ := List.exists_mem_of_ne_nil _ h.act_ne_nil
    cases hv l hl

end Sys2Proof.Machine
end

section
/-!
ISAT (R214), BFE and BFI (R221): the value of the first and the bits of the others.
-/

namespace Sys2Proof.Machine

/-! ### ISAT -/

theorem isatVal_of_zero {n : Nat} (w : Nat) (u : Bool) (a : Nat) (h : n % 2 ^ 7 = 0) : isatVal w u a n = 0 := by
  simp only [isatVal, h, if_true]

theorem isatVal_of_le {w a n : Nat} (u : Bool) (hw : 0 < w) (ha : a < 2 ^ w) (h : w ≤ n % 2 ^ 7) : isatVal w u a n = a := by
  simp only [isatVal, h, if_true, Nat.mod_eq_of_lt ha, if_neg (show n % 2 ^ 7 ≠ 0 by omega)]

theorem isatVal_of_lt {w n k : Nat} (u : Bool) (a : Nat) (hn : n % 2 ^ 7 = k) (h0 : k ≠ 0) (hk : k < w) :
    isatVal w u a n = wrap w (clampInt (intMin u k) (intMax u k) (readInt w u a)) := by
  simp only [isatVal, hn, h0, not_le.mpr hk, if_false]
  cases u <;> simp [intMin, intMax]

/-! ### BFE -/

theorem bfeVal_of_zero {w fd : Nat} (u : Bool) (a : Nat) (h0 : min (fd / 2 ^ 8 % 2 ^ 8) w = 0) : bfeVal w u a fd = 0 := by
  simp only [bfeVal, bits, Nat.shiftRight_eq_div_pow, h0, if_true]

/-- BFE wraps its operand into the field, reads the field as a number and writes that in `w` bits. -/
theorem bfeVal_eq {w fd p k : Nat} (u : Bool) (a : Nat) (hp : fd % 2 ^ 8 = p) (hk : min (fd / 2 ^ 8 % 2 ^ 8) w = k) (h0 : k ≠ 0) :
    bfeVal w u a fd = wrap w (readInt k u (wrap k (readInt w u a / 2 ^ p))) := by
  have hlt := wrap_lt k (readInt w u a / 2 ^ p)
  have hle : 2 ^ k ≤ 2 ^ w := Nat.pow_le_pow_right (by omega) (by omega)
  simp only [bfeVal, bits, Nat.shiftRight_eq_div_pow, hp, hk, h0, if_false, Nat.cast_pow, Nat.cast_ofNat]
  cases u
  · rfl
  · rw [readInt_true hlt, wrap_natCast (hlt.trans_le hle), if_pos rfl]

theorem bfeVal_lt (w : Nat) (u : Bool) (a fd : Nat) : bfeVal w u a fd < 2 ^ w := by
  by_cases h0 : min (fd / 2 ^ 8 % 2 ^ 8) w = 0
  · rw [bfeVal_of_zero u a h0]
    positivity
  · rw [bfeVal_eq u a rfl rfl h0]
    exact wrap_lt _ _

theorem testBit_bfeVal {w a fd p k j : Nat} (u : Bool) (hp : fd % 2 ^ 8 = p) (hk : min (fd / 2 ^ 8 % 2 ^ 8) w = k) (h : a < 2 ^ w)
    (hj : j < w) : (bfeVal w u a fd).testBit j =
      if k = 0 then false else if j < k then Claim.extBit w u a (p + j) else !u && Claim.extBit w u a (p + k - 1) := by
  by_cases h0 : k = 0
  · rw [bfeVal_of_zero u a (hk.trans h0), if_pos h0, Nat.zero_testBit]
  have hfield : ∀ i < k, (wrap k (readInt w u a / 2 ^ p)).testBit i = Claim.extBit w u a (p + i) := fun i hi => by
    rw [testBit_wrap, decide_eq_true hi, Bool.true_and, intBit_ediv, intBit_readInt (by omega) u h]
  rw [bfeVal_eq u a hp hk h0, testBit_wrap, decide_eq_true hj, Bool.true_and, intBit_readInt (by omega) u (wrap_lt _ _), if_neg h0]
  conv_lhs => unfold Claim.extBit
  split
  next hi => exact hfield j hi
  next => rw [hfield (k - 1) (by omega), Nat.add_sub_assoc (by omega)]

/-! ### BFI -/

/-- BFI replaces what of the field lies below `w`. -/
theorem bfiVal_eq {w fd t p k : Nat} (a : Nat) (hp : fd % 2 ^ 8 = p) (hk : min (fd / 2 ^ 8 % 2 ^ 8) w = k) (h : t < 2 ^ w) :
    bfiVal w a fd t = if w ≤ p then t else setBits t p (min k (w - p)) a := by
  simp only [bfiVal, bits, Nat.shiftRight_eq_div_pow, hp, hk, Nat.mod_eq_of_lt h]

theorem bfiVal_lt {w t : Nat} (a fd : Nat) (h : t < 2 ^ w) : bfiVal w a fd t < 2 ^ w := by
  rw [bfiVal_eq a rfl rfl h]
  split_ifs
  · exact h
  · exact setBits_lt a h (by omega)

theorem testBit_bfiVal {w fd t p k j : Nat} (a : Nat) (hp : fd % 2 ^ 8 = p) (hk : min (fd / 2 ^ 8 % 2 ^ 8) w = k) (h : t < 2 ^ w)
    (hj : j < w) : (bfiVal w a fd t).testBit j = if p ≤ j ∧ j < p + k then a.testBit (j - p) else t.testBit j := by
  rw [bfiVal_eq a hp hk h]
  split_ifs with hp hf hf
  · omega
  · rfl
  · rw [testBit_setBits, if_pos (by omega)]
  · rw [testBit_setBits, if_neg (by omega)]

/-- Settles O59: clamping into a field and reading back, the bits of the fields, and what the table of integer results says
of the three instructions. -/
theorem integerFormsAndFields : Obligations.IntegerFormsAndFields := by
  unfold Obligations.IntegerFormsAndFields
  refine ⟨?forms, ?isat, ?fields, ?landed⟩
  case forms =>
    intro w u x hw lo hi
    exact ⟨writeInt_lt w u false x, natCast_wrap w x, writeInt_lt w u true x, readInt_writeInt_sat (by omega) u x⟩
  case isat =>
    intro w u a n hw ha k x lo hi
    refine ⟨isatVal_of_zero w u a, isatVal_of_le u (by omega) ha, fun h0 hk => ?_⟩
    rw [isatVal_of_lt u a rfl (by omega) hk]
    exact ⟨wrap_lt _ _, readInt_wrap_clampInt (by omega) hk.le u x⟩
  case fields =>
    intro w u a t fd j hw ha ht hj p k
    exact ⟨bfeVal_lt w u a fd, bfiVal_lt a fd ht, testBit_bfeVal u rfl rfl ha hj, testBit_bfiVal a rfl rfl ht hj⟩
  case landed =>
    intro s f c0 c1 c
    have hland := fun i wide val => integerResults s i c0 c1 c wide val
    exact ⟨fun h => hland _ _ _ h fun _ _ => rfl, fun h => hland _ _ _ h fun _ _ => rfl, fun h => hland _ _ _ h fun _ _ => rfl⟩

end Sys2Proof.Machine
end

section
/-!
IDIV and IREM (R216): the quotient and the remainder as numbers, the bounds of a class V completion, and the loader's rule
for instructions of class V (R197).
-/

namespace Sys2Proof.Machine

/-! ### Quotients and remainders of a signed range -/

/-- A quotient of numbers of a signed range lies in it, but for the least number divided by -1. -/
theorem tdiv_mem_of_ne {M x y : Int} (hlo : -M ≤ x) (hhi : x < M) (h : ¬ (x = -M ∧ y = -1)) : -M ≤ x.tdiv y ∧ x.tdiv y ≤ M - 1 := by
  have hle := Int.natAbs_tdiv_le_natAbs x y
  refine ⟨by omega, ?_⟩
  by_contra hq
  have hx : x = -M := by omega
  obtain rfl | hy | hy : y = 1 ∨ y.natAbs = 0 ∨ 1 < y.natAbs := by omega
  · rw [Int.tdiv_one] at hq
    omega
  · rw [Int.natAbs_eq_zero.mp hy, Int.tdiv_zero] at hq
    omega
  · have hlt := Nat.div_lt_self (n := x.natAbs) (by omega) hy
    have hdiv : (x.tdiv y).natAbs = x.natAbs / y.natAbs := Int.natAbs_tdiv x y
    omega

theorem tmod_nonpos {x : Int} (y : Int) (h : x ≤ 0) : x.tmod y ≤ 0 := by
  have := Int.tmod_nonneg y (Int.neg_nonneg.mpr h)
  rw [Int.neg_tmod] at this
  omega

/-- A remainder stands between 0 and the dividend. -/
theorem tmod_mem {lo hi x : Int} (y : Int) (hlo : lo ≤ x) (hlo0 : lo ≤ 0) (hhi : x ≤ hi) (hhi0 : 0 ≤ hi) :
    lo ≤ x.tmod y ∧ x.tmod y ≤ hi := by
  have habs := (Int.natAbs_tmod x y).trans_le (Nat.mod_le _ _)
  have hnonneg := Int.tmod_nonneg (a := x) y
  have hnonpos := tmod_nonpos (x := x) y
  omega

/-! ### IDIV -/

theorem idivVal_of_zero {w b : Nat} {u : Bool} (a : Nat) (h : readInt w u b = 0) : idivVal w u a b = 2 ^ w - 1 := by
  simp only [idivVal, h, if_true]

theorem idivVal_of_ne {w b : Nat} {u : Bool} (a : Nat) (h : readInt w u b ≠ 0) :
    idivVal w u a b = wrap w ((readInt w u a).tdiv (readInt w u b)) := by
  simp only [idivVal, h, if_false]

theorem idivVal_unsigned {w a b : Nat} (ha : a < 2 ^ w) (hb : b < 2 ^ w) (h0 : b ≠ 0) : idivVal w true a b = a / b := by
  rw [idivVal_of_ne a (mt (readInt_eq_zero true hb).mp h0), readInt_true ha, readInt_true hb, ← Int.ofNat_tdiv,
    wrap_natCast ((Nat.div_le_self a b).trans_lt ha)]

theorem signed_idivVal {w a b : Nat} (hw : 0 < w) (ha : a < 2 ^ w) (hb : signed w b ≠ 0)
    (h : ¬ (signed w a = -2 ^ (w - 1) ∧ signed w b = -1)) :
    signed w (idivVal w false a b) = (signed w a).tdiv (signed w b) := by
  obtain ⟨hlo, hhi⟩ : -2 ^ (w - 1) ≤ signed w a ∧ signed w a ≤ 2 ^ (w - 1) - 1 := readInt_mem hw false ha
  obtain ⟨hlo, hhi⟩ := tdiv_mem_of_ne hlo (Int.lt_of_le_sub_one hhi) h
  rw [idivVal_of_ne (u := false) a hb]
  exact readInt_wrap hw false hlo hhi

/-- The one quotient out of range wraps to the least number. -/
theorem signed_idivVal_overflow {w a b : Nat} (hw : 0 < w) (hx : signed w a = -2 ^ (w - 1)) (hy : signed w b = -1) :
    signed w (idivVal w false a b) = -2 ^ (w - 1) := by
  have hneg : -(-2 ^ (w - 1) : Int) = -2 ^ (w - 1) + 2 ^ w := by
    rw [two_pow_eq_two_mul hw]
    ring
  have hval : idivVal w false a b = wrap w (-2 ^ (w - 1)) := by
    rw [idivVal_of_ne a (by rw [readInt_false, hy]; decide), readInt_false, readInt_false, hx, hy, Int.tdiv_neg, Int.tdiv_one, hneg,
      wrap_add_two_pow]
  rw [hval]
  exact readInt_wrap hw false le_rfl (intMin_le_intMax false w)

theorem signed_two_pow_sub_one {w : Nat} (hw : 0 < w) : signed w (2 ^ w - 1) = -1 := by
  have h2 : 1 < 2 ^ w := Nat.one_lt_two_pow hw.ne'
  have hread := readInt_of_lt false (Nat.sub_one_lt (by omega : 2 ^ w ≠ 0))
  rw [Bool.false_or, if_neg (by rw [decide_eq_true_eq]; omega), Nat.cast_sub h2.le] at hread
  simpa [readInt] using hread

/-! ### IREM -/

theorem iremVal_of_zero {w a b : Nat} {u : Bool} (ha : a < 2 ^ w) (h : readInt w u b = 0) : iremVal w u a b = a := by
  simp only [iremVal, h, if_true, Nat.mod_eq_of_lt ha]

theorem iremVal_of_ne {w b : Nat} {u : Bool} (a : Nat) (h : readInt w u b ≠ 0) :
    iremVal w u a b = wrap w ((readInt w u a).tmod (readInt w u b)) := by
  simp only [iremVal, h, if_false, Int.tmod_def]

theorem iremVal_unsigned {w a b : Nat} (ha : a < 2 ^ w) (hb : b < 2 ^ w) (h0 : b ≠ 0) : iremVal w true a b = a % b := by
  rw [iremVal_of_ne a (mt (readInt_eq_zero true hb).mp h0), readInt_true ha, readInt_true hb, ← Int.ofNat_tmod,
    wrap_natCast ((Nat.mod_le a b).trans_lt ha)]

theorem signed_iremVal {w a b : Nat} (hw : 0 < w) (ha : a < 2 ^ w) (hb : signed w b ≠ 0) :
    signed w (iremVal w false a b) = (signed w a).tmod (signed w b) := by
  obtain ⟨hlo, hhi⟩ := readInt_mem hw false ha
  obtain ⟨hlo, hhi⟩ := tmod_mem (signed w b) hlo (intMin_nonpos false w) hhi (intMax_nonneg false w)
  rw [iremVal_of_ne (u := false) a hb]
  exact readInt_wrap hw false hlo hhi

theorem iremVal_of_neg_one {w b : Nat} (a : Nat) (hy : signed w b = -1) : iremVal w false a b = 0 := by
  rw [iremVal_of_ne a (by rw [readInt_false, hy]; decide), readInt_false w b, hy, Int.tmod_neg, Int.tmod_one]
  exact wrap_natCast (by positivity)

/-! ### Completion and the token (R196, R197) -/

theorem latOf_eq_none {i : Instr} (h : fixedLat i = none) : latOf i = none := by
  simp only [latOf, h, Option.map_none, ite_self]

theorem issueWb_isVar {i : Instr} (c : Iss) (o : Out) (x : Warp) (hlat : latOf i = none) : (issueWb c i o x).isVar = true := by
  simp only [issueWb, hlat, Option.isNone_none]

/-- A class V operation whose latency has a bound completes within it. -/
theorem issueWb_due_mem {c : Iss} {i : Instr} {o : Out} {least n : Nat} (x : Warp) (hlat : latOf i = none) (hleast : o.least = least)
    (hspan : o.span = some n) : c.s.now + least ≤ (issueWb c i o x).due ∧ (issueWb c i o x).due ≤ c.s.now + (least + n) := by
  have := Nat.mod_lt (Config.delay c.s.free) (Nat.add_one_pos n)
  simp only [issueWb, hlat, hleast, hspan]
  omega

/-- D is a used field wherever the instruction writes a register through it; RET alone names its register otherwise (R53). -/
theorem dst_mem_usedFields {i : Instr} {q : Sys2Proof.Shape} {f : Fields} (hs : shape i = some q) (hf : i.fields = some f)
    (hret : ∀ g, i ≠ .ret g) (hd : dstCount q.d f.d.toNat ≠ 0) : (Fld.d, f.d.toNat, dstCount q.d f.d.toNat) ∈ usedFields i := by
  unfold usedFields
  split
  next g => exact absurd rfl (hret g)
  next =>
    simp only [hs, hf]
    exact List.mem_append_left _ (List.mem_filter.mpr ⟨List.mem_cons_self, by simpa using hd⟩)

/-- What the loader rejects: a class V instruction without a token that writes a register through D. -/
theorem lacksToken_of_dst {i : Instr} {f : Fields} {n : Nat} (hop : (opFn i).isSome = true) (hlat : latOf i = none)
    (hf : i.fields = some f) (hst : f.st = 0) (hd : (Fld.d, f.d.toNat, n) ∈ usedFields i)
    (hreg : (isVK f.d.toNat || isP f.d.toNat) = true) : lacksToken i = true := by
  simp only [lacksToken, hop, hlat, hf, hst, Option.isNone_none, Option.map_some, Bool.true_and, decide_true]
  exact List.any_eq_true.mpr ⟨_, hd, by simpa using hreg⟩

theorem dstCount_wideD_ne_zero (m : Bool) (d : Nat) : dstCount (wideD m) d ≠ 0 := by
  cases m
  · exact Nat.one_ne_zero
  · change (if isVK d then 2 else 1) ≠ 0
    split <;> decide

/-- Settles O2: both are lane functions of class V with a bound, their destination is a used field, and quotient and
remainder are those of truncating division wherever they lie in the range of the width. -/
theorem divisionResults : Obligations.DivisionResults := by
  unfold Obligations.DivisionResults
  have hlat : ∀ f, latOf (.idiv f) = none ∧ latOf (.irem f) = none := fun _ => ⟨latOf_eq_none rfl, latOf_eq_none rfl⟩
  refine ⟨?landed, ?token, ?values⟩
  case landed =>
    intro s f c0 c1 c o
    refine ⟨fun h => ?_, fun h => ?_, fun i x hi => ?_⟩
    · exact (lands_laneBodyV h (rfl : exec (.idiv f) s = execIdiv f s) :)
    · exact (lands_laneBodyV h (rfl : exec (.irem f) s = execIrem f s) :)
    · have hlat : latOf i = none := by
        obtain rfl | rfl := hi
        · exact (hlat f).1
        · exact (hlat f).2
      exact ⟨issueWb_isVar c o x hlat, fun hW => issueWb_due_mem (n := 16) x hlat (by simp [o, hW]) (by simp [o, hW]),
        fun hW => issueWb_due_mem (n := 32) x hlat (by simp [o, hW]) (by simp [o, hW])⟩
  case token =>
    intro f hst hreg
    have hd := dstCount_wideD_ne_zero f.mW f.d.toNat
    exact ⟨lacksToken_of_dst rfl (hlat f).1 rfl hst (dst_mem_usedFields (i := .idiv f) rfl rfl nofun hd) hreg,
      lacksToken_of_dst rfl (hlat f).2 rfl hst (dst_mem_usedFields (i := .irem f) rfl rfl nofun hd) hreg⟩
  case values =>
    intro w a b hw ha hb
    have hpos : 0 < w := by omega
    have hzero : ∀ u, b = 0 → readInt w u b = 0 := fun u => (readInt_eq_zero u hb).mpr
    have hne : b ≠ 0 → signed w b ≠ 0 := mt (readInt_eq_zero false hb).mp
    refine ⟨fun h => ⟨idivVal_of_zero a (hzero _ h), iremVal_of_zero ha (hzero _ h)⟩, fun h => ⟨?_, iremVal_of_zero ha (hzero _ h)⟩,
      fun hx hy => ⟨signed_idivVal_overflow hpos hx hy, iremVal_of_neg_one a hy⟩,
      fun h => ⟨idivVal_unsigned ha hb h, iremVal_unsigned ha hb h⟩, fun h hc => ?_⟩
    · rw [idivVal_of_zero a (hzero _ h), signed_two_pow_sub_one hpos]
    · rw [signed_idivVal hpos ha (hne h) hc, signed_iremVal hpos ha (hne h)]
      exact ⟨rfl, Int.tmod_def _ _, Int.tmod_nonneg _, tmod_nonpos _⟩

end Sys2Proof.Machine
end

section
/-!
LAUNCH, TLBI, HALT and the instructions on scan tests and retirement (R149, R354 to R360): what each one's own part answers.
-/

namespace Sys2Proof.Machine

/-! ### LAUNCH (R354, R364, R365) -/

theorem withAccess_of_ok {c : Iss} {s t : State} {r : Right} {obj : Bool} {ps : List Part} {ts : List TPart}
    (k : List TPart → State → Res) (h : c.access s r obj ps = .ok ts t) : withAccess c s r obj ps k = k ts t := by
  simp only [withAccess, h]

/-- A queue with room takes the record, under the next identifier. -/
theorem enqueueLaunch_of_lt {s : State} {ctx queue cap : Nat} (bs : List Byte) (host owner : Bool) (prio : Nat)
    (h : ((s.getCtx ctx).queues.get [] queue).length < cap) :
    enqueueLaunch s ctx queue cap bs host owner prio =
      some (s.nextLid, ({ s with nextLid := s.nextLid + 1, lids := s.lids.put s.nextLid (ctx, 0) } : State).modCtx ctx (fun x =>
        { x with queues := x.queues.put queue ((s.getCtx ctx).queues.get [] queue ++
          [{ lid := s.nextLid, bytes := bs, host := host, owner := owner, prio := prio }]) })) :=
  if_neg (Nat.not_le.mpr h)

theorem enqueueLaunch_of_full {s : State} {ctx queue cap : Nat} (bs : List Byte) (host owner : Bool) (prio : Nat)
    (h : cap ≤ ((s.getCtx ctx).queues.get [] queue).length) : enqueueLaunch s ctx queue cap bs host owner prio = none :=
  if_pos h

/-! ### The core operand (R356) -/

theorem Iss.withCore_of_gt {c : Iss} (wide : Bool) (k : Nat → Res) (h : 319 < c.coreArg) :
    c.withCore wide k = c.status c.s wide (if wide then 2 ^ 64 - 1 else 2 ^ 32 - 1) := if_pos h

theorem Iss.withCore_of_le {c : Iss} (wide : Bool) (k : Nat → Res) (h : c.coreArg ≤ 319) :
    c.withCore wide k = k c.coreArg := if_neg (Nat.not_lt.mpr h)

/-- An instruction whose own part answers one status for all active lanes. -/
theorem answers_of_status {s t : State} {i : Instr} {c0 c1 c : Iss} {run : Iss → Res} {wide : Bool} {x : Nat}
    (h : Issues s i c0 c1 c) (he : exec i s = .next (issue i { run := run } s)) (hr : run c = c.status t wide x) :
    Claim.Answers s c i t wide x :=
  issue_lands (b := { run := run }) (o := { s := t }) h rfl rfl hr he

/-- R356 for a core above 319. -/
theorem answers_of_coreArg_gt {s : State} {i : Instr} {c0 c1 c : Iss} {wide : Bool} {k : Iss → Nat → Res} (h : Issues s i c0 c1 c)
    (he : exec i s = .next (issue i { run := fun c => c.withCore wide (k c) } s)) (hp : 319 < c.coreArg) :
    Claim.Answers s c i c.s wide (if wide then 2 ^ 64 - 1 else 2 ^ 32 - 1) :=
  answers_of_status h he (Iss.withCore_of_gt wide (k c) hp)

/-- The same for a core that there is. -/
theorem answers_of_coreArg_le {s t : State} {i : Instr} {c0 c1 c : Iss} {wide : Bool} {k : Iss → Nat → Res} {x : Nat}
    (h : Issues s i c0 c1 c) (he : exec i s = .next (issue i { run := fun c => c.withCore wide (k c) } s))
    (hp : c.coreArg ≤ 319) (hk : k c c.coreArg = c.status t wide x) : Claim.Answers s c i t wide x :=
  answers_of_status h he ((Iss.withCore_of_le wide (k c) hp).trans hk)

/-! ### Scan tests (R357, R358) -/

theorem scanning_iff (s : State) (p : Nat) : scanning s p = true ↔ (s.getCore p).scan.state = 1 := decide_eq_true_iff

/-- The status with which SCANGO answers is the one that R357 gives. -/
theorem scanStatus_eq_scanAnswer (s : State) (p : Nat) : scanStatus s p = Claim.scanAnswer s p := by
  simp only [scanStatus, Claim.scanAnswer, inService, scanning_iff, Bool.not_eq_true', Bool.or_eq_true, decide_eq_true_eq,
    List.any_eq_true]

/-- Settles O35: the checks of LAUNCH's own part pass in turn, up to the room in its queue; what answers a status does so by
whether there is such a core and by how its scan stands; TLBI and HALT have one case each. -/
theorem systemInstructions : Obligations.SystemInstructions := by
  unfold Obligations.SystemInstructions
  intro s f c0 c1 c
  refine ⟨?launch, ?tlbi, ?halt, ?noCore, ?core⟩
  case launch =>
    intro u ts t h hfence haccess r n q hpoison new v
    refine ⟨fun hroom => ?_, fun hfull => ?_⟩
    · refine issue_next h rfl rfl rfl rfl rfl ?_
      simp only [hfence, withAccess_of_ok _ haccess]
      rw [if_neg (ne_true_of_eq_false hpoison), enqueueLaunch_of_lt _ _ _ _ hroom]
      rfl
    · refine issue_next h rfl rfl rfl rfl rfl ?_
      simp only [hfence, withAccess_of_ok _ haccess]
      rw [if_neg (ne_true_of_eq_false hpoison), enqueueLaunch_of_full _ _ _ _ hfull]
      rfl
  case tlbi => exact fun h => issue_next h rfl rfl rfl rfl rfl rfl
  case halt =>
    intro h
    exact congrArg Host.Outcome.next (issue_other h rfl rfl rfl)
  case noCore =>
    rintro i wide (⟨rfl, rfl⟩ | ⟨rfl, rfl⟩ | ⟨rfl, rfl⟩ | ⟨rfl, rfl⟩) h hp <;>
      exact answers_of_coreArg_gt h rfl hp
  case core =>
    rintro p rfl hp
    refine ⟨fun h => ?scango, fun h => ?scanpoll, fun h => ?scanstop, fun h hscan => ?notFailed, fun h hscan hmask => ?retired,
      fun h hscan hmask ps xs u hplace => ?retiring⟩
    case scango =>
      rw [← scanStatus_eq_scanAnswer]
      exact answers_of_coreArg_le h rfl hp rfl
    case scanpoll => exact answers_of_coreArg_le h rfl hp rfl
    case scanstop =>
      refine answers_of_coreArg_le h rfl hp ?_
      simp only [scanning_iff]
    case notFailed => exact answers_of_coreArg_le h rfl hp (if_pos hscan)
    case retired =>
      refine answers_of_coreArg_le h rfl hp ?_
      simp only [hscan, ne_eq, not_true_eq_false, if_false, inService, hmask, Bool.not_false, if_true]
    case retiring =>
      refine issue_next h rfl rfl rfl rfl rfl ?_
      simp only [Iss.withCore_of_le _ _ hp, hscan, ne_eq, not_true_eq_false, if_false, inService, hmask, Bool.not_true, Bool.false_eq_true, hplace]

end Sys2Proof.Machine
end

section
/-!
One step of the package (R508, R516, R522): it answers a next state, it keeps memory canonical, and what it is before and without
supply.
-/

namespace Sys2Proof.Machine

/-! ### Memory in its canonical form -/

theorem perform_canon {s : State} (r : Ready) (hs : Memory.wf s.mem = true) :
    ∀ t, perform s r = .next t → Memory.wf t.mem = true := by
  unfold perform
  split
  · exact exec_canon _ s hs
  · exact next_canon hs
  · exact next_canon (by rw [served_mem]; exact trapEntry_canon s r _ _ _ hs)
  · exact afterIssue_canon r _ (exec_canon _ _ hs)

theorem stepRunning_canon {s : State} (hs : Memory.wf s.mem = true) : ∀ t, stepRunning s = .next t → Memory.wf t.mem = true := by
  unfold stepRunning
  split
  · exact exec_canon _ _ hs
  split
  · exact exec_canon _ s hs
  split
  · exact execCollectiveComplete_canon _ _ s hs
  split
  · exact perform_canon _ hs
  · exact next_canon (tick_canon s hs)

theorem stepWaiting_canon {s : State} (hs : Memory.wf s.mem = true) : ∀ t, stepWaiting s = .next t → Memory.wf t.mem = true := by
  unfold stepWaiting
  split
  · exact exec_canon _ _ hs
  · exact next_canon hs

theorem stepDead_canon {s : State} (why : Fault) (hs : Memory.wf s.mem = true) :
    ∀ t, stepDead s why = .next t → Memory.wf t.mem = true := by
  unfold stepDead
  split
  · exact exec_canon .deviceReset _ hs
  · exact exec_canon .shockSensorLatch _ hs
  · intro t h
    cases h

/-- Settles O60: every meaning keeps memory in its canonical form (`exec_canon`), and so does what a step does besides, by cases on
what the supply lets the package do. -/
theorem memoryStaysCanonical : Obligations.MemoryStaysCanonical := by
  unfold Obligations.MemoryStaysCanonical
  intro s t hs
  unfold step
  split
  · exact exec_canon .deviceReset s hs t
  · exact stepDead_canon _ hs t
  · exact stepDead_canon _ hs t
  · exact stepWaiting_canon hs t
  · exact stepWaiting_canon hs t
  · exact stepRunning_canon hs t

/-! ### A next state -/

/-- No meaning stops the machine: each is written as a next state. -/
theorem exec_next (i : Instr) (s : State) : ∃ t, exec i s = .next t := by
  cases i <;> exact ⟨_, rfl⟩

theorem perform_next (s : State) (r : Ready) : ∃ t, perform s r = .next t := by
  unfold perform
  split
  · exact exec_next _ s
  · exact ⟨_, rfl⟩
  · exact ⟨_, rfl⟩
  · next i npc base _ =>
    obtain ⟨t, ht⟩ := exec_next i (cursorAt (passOver s r) r npc base)
    exact ⟨served t r, by rw [ht]; rfl⟩

theorem stepRunning_next (s : State) : ∃ t, stepRunning s = .next t := by
  unfold stepRunning
  split
  · exact exec_next _ _
  split
  · exact exec_next _ s
  split
  · next g _ => exact exec_next (.collectiveComplete g []) s
  split
  · exact perform_next s _
  · exact ⟨_, rfl⟩

theorem stepWaiting_next (s : State) : ∃ t, stepWaiting s = .next t := by
  unfold stepWaiting
  split
  · exact exec_next _ _
  · exact ⟨_, rfl⟩

/-- What is applied from outside is first on the list, and leaves it. -/
theorem applyOutside_head {s : State} {i : Instr} {more : List Instr} (h : s.agenda = i :: more) :
    applyOutside s i = exec i { s with agenda := s.agenda.tail } := by
  rw [applyOutside, h, List.erase_cons_head, List.tail_cons]

theorem step_off {s : State} (h : s.power = .off) : step s = stepDead s .unpowered := by simp only [step, h]

theorem stepDead_deviceReset {s : State} {more : List Instr} (why : Fault) (h : s.agenda = .deviceReset :: more) :
    stepDead s why = exec .deviceReset { s with agenda := s.agenda.tail } := by
  rw [← applyOutside_head h]
  simp only [stepDead, h]

theorem stepDead_shockSensorLatch {s : State} {more : List Instr} (why : Fault) (h : s.agenda = .shockSensorLatch :: more) :
    stepDead s why = exec .shockSensorLatch { s with agenda := s.agenda.tail } := by
  rw [← applyOutside_head h]
  simp only [stepDead, h]

theorem stepDead_fault {s : State} (why : Fault) (hr : ∀ more, s.agenda = .deviceReset :: more → False)
    (hl : ∀ more, s.agenda = .shockSensorLatch :: more → False) : stepDead s why = .fault why := by
  unfold stepDead
  split
  · next ha => exact (hr _ ha).elim
  · next ha => exact (hl _ ha).elim
  · rfl

theorem step_reset {s : State} (h : s.power = .reset) : step s = exec .deviceReset s := by simp only [step, h]

/-- Settles O52: every meaning answers a next state (`exec_next`), so that a step can only stop where it runs none. -/
theorem everyStepGoesOn : Obligations.EveryStepGoesOn := by
  unfold Obligations.EveryStepGoesOn
  refine ⟨exec_next, fun s hoff hrec => ?_, fun s h => ?_, fun s h ha => ?_, fun s h => step_reset h⟩
  · unfold step
    split
    · exact exec_next .deviceReset s
    · contradiction
    · contradiction
    · exact stepWaiting_next s
    · exact stepWaiting_next s
    · exact stepRunning_next s
  · rw [step_off h]
    split
    · next ha => exact stepDead_deviceReset _ ha
    · next ha => exact stepDead_shockSensorLatch _ ha
    · next hr hl => exact stepDead_fault _ hr hl
  · simp only [step, h, stepDead, ha]

/-! ### Reset -/

/-- SHOCK as a device reset leaves it: a power-on copies it from the sensor (R522). -/
def shockAfterReset (s : State) : Bool := if s.power = .reset ∨ s.power = .off then s.nv.shock else s.shockAtPower

/-- What a device reset with an accepted image leaves: the self-test runs, all work is gone, and the core map and PODID come from the
non-volatile store (R516, R522). -/
theorem deviceReset_accepted {s : State} (hf : Config.firmwareAccepted s.free = true) :
    ∃ t, exec .deviceReset s = .next t ∧ t.power = .booting (shockAfterReset s || s.nv.streq) ∧ t.cyc = 0 ∧ t.ctxs = [] ∧
      t.launches = [] ∧ t.wgs = [] ∧ t.warps = [] ∧ t.sessions = [] ∧ t.owner = none ∧ t.nv = s.nv ∧ t.mask = s.nv.mask ∧
      t.epoch = s.nv.epoch ∧ t.podid = s.nv.podid ∧ t.held = s.held :=
  ⟨_, rfl, by simp [hf, restorePlog, blank, State.reset, shockAfterReset]⟩

/-- Settles O58: the reset state by its definition, and the first step by what a device reset leaves. -/
theorem resetState : Obligations.ResetState := by
  unfold Obligations.ResetState
  refine ⟨rfl, rfl, rfl, rfl, rfl, rfl, rfl, rfl, rfl, rfl, rfl, rfl, fun s h hf => ?_⟩
  obtain ⟨t, ht, hpower, hcyc, hctxs, hlaunches, hwgs, hwarps, hsessions, howner, hnv, hmask, -⟩ := deviceReset_accepted hf
  refine ⟨t, (step_reset h).trans ht, ?_, hcyc, hctxs, hlaunches, hwgs, hwarps, hsessions, howner, by rw [hnv], hmask⟩
  rw [hpower, shockAfterReset, if_pos (.inl h)]

end Sys2Proof.Machine
end

section
/-!
Encoding and decoding agree (R186, R190, R200): a word is made of its fields, an instruction that is read stands in the row of the
word's OP and FN, and the word of an instruction is read as that instruction.
-/

namespace Sys2Proof.Laws.RoundTrip

/-- The word of an instruction is read as that instruction: the lemma of each row. -/
theorem statement : (i : Instr) → Statement i
  | .nop f => nop f | .bra f => bra f | .brx f => brx f | .call f => call f | .callx f => callx f | .ret f => ret f
  | .exit f => exit f | .yield f => yield f | .sleep f => sleep f | .partset f => partset f | .partget f => partget f
  | .rjopen f => rjopen f | .rjopenMask f => rjopenMask f | .rjjoin f => rjjoin f | .rjquit f => rjquit f
  | .rjwait f => rjwait f | .rjtest f => rjtest f | .rjmask f => rjmask f | .rjclose f => rjclose f
  | .orphanedSetTrap wg warp => orphanedSetTrap wg warp | .iadd f => iadd f | .isum3 f => isum3 f | .isub f => isub f
  | .ineg f => ineg f | .iabs f => iabs f | .imin f => imin f | .imax f => imax f | .isat f => isat f | .icmp f => icmp f
  | .sel f => sel f | .lea f => lea f | .imul f => imul f | .imulh f => imulh f | .imad f => imad f | .imadw f => imadw f
  | .idiv f => idiv f | .irem f => irem f | .and f => and f | .or f => or f | .xor f => xor f | .not f => not f
  | .blut f => blut f | .plut f => plut f | .pmovGet f => pmovGet f | .pmovSet f => pmovSet f | .mov f => mov f
  | .movi f => movi f | .movk f => movk f | .shl f => shl f | .shr f => shr f | .sar f => sar f | .fshl f => fshl f
  | .fshr f => fshr f | .bfe f => bfe f | .bfi f => bfi f | .brev f => brev f | .popc f => popc f | .clz f => clz f
  | .ctz f => ctz f | .sext f => sext f | .zext f => zext f | .fadd f => fadd f | .fsub f => fsub f | .fmul f => fmul f
  | .ffma f => ffma f | .fmin f => fmin f | .fmax f => fmax f | .fcmp f => fcmp f | .fclass f => fclass f | .frnd f => frnd f
  | .fscale f => fscale f | .fdot f => fdot f | .fcvt f => fcvt f | .fcvts f => fcvts f | .f2i f => f2i f | .i2f f => i2f f
  | .fpack f => fpack f | .funpack f => funpack f | .rand f => rand f | .frcp f => frcp f | .frsq f => frsq f
  | .fsqrt f => fsqrt f | .fdiv f => fdiv f | .fexp2 f => fexp2 f | .flog2 f => flog2 f | .fsin f => fsin f | .fcos f => fcos f
  | .ftanh f => ftanh f | .vote f => vote f | .shfl f => shfl f | .redux f => redux f | .scan f => scan f
  | .matchL f => matchL f | .sdef f => sdef f | .sseek f => sseek f | .spos f => spos f | .sflag f => sflag f
  | .chain f => chain f | .ld f => ld f | .st f => st f | .ldk f => ldk f | .ldpk f => ldpk f | .stpk f => stpk f
  | .pref f => pref f | .stpair f => stpair f | .lds f => lds f | .sts f => sts f | .ldq f => ldq f | .stq f => stq f
  | .ldmc f => ldmc f | .atom f => atom f | .atomf f => atomf f | .lr f => lr f | .sc f => sc f | .red f => red f
  | .redf f => redf f | .lrHoldExpiry granule => lrHoldExpiry granule | .fence f => fence f | .bind f => bind f
  | .unbind f => unbind f | .acq f => acq f | .acqGe f => acqGe f | .acqGeWake wg warp => acqGeWake wg warp | .rel f => rel f
  | .bar f => bar f | .bara f => bara f | .barw f => barw f | .rrmodeOff f => rrmodeOff f | .rrmodeRec f => rrmodeRec f
  | .rrmodePlay f => rrmodePlay f | .ordgate f => ordgate f | .carve f => carve f | .cwb f => cwb f | .cinv f => cinv f
  | .cinvI f => cinvI f | .mxacq f => mxacq f | .mxrel f => mxrel f | .engineRelease core => engineRelease core
  | .tdesc f => tdesc f | .tmaskSet f => tmaskSet f | .tmaskFirst f => tmaskFirst f | .gdecl f => gdecl f | .tamax f => tamax f
  | .tscupd f => tscupd f | .tmma f => tmma f | .tmmab f => tmmab f | .tact f => tact f | .tew f => tew f | .tred f => tred f
  | .ttrans f => ttrans f | .tscl f => tscl f | .tcvt f => tcvt f | .tzero f => tzero f | .taccld f => taccld f
  | .taccst f => taccst f | .tdrain f => tdrain f | .tcopy f => tcopy f | .tcopyTile f => tcopyTile f | .tgather f => tgather f
  | .tscatter f => tscatter f | .tcoll f => tcoll f | .hwait f => hwait f | .htest f => htest f | .hcancel f => hcancel f
  | .hsleep f => hsleep f | .hstat f => hstat f | .recbegin f => recbegin f | .recend f => recend f | .recmark f => recmark f
  | .reverse f => reverse f | .logq f => logq f | .trap f => trap f | .eret f => eret f | .mfs f => mfs f
  | .mtsWcr f => mtsWcr f | .mtsXflagsClear f => mtsXflagsClear f | .mtsFmt f => mtsFmt f | .mtsAmr f => mtsAmr f
  | .mtsSc f => mtsSc f | .mtsMx f => mtsMx f | .cycrd f => cycrd f | .launch f => launch f | .tlbi f => tlbi f
  | .tlbiAcknowledge wg warp => tlbiAcknowledge wg warp | .scango f => scango f | .scanpoll f => scanpoll f
  | .scanstop f => scanstop f | .coreret f => coreret f | .halt f => halt f
  | .icacheFill core asid va => icacheFill core asid va
  | .variableLatencyCompletion wg warp idx => variableLatencyCompletion wg warp idx
  | .fairnessOverdue wg warp pc => fairnessOverdue wg warp pc | .sleepWake wg warp wake => sleepWake wg warp wake
  | .hsleepWake wg warp wake => hsleepWake wg warp wake | .infuserCommandStart core => infuserCommandStart core
  | .nativeStepComplete core => nativeStepComplete core | .engineCommandCompletion ctx => engineCommandCompletion ctx
  | .collectiveComplete group remote => collectiveComplete group remote
  | .reportedTrapDelivery wg warp => reportedTrapDelivery wg warp | .atomicUnitOperation idx => atomicUnitOperation idx
  | .replayDivergence ctx entry => replayDivergence ctx entry | .pageWalkComplete asid va => pageWalkComplete asid va
  | .remoteTimeout wg warp => remoteTimeout wg warp | .ualinkRemoteRequest req => ualinkRemoteRequest req
  | .yieldRequest core => yieldRequest core | .workgroupSave wg => workgroupSave wg
  | .safePointOverdue wg => safePointOverdue wg | .safePointSecondBudget wg => safePointSecondBudget wg
  | .bindCreate core => bindCreate core | .bindResume core => bindResume core | .bindWithdrawCore core => bindWithdrawCore core
  | .bindReturnCore core => bindReturnCore core | .workgroupRetire wg => workgroupRetire wg
  | .launchRecordTake ctx queue => launchRecordTake ctx queue | .workgroupPlacement lslot => workgroupPlacement lslot
  | .launchFinish lslot => launchFinish lslot | .deterministicMerge wg => deterministicMerge wg
  | .bufferFullRelease wg => bufferFullRelease wg | .coreRenumber core => coreRenumber core
  | .scanComplete core => scanComplete core | .scanAbort core => scanAbort core | .write fr => write fr | .read fr => read fr
  | .release fr => release fr | .launchFrame fr => launchFrame fr | .mgmtRead fr => mgmtRead fr | .mgmtWrite fr => mgmtWrite fr
  | .mgmtWritePkgid fr => mgmtWritePkgid fr | .mgmtWritePodid fr => mgmtWritePodid fr | .mgmtWriteIpctl fr => mgmtWriteIpctl fr
  | .mgmtWriteGroup fr => mgmtWriteGroup fr | .ipaddrDadComplete dup => ipaddrDadComplete dup
  | .mailboxAckTimer sess => mailboxAckTimer sess | .neighbourDiscovery peer pk => neighbourDiscovery peer pk
  | .icmpv6Echo peer pk => icmpv6Echo peer pk | .hostLinkUp up => hostLinkUp up | .hello fr => hello fr | .prove fr => prove fr
  | .proveTimeout idx => proveTimeout idx | .claim fr => claim fr | .handover fr => handover fr | .close fr => close fr
  | .electionWindowClose => electionWindowClose | .ownershipLapse => ownershipLapse | .load ctx => load ctx
  | .unload ctx => unload ctx | .installSupervisor ctx => installSupervisor ctx | .setSavePool ctx => setSavePool ctx
  | .qpfTranslationComplete ctx load kix res => qpfTranslationComplete ctx load kix res
  | .supplyDroop level => supplyDroop level | .supplyLevelRecovery => supplyLevelRecovery | .holdEntry => holdEntry
  | .holdExit cycles => holdExit cycles | .powerFail => powerFail | .linkRetrain link => linkRetrain link
  | .linkRetrainComplete link lanes => linkRetrainComplete link lanes | .softError e => softError e
  | .errorEventCount kind inst => errorEventCount kind inst | .errorWindowClose kind inst => errorWindowClose kind inst
  | .cntWrite k value => cntWrite k value | .streqWrite value => streqWrite value | .mapCommit => mapCommit
  | .mapApply => mapApply | .hubRegisterWrite off data => hubRegisterWrite off data | .deviceReset => deviceReset
  | .selfTestComplete failedCores otherFail => selfTestComplete failedCores otherFail | .tamperAlarm => tamperAlarm
  | .glitchAlarm => glitchAlarm | .malformedFrame fr => malformedFrame fr
  | .writePerformedAtL2 core line => writePerformedAtL2 core line | .endToEndCrcMismatch what n => endToEndCrcMismatch what n
  | .shockSensorLatch => shockSensorLatch

end Sys2Proof.Laws.RoundTrip

namespace Sys2Proof

/-- Adjoining parts of a word are one part. -/
theorem extractLsb'_append_below {m : Nat} (w : BitVec m) (mid lo n k : Nat) (h : mid = lo + n) :
    w.extractLsb' mid k ++ w.extractLsb' lo n = w.extractLsb' lo (k + n) := by
  subst h
  apply BitVec.eq_of_getLsbD_eq
  intro i hi
  simp only [BitVec.getLsbD_append, BitVec.getLsbD_extractLsb']
  split
  next hlow => simp [hlow, hi]
  next hhigh => simp [hi, show i - n < k by omega, show lo + n + (i - n) = lo + i by omega]

theorem ofBool_getLsbD {m : Nat} (w : BitVec m) (i : Nat) : BitVec.ofBool (w.getLsbD i) = w.extractLsb' i 1 := by
  apply BitVec.eq_of_getLsbD_eq
  intro j hj
  simp [show j = 0 by omega]

/-- A canonical word is the word of its own OP, FN and fields. -/
theorem wordOf_fieldsOf {w : CWord} (h : w.toNat < 2 ^ 94) : wordOf (wordOp w) (wordFn w) (fieldsOf w) = w := by
  have hop : BitVec.ofNat 8 (wordOp w) = w.extractLsb' 0 8 := BitVec.eq_of_toNat_eq (by simp [wordOp, bits, BitVec.extractLsb'_toNat])
  have hfn : BitVec.ofNat 4 (wordFn w) = w.extractLsb' 8 4 :=
    BitVec.eq_of_toNat_eq (by simp [wordFn, bits, BitVec.extractLsb'_toNat, Nat.shiftRight_eq_div_pow])
  have htop : (0 : BitVec 2) = w.extractLsb' 94 2 := (extractLsb'_eq_zero_of_lt w 94 2 h (by omega)).symm
  simp only [wordOf, fieldsOf, hop, hfn, htop, ofBool_getLsbD]
  rw [extractLsb'_append_below w 94 66 28 _ rfl, extractLsb'_append_below w 66 65 1 _ rfl, extractLsb'_append_below w 65 57 8 _ rfl,
    extractLsb'_append_below w 57 51 6 _ rfl, extractLsb'_append_below w 51 48 3 _ rfl, extractLsb'_append_below w 48 47 1 _ rfl,
    extractLsb'_append_below w 47 44 3 _ rfl, extractLsb'_append_below w 44 36 8 _ rfl, extractLsb'_append_below w 36 28 8 _ rfl,
    extractLsb'_append_below w 28 20 8 _ rfl, extractLsb'_append_below w 20 19 1 _ rfl, extractLsb'_append_below w 19 16 3 _ rfl,
    extractLsb'_append_below w 16 12 4 _ rfl, extractLsb'_append_below w 12 8 4 _ rfl, extractLsb'_append_below w 8 0 8 _ rfl]
  exact BitVec.extractLsb'_eq_self

/-- The instruction stands in the row of OP `op` and FN `fn`, with these fields. -/
def InRow (op fn : Nat) (f : Fields) (i : Instr) : Prop := opFn i = some (op, fn) ∧ i.fields = some f ∧ i.rowOk = true

theorem inRow_of_selectInstr {op fn : Nat} {f : Fields} {i : Instr} (h : selectInstr op fn f = some i) : InRow op fn f i := by
  unfold selectInstr at h
  split at h
  case h_24 => cases h
  all_goals
    simp only [selectOp00, selectOp01, selectOp02, selectOp03, selectOp04, selectOp05, selectOp10, selectOp11, selectOp12, selectOp13,
      selectOp14, selectOp20, selectOp21, selectOp22, selectOp23, selectOp24, selectOp30, selectOp31, selectOp32, selectOp33,
      selectOp38, selectOp3C, selectOp3D] at h
    split at h
  all_goals
    cases h
    repeat' split
  all_goals
    have hbits : bits f.immN 18 2 < 4 := Nat.mod_lt _ (by decide)
    exact ⟨rfl, rfl, by simp_all [Instr.rowOk] <;> omega⟩

/-- What the decoder reads from a word stands in its row. -/
theorem inRow_of_decodeWord {w : CWord} {i : Instr} (h : decodeWord w = .ok i) : InRow (wordOp w) (wordFn w) (fieldsOf w) i := by
  unfold decodeWord at h
  split at h
  · next hs =>
    cases h
    exact inRow_of_selectInstr hs
  · cases h

/-- An instruction with an OP and FN has fields. -/
theorem exists_fields_of_opFn {i : Instr} (h : opFn i ≠ none) : ∃ f, i.fields = some f := by
  cases i <;> first | exact ⟨_, rfl⟩ | exact absurd rfl h

/-- The shortest form carries every nonzero bit of its word. -/
theorem formCode_carries {w : CWord} (h : w.toNat < 2 ^ 94) : formCode w < 4 ∧ w.toNat < 2 ^ (8 * formLength (formCode w) - 2) := by
  unfold formCode
  split_ifs <;> exact ⟨by decide, by assumption⟩

/-- A word has two zero bits at its top. -/
theorem wordOf_lt (op fn : Nat) (f : Fields) : (wordOf op fn f).toNat < 2 ^ 94 := by
  refine Nat.lt_pow_two_of_testBit _ fun i hi => ?_
  by_cases htop : i < 96
  · have hcases : i = 94 ∨ i = 95 := by omega
    change (wordOf op fn f).getLsbD i = false
    rcases hcases with rfl | rfl <;> (simp only [wordOf, BitVec.getLsbD_append]; simp)
  · exact BitVec.getLsbD_of_ge _ _ (by omega)

theorem decodeBytes_storeForm {w : CWord} {i : Instr} (hw : w.toNat < 2 ^ 94) (h : decodeWord w = .ok i) (rest : List Byte) :
    decodeBytes (storeForm w ++ rest) = .ok (i, (storeForm w).length) := by
  obtain ⟨hcode, hcarry⟩ := formCode_carries hw
  rw [storeForm, decodeBytes_of_expandForm _ w _ (expandForm_toLE_append w (formCode w) rest hcode hcarry), h, length_toLE]
  rfl

/-- Settles O48: the word of an instruction is below 2^94, so that its shortest form is read as it and it as the instruction; a word
that is read has the instruction's row, and is made of its fields; and no row is an event's. -/
theorem encodingAndDecodingAgree : Obligations.EncodingAndDecodingAgree := by
  unfold Obligations.EncodingAndDecodingAgree
  refine ⟨fun i hop hrow => ?_, fun w i hw h => ?_, fun i hop => ⟨by simp [encode, encodeWord, hop], fun w h => ?_⟩⟩
  · obtain ⟨⟨op, fn⟩, hop⟩ := Option.ne_none_iff_exists'.mp hop
    obtain ⟨f, hf⟩ := exists_fields_of_opFn (i := i) (by simp [hop])
    have hword : encodeWord i = some (wordOf op fn f) := by simp [encodeWord, hop, hf, hrow]
    refine ⟨storeForm (wordOf op fn f), by simp [encode, hword], ?_,
      decodeBytes_storeForm (wordOf_lt op fn f) (Laws.RoundTrip.statement i _ hword)⟩
    simpa [storeForm] using formLength_cases (formCode (wordOf op fn f))
  · obtain ⟨hop, hf, hrow⟩ := inRow_of_decodeWord h
    exact ⟨by simp [encodeWord, hop, hf, hrow, wordOf_fieldsOf hw], hop, hf⟩
  · obtain ⟨hsome, -⟩ := inRow_of_decodeWord h
    rw [hop] at hsome
    cases hsome

/-- Settles O50: each printed word is decoded and encoded in turn; OP 0x06 has no row. -/
theorem specWordsDecode : Obligations.SpecWordsDecode := by
  unfold Obligations.SpecWordsDecode
  exact ⟨by decide, rfl⟩

end Sys2Proof
end

section
/-!
Bytes of memory as they are read (R4, R136, R139, R140): after a write at the owning L2, and after a weak store into a core's L1.
-/

namespace Sys2Proof.Machine

/-! ### The owning L2 -/

/-- A write at the owning L2 is read there; hub registers and what an L1 holds are as they were. -/
theorem memByte_l2Write {s : State} {pa a : Nat} {bs : List Byte} (h : ownHub s pa = false) (ha : ownHub s a = false) :
    memByte (l2Write s pa bs) a = if pa ≤ a ∧ a < pa + bs.length then bs.getD (a - pa) 0 else memByte s a := by
  obtain ⟨w, mp, hw⟩ := l2Write_shape s pa bs h
  have hread := memSets_get bs 0 pa s.mem a
  rw [← List.range_eq_range', Nat.add_zero, Nat.sub_zero] at hread
  have hown : ownHub (l2Write s pa bs) a = false := by rw [hw]; exact ha
  rw [memByte, hown, if_neg Bool.false_ne_true, memByte, ha, if_neg Bool.false_ne_true, hw]
  exact hread

theorem l1Peek_of_find?_none {s : State} {p a : Nat} (h : (s.getCore p).l1.find? a = none) : l1Peek s p a = memByte s a := by
  simp only [l1Peek, h]

theorem memByte_reset {a : Nat} (h : paPkg a ≠ 0 ∨ inHub (paLocal a) = false) : memByte State.reset a = 0 := by
  have hown : ownHub State.reset a = false := by
    rw [ownHub, Bool.and_eq_false_iff, decide_eq_false_iff_not]
    exact h
  simp only [memByte, hown, Bool.false_eq_true, if_false]
  rfl

/-! ### The L1 -/

/-- A byte as read through what an L1 holds of it, over the owning L2's. -/
def throughL1 (held : Option L1Byte) (m : Byte) : Byte :=
  match held with
  | some b => (b.val &&& b.valid) ||| (m &&& ~~~b.valid)
  | none => m

theorem l1Peek_eq_throughL1 (s : State) (p a : Nat) : l1Peek s p a = throughL1 ((s.getCore p).l1.find? a) (memByte s a) := rfl

/-- What is stored under a mask is read under it, and what was read before elsewhere. -/
theorem throughL1_store (held : Option L1Byte) (x mask m : Byte) :
    let old := held.getD { val := 0, valid := 0, dirty := 0 }
    throughL1 (some { val := (x &&& mask) ||| (old.val &&& ~~~mask), valid := old.valid ||| mask, dirty := old.dirty ||| mask }) m =
      (x &&& mask) ||| (throughL1 held m &&& ~~~mask) := by
  apply BitVec.eq_of_getLsbD_eq
  intro i hi
  cases held with
  | none => simp [throughL1, hi]
  | some b => simp [throughL1, hi]; grind

/-- One byte stored, unless its mask is empty. -/
def l1StoreAt (pa : Nat) (c : Core) (e : Nat × Byte × Byte) : Core :=
  if e.2.2 = 0 then c else l1StoreByte c (pa + e.1) e.2.1 e.2.2

theorem l1StoreAt_find?_other {pa a : Nat} (c : Core) {e : Nat × Byte × Byte} (h : a ≠ pa + e.1) :
    (l1StoreAt pa c e).l1.find? a = c.l1.find? a := by
  unfold l1StoreAt
  split
  · rfl
  · exact Sparse.find?_put_other _ _ h

theorem throughL1_l1StoreAt (pa : Nat) (c : Core) (k : Nat) (x mask m : Byte) :
    throughL1 ((l1StoreAt pa c (k, x, mask)).l1.find? (pa + k)) m =
      (x &&& mask) ||| (throughL1 (c.l1.find? (pa + k)) m &&& ~~~mask) := by
  unfold l1StoreAt
  split
  next h =>
    obtain rfl : mask = 0 := h
    simp only [BitVec.ofNat_eq_ofNat, BitVec.and_zero, BitVec.not_zero, BitVec.and_allOnes, BitVec.zero_or]
  next =>
    simp only [l1StoreByte, Sparse.find?_put_same]
    exact throughL1_store _ x mask m

/-- Bytes stored one after another. -/
def l1StoreBytes (pa : Nat) (c : Core) (es : List (Nat × Byte × Byte)) : Core := es.foldl (l1StoreAt pa) c

theorem l1StoreBytes_find?_other {pa a : Nat} (c : Core) {es : List (Nat × Byte × Byte)} (h : ∀ e ∈ es, a ≠ pa + e.1) :
    (l1StoreBytes pa c es).l1.find? a = c.l1.find? a := by
  induction es generalizing c with
  | nil => rfl
  | cons e es ih =>
    obtain ⟨he, hes⟩ := List.forall_mem_cons.mp h
    exact (ih _ hes).trans (l1StoreAt_find?_other c he)

/-- The entry numbered `k + j` is stored at its place. -/
theorem throughL1_l1StoreBytes {pa : Nat} (c : Core) (bs : List (Byte × Byte)) (k j : Nat) {x mask : Byte} (m : Byte)
    (h : bs[j]? = some (x, mask)) :
    throughL1 ((l1StoreBytes pa c ((List.range' k bs.length).zip bs)).l1.find? (pa + (k + j))) m =
      (x &&& mask) ||| (throughL1 (c.l1.find? (pa + (k + j))) m &&& ~~~mask) := by
  induction bs generalizing c k j with
  | nil => cases h
  | cons b bs ih =>
    change throughL1 ((l1StoreBytes pa (l1StoreAt pa c (k, b)) ((List.range' (k + 1) bs.length).zip bs)).l1.find? (pa + (k + j))) m = _
    cases j with
    | zero =>
      cases h
      rw [Nat.add_zero, l1StoreBytes_find?_other]
      · exact throughL1_l1StoreAt pa c k x mask m
      · intro e he
        have := List.mem_range'_1.mp (List.of_mem_zip he).1
        omega
    | succ j =>
      rw [show k + (j + 1) = k + 1 + j by omega, ih _ _ _ h]
      congr 3
      exact l1StoreAt_find?_other c (by omega)

theorem l1Put_eq (s : State) (p pa : Nat) (bs : List (Byte × Byte)) (asid va : Nat) :
    l1Put s p pa bs asid va = s.setCore p { l1StoreBytes pa (s.getCore p) ((List.range' 0 bs.length).zip bs) with
      l1tag := (l1StoreBytes pa (s.getCore p) ((List.range' 0 bs.length).zip bs)).l1tag.put (pa / 128) (asid, va / 65536) } := by
  rw [l1Put, List.range_eq_range']
  rfl

theorem memByte_setCore (s : State) (p : Nat) (c : Core) (a : Nat) : memByte (s.setCore p c) a = memByte s a := rfl

/-- The bytes stored are read through the core's L1, each under its mask. -/
theorem l1Peek_l1Put {s : State} {p pa : Nat} {bs : List (Byte × Byte)} {asid va k : Nat} {x mask : Byte} (h : bs[k]? = some (x, mask)) :
    l1Peek (l1Put s p pa bs asid va) p (pa + k) = (x &&& mask) ||| (l1Peek s p (pa + k) &&& ~~~mask) := by
  have hstore := throughL1_l1StoreBytes (pa := pa) (s.getCore p) bs 0 k (memByte s (pa + k)) h
  rw [Nat.zero_add] at hstore
  rw [l1Put_eq, l1Peek_eq_throughL1, State.getCore_setCore_same, memByte_setCore, l1Peek_eq_throughL1, hstore]

theorem l1Peek_l1Put_outside {s : State} {p pa a : Nat} {bs : List (Byte × Byte)} {asid va : Nat} (h : a < pa ∨ pa + bs.length ≤ a) :
    l1Peek (l1Put s p pa bs asid va) p a = l1Peek s p a := by
  rw [l1Put_eq, l1Peek_eq_throughL1, State.getCore_setCore_same, memByte_setCore, l1Peek_eq_throughL1]
  congr 1
  refine l1StoreBytes_find?_other _ fun e he => ?_
  have := List.mem_range'_1.mp (List.of_mem_zip he).1
  omega

theorem l1Peek_l1Put_other {s : State} {p q pa a : Nat} {bs : List (Byte × Byte)} {asid va : Nat} (h : q ≠ p) :
    l1Peek (l1Put s p pa bs asid va) q a = l1Peek s q a := by
  rw [l1Put_eq, l1Peek_eq_throughL1, State.getCore_setCore_other _ _ h, memByte_setCore, l1Peek_eq_throughL1]

/-- A store to a line that is held, or that finds room, goes into the L1. -/
theorem l1Store_eq_l1Put {s u : State} {p pa hint asid va : Nat} {bs : List (Byte × Byte)}
    (h : (l1Present (s.getCore p) pa = true ∧ u = s) ∨
      (l1Present (s.getCore p) pa = false ∧ hintAllocates hint 0 = true ∧ l1Room s p (pa / 128) = some u)) :
    l1Store s p pa bs hint 0 asid va = l1Put u p pa bs asid va := by
  obtain ⟨hp, rfl⟩ | ⟨hp, ha, hr⟩ := h
  · simp only [l1Store, hp, if_true]
  · simp only [l1Store, hp, Bool.false_eq_true, if_false, ha, if_true, hr]

/-- Settles O57: the bytes of a write lie one after another in memory, and those of a weak store in the core's L1. -/
theorem memoryBytes : Obligations.MemoryBytes := by
  unfold Obligations.MemoryBytes
  refine ⟨fun s pa bs hne hown => ?l2, wipeMemory_canon, fun s u p pa hint asid va bs h => ?l1, fun s p line h => ?room, rfl,
    fun a => memByte_reset⟩
  case l2 =>
    have hpa : ownHub s pa = false := hown 0 (List.length_pos_iff.mpr hne)
    obtain ⟨w, mp, hw⟩ := l2Write_shape s pa bs hpa
    refine ⟨fun a ha => memByte_l2Write hpa ha, fun p a hl1 ha => ?_, by rw [hw], by rw [hw], by rw [hw], l2Write_canon s pa bs⟩
    rw [l1Peek_of_find?_none hl1, ← memByte_l2Write hpa ha]
    exact l1Peek_of_find?_none (by rw [hw]; exact hl1)
  case l1 =>
    rw [l1Store_eq_l1Put h]
    exact ⟨fun k x m hk => l1Peek_l1Put hk, fun a ha => l1Peek_l1Put_outside ha, fun q a hq => l1Peek_l1Put_other hq, fun a => rfl,
      l1Put_mem ..⟩
  case room => simp only [l1Room, h, decide_true, Bool.or_true, if_true]

end Sys2Proof.Machine
end

section
/-!
Operations under way (R82, R88, R114, R196): what register writes make a warp's registers read, what a completion changes beside
them, and the end of a cycle (R16, R40, R92, R195).
-/

namespace Sys2Proof

theorem Sparse.get_set {α : Type} [DecidableEq α] (m : Sparse α) (d : α) (i j : Nat) (v : α) :
    get (set m d i v) d j = if j = i then v else get m d j := by
  split
  · subst_vars; exact get_set_same m d _ v
  · exact get_set_other m d v ‹_›

end Sys2Proof

namespace Sys2Proof.Machine

/-! ### Register writes -/

/-- Writes that leave what is read. -/
theorem Warp.writeAll_unread {α : Type} {R : Warp → α} {hits : RegWrite → Option α} {ws : List RegWrite}
    (hstep : ∀ x r, R (Warp.write x r) = (hits r).getD (R x)) (h : ∀ r ∈ ws, hits r = none) (x : Warp) : R (x.writeAll ws) = R x := by
  induction ws generalizing x with
  | nil => rfl
  | cons r ws ih =>
    obtain ⟨hr, hws⟩ := List.forall_mem_cons.mp h
    exact (ih hws (x.write r)).trans (by rw [hstep, hr]; rfl)

/-- Writes of which some make it read `a`, and none anything else. -/
theorem Warp.writeAll_read {α : Type} {R : Warp → α} {hits : RegWrite → Option α} {ws : List RegWrite} {a : α}
    (hstep : ∀ x r, R (Warp.write x r) = (hits r).getD (R x)) (hmem : ∃ r ∈ ws, hits r = some a)
    (honly : ∀ r ∈ ws, ∀ b, hits r = some b → b = a) (x : Warp) : R (x.writeAll ws) = a := by
  induction ws generalizing x with
  | nil => simp at hmem
  | cons r ws ih =>
    obtain ⟨hr, hws⟩ := List.forall_mem_cons.mp honly
    change R ((x.write r).writeAll ws) = a
    by_cases hlater : ∃ r ∈ ws, hits r = some a
    · exact ih hlater hws _
    · have hnone : ∀ q ∈ ws, hits q = none := fun q hq =>
        Option.eq_none_iff_forall_ne_some.mpr fun b hb => hlater ⟨q, hq, hws q hq b hb ▸ hb⟩
      obtain ⟨q, hq, hqa⟩ := hmem
      obtain rfl | hq := List.mem_cons.mp hq
      · rw [writeAll_unread hstep hnone, hstep, hqa]; rfl
      · exact absurd ⟨q, hq, hqa⟩ hlater

/-- What a write makes a `k` register read. -/
def RegWrite.onK (n : Nat) : RegWrite → Option Word
  | .k reg (some x) => if reg = n then some x else none
  | _ => none
/-- What it makes a place of a lane's stack read, by the place's key. -/
def RegWrite.onV (key : Nat) : RegWrite → Option Word
  | .v lane pos (some x) => if vKey pos lane = key then some x else none
  | _ => none
/-- What it makes a handle register of a lane read, by its key. -/
def RegWrite.onH (key : Nat) : RegWrite → Option DWord
  | .h lane reg (some x) => if 32 * reg + lane = key then some x else none
  | _ => none
/-- What it makes a predicate of a lane read: `p0` and lanes that there are not keep their value. -/
def RegWrite.onP (l n : Nat) : RegWrite → Option Bool
  | .p lane reg b => if lane = l ∧ reg = n ∧ l < 32 ∧ n ≠ 0 then some b else none
  | _ => none

theorem Warp.getK_write (n : Nat) (x : Warp) (r : RegWrite) : (x.write r).getK n = (r.onK n).getD (x.getK n) := by
  cases r with
  | k m v =>
    cases v with
    | none => rfl
    | some v =>
      simp only [Warp.write, Warp.getK, Warp.markPoison, Sparse.get_set, RegWrite.onK, eq_comm (a := n)]
      split <;> rfl
  | v l p v => cases v <;> rfl
  | h l m v => cases v <;> rfl
  | p l m b => rw [Warp.write]; split <;> rfl

theorem Warp.getV_write (l p : Nat) (x : Warp) (r : RegWrite) : (x.write r).getV l p = (r.onV (vKey p l)).getD (x.getV l p) := by
  cases r with
  | v k q v =>
    cases v with
    | none => rfl
    | some v =>
      simp only [Warp.write, Warp.getV, Warp.markPoison, Sparse.get_set, RegWrite.onV, eq_comm (a := vKey p l)]
      split <;> rfl
  | k m v => cases v <;> rfl
  | h l m v => cases v <;> rfl
  | p l m b => rw [Warp.write]; split <;> rfl

theorem Warp.getH_write (l n : Nat) (x : Warp) (r : RegWrite) : (x.write r).getH l n = (r.onH (32 * n + l)).getD (x.getH l n) := by
  cases r with
  | h k q v =>
    cases v with
    | none => rfl
    | some v =>
      simp only [Warp.write, Warp.getH, Warp.markPoison, Sparse.get_set, RegWrite.onH, eq_comm (a := 32 * n + l)]
      split <;> rfl
  | k m v => cases v <;> rfl
  | v l m v => cases v <;> rfl
  | p l m b => rw [Warp.write]; split <;> rfl

/-- A predicate with one lane's bit written. -/
theorem getLsbD_setLane (m : LaneSet) (k l : Nat) (b : Bool) :
    (if b then m ||| 1#32 <<< k else m &&& ~~~(1#32 <<< k)).getLsbD l = if k = l ∧ l < 32 then b else m.getLsbD l := by
  have hbit : (1#32 <<< k).getLsbD l = decide (k = l ∧ l < 32) := by
    rw [BitVec.getLsbD_shiftLeft, BitVec.getLsbD_one]
    by_cases hl : l < 32 <;> by_cases hk : k = l <;> simp [hl, hk] <;> omega
  cases b with
  | true =>
    rw [if_pos rfl, BitVec.getLsbD_or, hbit]
    by_cases h : k = l ∧ l < 32 <;> simp [h]
  | false =>
    rw [if_neg Bool.false_ne_true, BitVec.getLsbD_and, BitVec.getLsbD_not, hbit]
    by_cases hl : l < 32
    · by_cases hk : k = l
      · simp [hl, hk]
      · simp [hl, hk]
    · rw [BitVec.getLsbD_of_ge m l (by omega)]; simp

theorem Warp.getP_write (l n : Nat) (x : Warp) (r : RegWrite) : (x.write r).getP l n = (r.onP l n).getD (x.getP l n) := by
  cases r with
  | p k m b =>
    simp only [Warp.write, RegWrite.onP]
    by_cases hm : m = 0
    · rw [if_pos hm, if_neg (fun h => h.2.2.2 (h.2.1 ▸ hm))]; rfl
    · rw [if_neg hm]
      simp only [Warp.getP, Sparse.get_set]
      by_cases hn : n = m
      · subst hn
        rw [if_pos rfl, getLsbD_setLane]
        by_cases hl : k = l ∧ l < 32
        · simp [hl, hm]
        · rw [if_neg hl, if_neg (fun h => hl ⟨h.1, h.2.2.1⟩)]; rfl
      · rw [if_neg hn, if_neg (fun h => hn h.2.1.symm)]; rfl
  | k m v => cases v <;> rfl
  | v l m v => cases v <;> rfl
  | h l m v => cases v <;> rfl

theorem RegWrite.eq_of_onK {n : Nat} {v : Word} {r : RegWrite} (h : r.onK n = some v) : r = .k n (some v) := by
  unfold RegWrite.onK at h
  grind

theorem RegWrite.eq_of_onV {key : Nat} {v : Word} {r : RegWrite} (h : r.onV key = some v) :
    ∃ l p, r = .v l p (some v) ∧ vKey p l = key := by
  unfold RegWrite.onV at h
  grind

theorem RegWrite.eq_of_onH {key : Nat} {v : DWord} {r : RegWrite} (h : r.onH key = some v) :
    ∃ l n, r = .h l n (some v) ∧ 32 * n + l = key := by
  unfold RegWrite.onH at h
  grind

theorem RegWrite.eq_of_onP {l n : Nat} {b : Bool} {r : RegWrite} (h : r.onP l n = some b) : r = .p l n b := by
  unfold RegWrite.onP at h
  grind

section
variable {x : Warp} {ws : List RegWrite}

theorem Warp.getK_writeAll {n : Nat} {v : Word} (hmem : .k n (some v) ∈ ws) (honly : ∀ u, RegWrite.k n u ∈ ws → u = some v) :
    (x.writeAll ws).getK n = v :=
  writeAll_read (R := fun x => x.getK n) (getK_write n) ⟨_, hmem, if_pos rfl⟩
    (fun _ hr _ ha => Option.some.inj (honly _ (RegWrite.eq_of_onK ha ▸ hr))) x

theorem Warp.getK_writeAll_unnamed {n : Nat} (h : ∀ v, RegWrite.k n v ∉ ws) : (x.writeAll ws).getK n = x.getK n :=
  writeAll_unread (R := fun x => x.getK n) (getK_write n)
    (fun _ hr => Option.eq_none_iff_forall_ne_some.mpr fun _ ha => h _ (RegWrite.eq_of_onK ha ▸ hr)) x

theorem Warp.getV_writeAll {l p : Nat} {v : Word} (hmem : .v l p (some v) ∈ ws)
    (honly : ∀ k q u, RegWrite.v k q u ∈ ws → vKey q k = vKey p l → u = some v) : (x.writeAll ws).getV l p = v := by
  refine writeAll_read (R := fun x => x.getV l p) (getV_write l p) ⟨_, hmem, if_pos rfl⟩ (fun r hr a ha => ?_) x
  obtain ⟨k, q, rfl, hkey⟩ := RegWrite.eq_of_onV ha
  exact Option.some.inj (honly k q _ hr hkey)

theorem Warp.getV_writeAll_unnamed {l p : Nat} (h : ∀ k q v, RegWrite.v k q v ∈ ws → vKey q k ≠ vKey p l) :
    (x.writeAll ws).getV l p = x.getV l p := by
  refine writeAll_unread (R := fun x => x.getV l p) (getV_write l p)
    (fun r hr => Option.eq_none_iff_forall_ne_some.mpr fun a ha => ?_) x
  obtain ⟨k, q, rfl, hkey⟩ := RegWrite.eq_of_onV ha
  exact h k q _ hr hkey

theorem Warp.getH_writeAll {l n : Nat} {v : DWord} (hmem : .h l n (some v) ∈ ws)
    (honly : ∀ k m u, RegWrite.h k m u ∈ ws → 32 * m + k = 32 * n + l → u = some v) : (x.writeAll ws).getH l n = v := by
  refine writeAll_read (R := fun x => x.getH l n) (getH_write l n) ⟨_, hmem, if_pos rfl⟩ (fun r hr a ha => ?_) x
  obtain ⟨k, m, rfl, hkey⟩ := RegWrite.eq_of_onH ha
  exact Option.some.inj (honly k m _ hr hkey)

theorem Warp.getH_writeAll_unnamed {l n : Nat} (h : ∀ k m v, RegWrite.h k m v ∈ ws → 32 * m + k ≠ 32 * n + l) :
    (x.writeAll ws).getH l n = x.getH l n := by
  refine writeAll_unread (R := fun x => x.getH l n) (getH_write l n)
    (fun r hr => Option.eq_none_iff_forall_ne_some.mpr fun a ha => ?_) x
  obtain ⟨k, m, rfl, hkey⟩ := RegWrite.eq_of_onH ha
  exact h k m _ hr hkey

theorem Warp.getP_writeAll {l n : Nat} {b : Bool} (hl : l < 32) (hn : n ≠ 0) (hmem : .p l n b ∈ ws)
    (honly : ∀ a, RegWrite.p l n a ∈ ws → a = b) : (x.writeAll ws).getP l n = b :=
  writeAll_read (R := fun x => x.getP l n) (getP_write l n) ⟨_, hmem, if_pos ⟨rfl, rfl, hl, hn⟩⟩
    (fun _ hr _ ha => honly _ (RegWrite.eq_of_onP ha ▸ hr)) x

theorem Warp.getP_writeAll_unnamed {l n : Nat} (h : ∀ b, RegWrite.p l n b ∉ ws) : (x.writeAll ws).getP l n = x.getP l n :=
  writeAll_unread (R := fun x => x.getP l n) (getP_write l n)
    (fun _ hr => Option.eq_none_iff_forall_ne_some.mpr fun _ ha => h _ (RegWrite.eq_of_onP ha ▸ hr)) x

end

/-- Register writes change registers and their poison marks only. -/
theorem Warp.writeAll_shape (x : Warp) (ws : List RegWrite) :
    ∃ v k p h poison, x.writeAll ws = { x with v := v, k := k, p := p, h := h, poison := poison } := by
  induction ws generalizing x with
  | nil => exact ⟨x.v, x.k, x.p, x.h, x.poison, rfl⟩
  | cons r ws ih =>
    have hwrite : ∃ v k p h poison, x.write r = { x with v := v, k := k, p := p, h := h, poison := poison } := by
      cases r with
      | v l q y => cases y <;> exact ⟨_, _, _, _, _, rfl⟩
      | k n y => cases y <;> exact ⟨_, _, _, _, _, rfl⟩
      | h l n y => cases y <;> exact ⟨_, _, _, _, _, rfl⟩
      | p l n b =>
        rw [Warp.write]
        split <;> exact ⟨_, _, _, _, _, rfl⟩
    obtain ⟨v, k, p, h, poison, hx⟩ := hwrite
    obtain ⟨v', k', p', h', poison', hy⟩ := ih (x.write r)
    exact ⟨v', k', p', h', poison', by rw [show x.writeAll (r :: ws) = (x.write r).writeAll ws from rfl, hy, hx]⟩

/-! ### The end of an operation -/

/-- The report that an operation with enabled flags leaves (R428, R487). -/
def Warp.flagReports (x : Warp) (b : Writeback) : List Report :=
  if b.flagLanes = 0 then []
  else [{ x.newReport 0x801 (b.flags.toNat + (b.flags.toNat &&& x.xen) * 2 ^ 8) 0 b.flagLanes b.lanes b.lanes with
    order := b.idx, held := x.modeS && (b.lanes &&& x.trapLanes) = 0 }]

/-- A completion: the register writes, and beside them these fields. -/
theorem Warp.complete_eq (x : Warp) (b : Writeback) :
    x.complete b = { x.writeAll b.writes with
      tokens := (x.dropToken b.token).tokens, flags := x.flags ||| b.flags, pend := x.pend.filter (fun a => a.idx ≠ b.idx)
      table := x.table.map (Entry.repaid b.idx), aside := x.aside.map (Entry.repaid b.idx)
      reports := x.reports ++ x.flagReports b } := by
  obtain ⟨v, k, p, h, poison, hx⟩ := x.writeAll_shape b.writes
  simp only [Warp.complete, hx, Warp.flagReports, Warp.dropToken]
  by_cases hf : b.flagLanes = 0
  · rw [if_pos hf, if_pos hf, List.append_nil]
    split <;> rfl
  · rw [if_neg hf, if_neg hf]
    split <;> rfl

/-- What a completion leaves of a warp beside its registers. -/
theorem Warp.complete_shape (x : Warp) (b : Writeback) :
    ∃ v k p h poison, x.complete b = { x with
      v := v, k := k, p := p, h := h, poison := poison
      tokens := (x.dropToken b.token).tokens, flags := x.flags ||| b.flags, pend := x.pend.filter (fun a => a.idx ≠ b.idx)
      table := x.table.map (Entry.repaid b.idx), aside := x.aside.map (Entry.repaid b.idx)
      reports := x.reports ++ x.flagReports b } := by
  obtain ⟨v, k, p, h, poison, hx⟩ := x.writeAll_shape b.writes
  exact ⟨v, k, p, h, poison, by rw [x.complete_eq, hx]⟩

theorem Warp.getK_complete (x : Warp) (b : Writeback) (n : Nat) : (x.complete b).getK n = (x.writeAll b.writes).getK n := by
  rw [x.complete_eq]; rfl
theorem Warp.getV_complete (x : Warp) (b : Writeback) (l p : Nat) : (x.complete b).getV l p = (x.writeAll b.writes).getV l p := by
  rw [x.complete_eq]; rfl
theorem Warp.getH_complete (x : Warp) (b : Writeback) (l n : Nat) : (x.complete b).getH l n = (x.writeAll b.writes).getH l n := by
  rw [x.complete_eq]; rfl
theorem Warp.getP_complete (x : Warp) (b : Writeback) (l n : Nat) : (x.complete b).getP l n = (x.writeAll b.writes).getP l n := by
  rw [x.complete_eq]; rfl

theorem Warp.token_complete (x : Warp) (b : Writeback) (n : Nat) :
    (x.complete b).token n = if n = b.token ∧ n ≠ 0 then x.token n - 1 else x.token n := by
  rw [x.complete_eq]
  simp only [Warp.token, Warp.dropToken]
  by_cases ht : b.token = 0
  · rw [if_pos ht, if_neg (fun h => h.2 (h.1.trans ht))]
  · rw [if_neg ht]
    simp only [Sparse.get_set]
    by_cases hn : n = b.token
    · rw [if_pos hn, if_pos ⟨hn, hn ▸ ht⟩, hn]
    · rw [if_neg hn, if_neg (fun h => hn h.1)]

theorem Warp.complete_pend (x : Warp) (b : Writeback) : (x.complete b).pend = x.pend.filter (fun a => a.idx ≠ b.idx) := by
  rw [x.complete_eq]

/-- An entry that no longer waits for a write-back stands as it stood. -/
theorem Warp.complete_table {α : Type} (x : Warp) (b : Writeback) (g : Entry → α) (hg : ∀ e, g (Entry.repaid b.idx e) = g e) :
    (x.complete b).table.map g = x.table.map g := by
  rw [x.complete_eq, List.map_map]
  exact List.map_congr_left fun e _ => hg e

/-! ### The end of a cycle -/

/-- Completions in a row, of those that are of fixed latency. -/
theorem Warp.completions_pend (bs : List Writeback) (x : Warp) (c : Writeback) :
    c ∈ (bs.foldl (fun x b => if b.isVar then x else x.complete b) x).pend ↔
      c ∈ x.pend ∧ ∀ b ∈ bs, b.isVar = true ∨ c.idx ≠ b.idx := by
  induction bs generalizing x with
  | nil => simp
  | cons b bs ih =>
    rw [List.foldl_cons, ih, List.forall_mem_cons]
    cases hv : b.isVar with
    | true => simp
    | false => simp [complete_pend, and_assoc]

/-- They keep what a completion keeps. -/
theorem Warp.completions_keep {α : Type} (R : Warp → α) (h : ∀ x b, R (Warp.complete x b) = R x) (bs : List Writeback) (x : Warp) :
    R (bs.foldl (fun x b => if b.isVar then x else x.complete b) x) = R x := by
  induction bs generalizing x with
  | nil => rfl
  | cons b bs ih =>
    rw [List.foldl_cons, ih]
    split
    · rfl
    · exact h x b

theorem Warp.mem_tick_pend (x : Warp) (now : Nat) (down : Bool) (c : Writeback) :
    c ∈ (x.tick now down).pend ↔
      c ∈ x.pend ∧ ∀ b ∈ x.pend, b.due ≤ now → b.awaits = 0 → b.isVar = true ∨ c.idx ≠ b.idx := by
  rw [Warp.tick, Warp.completeFixed, completions_pend]
  simp [Warp.finished]

theorem Warp.tick_table (x : Warp) (now : Nat) (down : Bool) :
    (x.tick now down).table.map (fun e => (e.pc, e.mask, e.stall)) = x.table.map (fun e => (e.pc, e.mask, e.stall - 1)) := by
  rw [Warp.tick, Warp.completeFixed, completions_keep (fun x => x.table.map (fun e => (e.pc, e.mask, e.stall)))
    (fun x b => x.complete_table b _ fun e => rfl), List.map_map]
  rfl

theorem Warp.tick_chain (x : Warp) (now : Nat) (down : Bool) : (x.tick now down).chain = x.chain := by
  rw [Warp.tick, Warp.completeFixed, completions_keep (fun x => x.chain)]
  intro x b
  obtain ⟨v, k, p, h, poison, hx⟩ := x.complete_shape b
  rw [hx]

/-- Looking up in a map whose values are changed one by one. -/
theorem Sparse.find?_map {α β : Type} (m : Sparse α) (g : Nat × α → β) (i : Nat) :
    Sparse.find? (m.map (fun y => (y.1, g y))) i = (Sparse.find? m i).map (fun a => g (i, a)) := by
  induction m with
  | nil => rfl
  | cons e m ih =>
    simp only [List.map_cons, Sparse.find?]
    split
    · subst_vars; rfl
    · exact ih

/-- Changing every workgroup of the state by itself. -/
theorem get_map_tick (m : Sparse Wg) (k : Nat) :
    Sparse.get (m.map (fun (y : Nat × Wg) => (y.1, y.2.tick))) Wg.init k = (Sparse.get m Wg.init k).tick := by
  rw [Sparse.get, Sparse.find?_map, Sparse.get]
  cases Sparse.find? m k <;> rfl

theorem Wg.tick_core (g : Wg) : g.tick.core = g.core := rfl

/-- With no CHAIN under way the next cycle changes the counter, the workgroups and the warps, each by itself. -/
theorem tick_of_no_chain {s : State} (h : ∀ y ∈ s.warps, y.2.chain = none) :
    tick s = { s with
      cyc := s.cyc + 1, served := [], cur := none, wgs := s.wgs.map (fun (y : Nat × Wg) => (y.1, y.2.tick))
      warps := s.warps.map (fun (y : Nat × Warp) =>
        (y.1, y.2.tick (s.cyc + 1).toNat (remoteDown s (s.getWg (y.1 / 32)).core))) } := by
  simp only [tick, State.getWg, get_map_tick, Wg.tick_core, State.now]
  rw [List.filter_eq_nil_iff.mpr]
  · rfl
  · intro y hy
    obtain ⟨z, hz, rfl⟩ := List.mem_map.mp hy
    simp only [Warp.tick_chain, h z hz]
    exact Bool.false_ne_true

/-- Settles O56: register by register, by what each write makes it read; the end of a cycle, warp by warp. -/
theorem operationsComplete : Obligations.OperationsComplete := by
  unfold Obligations.OperationsComplete
  refine ⟨fun x b => ?complete, fun x now down b hb => ?pend, fun x now down => x.tick_table now down, fun g => ?wg,
    fun s hrun hout hdue hcoll hpick => ?step, fun s d => ?sample⟩
  case complete =>
    refine ⟨fun n v hmem honly => ?_, fun n hnone => ?_, fun l p v hmem honly => ?_, fun l p hnone => ?_, fun l n hnone => ?_,
      fun l n v hmem honly => ?_, fun l n v hl hn hmem honly => ?_, fun l n hnone => ?_, fun l => rfl, x.token_complete b, ?_⟩
    · exact (x.getK_complete b n).trans (Warp.getK_writeAll hmem honly)
    · exact (x.getK_complete b n).trans (Warp.getK_writeAll_unnamed hnone)
    · exact (x.getV_complete b l p).trans (Warp.getV_writeAll hmem honly)
    · exact (x.getV_complete b l p).trans (Warp.getV_writeAll_unnamed hnone)
    · exact (x.getH_complete b l n).trans (Warp.getH_writeAll_unnamed hnone)
    · exact (x.getH_complete b l n).trans (Warp.getH_writeAll hmem honly)
    · exact (x.getP_complete b l n).trans (Warp.getP_writeAll hl hn hmem honly)
    · exact (x.getP_complete b l n).trans (Warp.getP_writeAll_unnamed hnone)
    · obtain ⟨v, k, p, h, poison, hx⟩ := x.complete_shape b
      have hrep : (x.complete b).reports = x.reports ++ x.flagReports b := by rw [hx]
      refine ⟨by rw [hx], x.complete_pend b, by rw [hx], by rw [hx], by rw [hx], by rw [hx], by rw [hx], by rw [hx], by rw [hx],
        by rw [hx], by rw [hx], by rw [hx], x.complete_table b _ fun e => rfl, fun hf => ?_, fun hf => ?_⟩
      · rw [hrep, Warp.flagReports, if_pos hf, List.append_nil]
      · rw [hrep, Warp.flagReports, if_neg hf]
        exact ⟨_, rfl, rfl, rfl⟩
  case pend =>
    rw [x.mem_tick_pend]
    refine ⟨fun hv hdue haw hmem => ?_, fun huniq hstay => ⟨hb, fun a ha hdue haw => ?_⟩⟩
    · simpa [hv] using hmem.2 b hb hdue haw
    · by_contra hnot
      obtain ⟨hv, hidx⟩ := not_or.mp hnot
      obtain rfl := huniq a ha (not_not.mp hidx).symm
      rcases hstay with hvar | hlate | hawaits
      · exact hv hvar
      · omega
      · exact hawaits haw
  case wg =>
    refine ⟨fun hf ha => ?_, fun n x hf ha => ?_, fun x hf ha => ?_⟩ <;>
      (cases g; simp only at hf ha; subst hf ha; rfl)
  case step =>
    refine ⟨by simp only [step, hrun, stepRunning, hout, hdue, hcoll, hpick], fun hchain => ?_⟩
    rw [tick_of_no_chain hchain]
    refine ⟨rfl, rfl, rfl, rfl, rfl, fun wg w hw hfind => ?_⟩
    obtain ⟨x, hx⟩ := Option.ne_none_iff_exists'.mp hfind
    have hwg : warpKey wg w / 32 = wg := by simp only [warpKey]; omega
    simp only [State.getWarp, Sparse.get, Sparse.find?_map, hx, hwg, Option.map_some, Option.getD_some]
  case sample =>
    have hskew : ∀ e, Config.cycSkew e % 5 ≤ 4 := fun e => by omega
    simp only [State.sample]
    refine ⟨by omega, by have := hskew d; omega, fun t e hcyc => ⟨by have := hskew d; omega, by omega⟩⟩

end Sys2Proof.Machine
end

section
/-!
What an issue changes, and what it leaves (R39, R40, R88, R195, R277): lanes, the PC table, and the parts of `commit` one by one.
-/

namespace Sys2Proof.Machine

/-! ### Sets of lanes -/

theorem mem_lanesOf {m : LaneSet} {l : Nat} : l ∈ lanesOf m ↔ l < 32 ∧ m.getLsbD l = true := by
  simp [lanesOf, setBitsOf, BitVec.getLsbD]

theorem getLsbD_laneSet_singleton {l : Nat} (h : l < 32) : (laneSet [l]).getLsbD l = true := by
  rw [laneSet, BitVec.getLsbD_ofNat]
  simp [maskOf, h]

/-! ### Lanes of a warp -/

theorem Warp.lane_modLane (x : Warp) (k l : Nat) (f : Lane → Lane) :
    (x.modLane k f).lane l = if l = k then f (x.lane k) else x.lane l :=
  Sparse.get_put x.lanes Lane.init k l (f (x.lane k))

/-- Changing a lane changes the lanes only. -/
theorem Warp.foldl_lanes {α : Type} (g : Warp → α → Warp) (hg : ∀ x a, ∃ ls, g x a = { x with lanes := ls }) (as : List α) (x : Warp) :
    ∃ ls, as.foldl g x = { x with lanes := ls } := by
  induction as generalizing x with
  | nil => exact ⟨x.lanes, rfl⟩
  | cons a as ih =>
    obtain ⟨ls, h⟩ := hg x a
    obtain ⟨ls', h'⟩ := ih (g x a)
    exact ⟨ls', by rw [List.foldl_cons, h', h]⟩

/-- What every change keeps of a lane. -/
theorem Warp.foldl_lane {α β : Type} (R : Lane → β) (g : Warp → α → Warp) (hg : ∀ x a l, R ((g x a).lane l) = R (x.lane l)) (as : List α)
    (x : Warp) (l : Nat) : R ((as.foldl g x).lane l) = R (x.lane l) := by
  induction as generalizing x with
  | nil => rfl
  | cons a as ih => rw [List.foldl_cons, ih, hg]

/-! ### The lanes of an issue -/

/-- Every lane of the entry that counts instructions since its LR counts one more (R277). -/
def Warp.countLR (x : Warp) (m : LaneSet) : Warp :=
  (lanesOf m).foldl (fun x l => if (x.lane l).sinceLR = 0 then x else x.modLane l (fun y => { y with sinceLR := y.sinceLR + 1 })) x

/-- A parked lane with the stall count of the instruction at which it parked (R195). -/
def Lane.parkedFor (stall : Nat) (y : Lane) : Lane := { y with hold := y.hold.map (fun h => { h with stall := stall }) }

/-- One lane's move: a lane that leaves the table keeps the stall count. -/
def Warp.keepStall (stall : Nat) (x : Warp) (m : Nat × Option Nat) : Warp :=
  match m.2 with
  | none => x.modLane m.1 (Lane.parkedFor stall)
  | some _ => x

theorem Warp.addDraws_lanes (x : Warp) (m : LaneSet) (n : Nat) : ∃ ls, x.addDraws m n = { x with lanes := ls } := by
  unfold addDraws
  split
  · exact ⟨x.lanes, rfl⟩
  · exact foldl_lanes _ (fun x l => ⟨_, rfl⟩) _ x

theorem Warp.countLR_lanes (x : Warp) (m : LaneSet) : ∃ ls, x.countLR m = { x with lanes := ls } :=
  foldl_lanes _ (fun x l => by split <;> exact ⟨_, rfl⟩) _ x

theorem Warp.keepStalls_lanes (x : Warp) (stall : Nat) (ms : List (Nat × Option Nat)) :
    ∃ ls, ms.foldl (keepStall stall) x = { x with lanes := ls } :=
  foldl_lanes _ (fun x m => by unfold keepStall; split <;> exact ⟨_, rfl⟩) _ x

/-- A change of one lane keeps what it keeps of that lane. -/
theorem Warp.modLane_keeps {β : Type} {R : Lane → β} {f : Lane → Lane} (h : ∀ y, R (f y) = R y) (x : Warp) (k l : Nat) :
    R ((x.modLane k f).lane l) = R (x.lane l) := by
  rw [lane_modLane]
  split
  · subst_vars; exact h _
  · rfl

theorem Warp.addDraws_keeps {β : Type} {R : Lane → β} (h : ∀ y n, R { y with draw := n } = R y) (x : Warp) (m : LaneSet) (n l : Nat) :
    R ((x.addDraws m n).lane l) = R (x.lane l) := by
  unfold addDraws
  split
  · rfl
  · exact foldl_lane R _ (fun x k l => modLane_keeps (fun y => h y _) x k l) _ x l

theorem Warp.countLR_keeps {β : Type} {R : Lane → β} (h : ∀ y n, R { y with sinceLR := n } = R y) (x : Warp) (m : LaneSet) (l : Nat) :
    R ((x.countLR m).lane l) = R (x.lane l) :=
  foldl_lane R _ (fun x k l => by
    split
    · rfl
    · exact modLane_keeps (fun y => h y _) x k l) _ x l

theorem Warp.keepStalls_keeps {β : Type} {R : Lane → β} (h : ∀ y p, R { y with hold := p } = R y) (stall : Nat)
    (ms : List (Nat × Option Nat)) (x : Warp) (l : Nat) : R ((ms.foldl (keepStall stall) x).lane l) = R (x.lane l) :=
  foldl_lane R _ (fun x m l => by
    unfold keepStall
    split
    · exact modLane_keeps (fun y => h y _) x _ l
    · rfl) _ x l

/-- A lane that leaves the table keeps the stall count, any other its hold. -/
theorem Warp.keepStalls_hold (stall : Nat) (ms : List (Nat × Option Nat)) (x : Warp) (l : Nat) :
    ((ms.foldl (keepStall stall) x).lane l).hold =
      if (l, none) ∈ ms then (x.lane l).hold.map (fun h => { h with stall := stall }) else (x.lane l).hold := by
  induction ms generalizing x with
  | nil => simp
  | cons m ms ih =>
    obtain ⟨k, dest⟩ := m
    rw [List.foldl_cons, ih]
    cases dest with
    | some pc => simp [keepStall]
    | none =>
      simp only [keepStall, lane_modLane, Lane.parkedFor]
      by_cases hk : l = k
      · subst hk
        by_cases hms : (l, none) ∈ ms <;> simp [hms, Function.comp_def]
      · simp [hk]

/-! ### The table of an issue -/

/-- Lane `l` stands in the first entry at `pc` or above, which is at `pc` and stalls at least so long. -/
def standsAt (pc : Va) (stall : Nat) (t : List Entry) (l : Nat) : Prop :=
  ∃ e, t.find? (fun x => pc.toNat ≤ x.pc.toNat) = some e ∧ e.pc = pc ∧ e.mask.getLsbD l = true ∧ stall ≤ e.stall

/-- The entry at a PC after lanes have joined it: theirs and those that stood there. -/
theorem tableInsert_find? (t : List Entry) (e : Entry) :
    ∃ y, (tableInsert t e).find? (fun x => e.pc.toNat ≤ x.pc.toNat) = some y ∧ y.pc = e.pc ∧
      (∀ l, e.mask.getLsbD l = true → y.mask.getLsbD l = true) ∧ e.stall ≤ y.stall ∧
      ∀ z, t.find? (fun x => e.pc.toNat ≤ x.pc.toNat) = some z → z.pc = e.pc →
        (∀ l, z.mask.getLsbD l = true → y.mask.getLsbD l = true) ∧ z.stall ≤ y.stall := by
  induction t with
  | nil => exact ⟨e, by simp [tableInsert], rfl, fun _ h => h, le_rfl, nofun⟩
  | cons x t ih =>
    unfold tableInsert
    by_cases hlt : e.pc.toNat < x.pc.toNat
    · rw [if_pos hlt]
      refine ⟨e, by simp, rfl, fun _ h => h, le_rfl, fun z hz hpc => ?_⟩
      rw [List.find?_cons_of_pos (by simpa using hlt.le)] at hz
      cases hz
      rw [hpc] at hlt
      exact absurd hlt (lt_irrefl _)
    · rw [if_neg hlt]
      by_cases heq : e.pc = x.pc
      · rw [if_pos heq]
        refine ⟨_, List.find?_cons_of_pos (by simp [heq]), heq.symm, fun l hl => by simp [hl], le_max_right .., fun z hz _ => ?_⟩
        rw [List.find?_cons_of_pos (by simp [heq])] at hz
        cases hz
        exact ⟨fun l hl => by simp [hl], le_max_left ..⟩
      · have hne : e.pc.toNat ≠ x.pc.toNat := fun h => heq (BitVec.eq_of_toNat_eq h)
        rw [if_neg heq]
        simp only [List.find?_cons_of_neg (p := fun x : Entry => decide (e.pc.toNat ≤ x.pc.toNat)) (a := x)
          (by simp only [decide_eq_true_eq]; omega)]
        exact ih

theorem standsAt_tableInsert {t : List Entry} {e : Entry} {l : Nat} (h : e.mask.getLsbD l = true) :
    standsAt e.pc e.stall (tableInsert t e) l := by
  obtain ⟨y, hfind, hpc, hmask, hstall, -⟩ := tableInsert_find? t e
  exact ⟨y, hfind, hpc, hmask l h, hstall⟩

theorem standsAt.tableInsert {t : List Entry} {e : Entry} {stall l : Nat} (h : standsAt e.pc stall t l) :
    standsAt e.pc stall (tableInsert t e) l := by
  obtain ⟨z, hz, hzpc, hzmask, hzstall⟩ := h
  obtain ⟨y, hfind, hpc, -, -, hold⟩ := tableInsert_find? t e
  obtain ⟨hmask, hstall⟩ := hold z hz hzpc
  exact ⟨y, hfind, hpc, hmask l hzmask, hzstall.trans hstall⟩

/-- Lanes that go to one PC in turn all stand there. -/
theorem standsAt_foldl {pc : Va} {stall : Nat} {at_ : Nat → Entry} (hpc : ∀ l, (at_ l).pc = pc) (hstall : ∀ l, (at_ l).stall = stall)
    (hmask : ∀ l, l < 32 → (at_ l).mask.getLsbD l = true) (ls : List Nat) (t : List Entry) {l : Nat} (hl : l < 32)
    (h : l ∈ ls ∨ standsAt pc stall t l) : standsAt pc stall (ls.foldl (fun t l => tableInsert t (at_ l)) t) l := by
  induction ls generalizing t with
  | nil => simpa using h
  | cons k ls ih =>
    refine ih _ ?_
    obtain hmem | hstand := h
    · obtain rfl | hmem := List.mem_cons.mp hmem
      · have := standsAt_tableInsert (t := t) (hmask l hl)
        rw [hpc, hstall] at this
        exact .inr this
      · exact .inl hmem
    · have := (hpc k ▸ hstand : standsAt (at_ k).pc stall t l).tableInsert
      rw [hpc] at this
      exact .inr this

/-- Entries of which one holds every lane of a set. -/
theorem exists_entry_of_standsAt {pc : Va} {stall : Nat} {t : List Entry} {m : LaneSet} (hm : m ≠ 0)
    (h : ∀ l, l < 32 → m.getLsbD l = true → standsAt pc stall t l) : ∃ e ∈ t, e.pc = pc ∧ e.mask &&& m = m ∧ stall ≤ e.stall := by
  have hlane : ∃ l, l < 32 ∧ m.getLsbD l = true := by
    by_contra hnone
    refine hm (BitVec.eq_of_getLsbD_eq fun i hi => ?_)
    simpa using fun hbit => hnone ⟨i, hi, hbit⟩
  obtain ⟨l, hl, hbit⟩ := hlane
  obtain ⟨e, he, hpc, -, hstall⟩ := h l hl hbit
  refine ⟨e, List.mem_of_find?_eq_some he, hpc, BitVec.eq_of_getLsbD_eq fun i hi => ?_, hstall⟩
  rw [BitVec.getLsbD_and]
  cases hi' : m.getLsbD i with
  | false => simp
  | true =>
    obtain ⟨e', he', -, hmask, -⟩ := h i hi hi'
    obtain rfl : e = e' := Option.some.inj (he.symm.trans he')
    simp [hmask]

/-! ### The parts of `commit` -/

/-- The operation goes under way, with its token. -/
def Warp.goUnderWay (x : Warp) (b : Writeback) : Warp := { x with pend := x.pend ++ [b], nextIdx := x.nextIdx + 1 }.addToken b.token

/-- The operation is one that goes under way. -/
def Out.leaves (o : Out) (b : Writeback) : Bool :=
  o.writes ≠ [] || b.token ≠ 0 || o.flags ≠ 0 || o.awaits ≠ 0 || b.reads ≠ []

/-- Where a lane of the entry goes. -/
def Iss.destOf (c : Iss) (o : Out) (l : Nat) : Option Nat :=
  match List.find? (fun m : Nat × Option Nat => m.1 = l) o.moves with
  | some m => m.2
  | none => some c.cur.npc.toNat

/-- The entry that a lane makes, or joins, at a PC. -/
def Iss.arrival (c : Iss) (owed : List Nat) (pc l : Nat) : Entry :=
  { Entry.fresh (BitVec.ofNat 80 pc) (laneSet [l]) with
    stall := c.f.stall.toNat + 1, owed := owed, yielded := false, backward := backwardStop c pc && c.act.contains l }

/-- The table after the lanes of the entry have moved. -/
def Iss.movedTable (c : Iss) (o : Out) (owed : List Nat) (t : List Entry) : List Entry :=
  (lanesOf c.entry.mask).foldl (fun t l => match c.destOf o l with
    | none => t
    | some pc => tableInsert t (c.arrival owed pc l)) ((t.filter (fun e => e.pc ≠ c.entry.pc)).map (fun e => { e with fair := e.fair + 1 }))

/-- The warp after an issue, of which `x` is the warp that the instruction's own effects left. -/
def Iss.issuedWarp (c : Iss) (i : Instr) (flagged : Bool) (o : Out) (x : Warp) : Warp :=
  let b := issueWb c i o x
  let owed := if o.leaves b && (o.stays || (flagged && x.xen ≠ 0)) then [b.idx] else []
  let y := if o.leaves b then x.goUnderWay b else x
  { o.moves.foldl (Warp.keepStall (c.f.stall.toNat + 1)) ((y.addDraws c.entry.mask o.draws).countLR c.entry.mask) with
    table := c.movedTable o owed x.table, lastIssue := c.s.now, skip := c.f.y, crcFails := 0 }

/-- The lanes of an issue change by themselves: the other fields are those that the operation under way left. -/
theorem issuedLanes_shape (y : Warp) (stall : Nat) (ms : List (Nat × Option Nat)) (m : LaneSet) (n : Nat) :
    ∃ ls, ms.foldl (Warp.keepStall stall) ((y.addDraws m n).countLR m) = { y with lanes := ls } := by
  obtain ⟨a, ha⟩ := y.addDraws_lanes m n
  obtain ⟨b, hb⟩ := (y.addDraws m n).countLR_lanes m
  obtain ⟨d, hd⟩ := ((y.addDraws m n).countLR m).keepStalls_lanes stall ms
  exact ⟨d, by rw [hd, hb, ha]⟩

theorem Warp.goUnderWay_shape (x : Warp) (b : Writeback) :
    ∃ ts, x.goUnderWay b = { x with pend := x.pend ++ [b], nextIdx := x.nextIdx + 1, tokens := ts } := by
  unfold goUnderWay addToken
  split <;> exact ⟨_, rfl⟩

theorem Warp.token_goUnderWay (x : Warp) (b : Writeback) (n : Nat) :
    (x.goUnderWay b).token n = x.token n + (if n = b.token ∧ n ≠ 0 then 1 else 0) := by
  simp only [goUnderWay, addToken]
  by_cases ht : b.token = 0
  · rw [if_pos ht, if_neg (fun h => h.2 (h.1.trans ht))]; rfl
  · rw [if_neg ht]
    simp only [Warp.token, Sparse.get_set]
    by_cases hn : n = b.token
    · rw [if_pos hn, if_pos ⟨hn, hn ▸ ht⟩, hn]
    · rw [if_neg hn, if_neg (fun h => hn h.1)]; rfl

/-- What `commit` does to the warp, with its table taken where `commit` takes it. -/
theorem issuedWarp_eq (c : Iss) (i : Instr) (flagged : Bool) (o : Out) (x : Warp) :
    let b := issueWb c i o x
    let y := if o.leaves b then x.goUnderWay b else x
    let z := o.moves.foldl (Warp.keepStall (c.f.stall.toNat + 1)) ((y.addDraws c.entry.mask o.draws).countLR c.entry.mask)
    c.issuedWarp i flagged o x = { z with
      table := c.movedTable o (if o.leaves b && (o.stays || (flagged && x.xen ≠ 0)) then [b.idx] else []) z.table
      lastIssue := c.s.now, skip := c.f.y, crcFails := 0 } := by
  intro b y z
  obtain ⟨ls, hz⟩ := issuedLanes_shape y (c.f.stall.toNat + 1) o.moves c.entry.mask o.draws
  have htable : z.table = x.table := by
    simp only [z, hz, y]
    split
    · obtain ⟨ts, hts⟩ := x.goUnderWay_shape b
      rw [hts]
    · rfl
  rw [htable]
  rfl

/-- `commit` in its parts. -/
theorem commit_parts (c : Iss) (i : Instr) (b : Body) (o : Out) :
    commit c i b o =
      (let s : State := { o.s with free := o.s.free + (if (latOf i).isNone then 1 else 0) }
       let s := if s.holdsLR = [] then s
         else endHolds s c.wg c.w c.warp ((lanesOf c.entry.mask).filter (fun l =>
           (reachesMemory c i && c.act.contains l) || o.moves.contains (l, none)))
       s.modWarp c.wg c.w (c.issuedWarp i b.flagged o)) := by
  unfold commit
  dsimp only
  congr 1
  funext x
  rw [issuedWarp_eq]
  cases hl : o.leaves (issueWb c i o x) with
  | true =>
    unfold Out.leaves at hl
    simp only [hl, if_true]
    rfl
  | false =>
    unfold Out.leaves at hl
    simp only [hl, Bool.false_eq_true, if_false]
    rfl

/-- The state of an issue: the instruction's own effects, free values used and holds ended, and the warp. -/
theorem commit_eq (c : Iss) (i : Instr) (b : Body) (o : Out) :
    ∃ free holds, commit c i b o = ({ o.s with free := free, holdsLR := holds } : State).setWarp c.wg c.w
        (c.issuedWarp i b.flagged o (o.s.getWarp c.wg c.w)) ∧
      (∀ h ∈ holds, h ∈ o.s.holdsLR) ∧ (latOf i ≠ none → free = o.s.free) := by
  have hfree : latOf i ≠ none → o.s.free + (if (latOf i).isNone then 1 else 0) = o.s.free := fun h => by
    obtain ⟨n, hn⟩ := Option.ne_none_iff_exists'.mp h
    simp [hn]
  rw [commit_parts]
  dsimp only
  split
  · exact ⟨_, o.s.holdsLR, rfl, fun _ h => h, hfree⟩
  · exact ⟨_, _, rfl, fun _ h => List.mem_of_mem_filter h, hfree⟩

/-! ### The warp after an issue -/

/-- The parts of the warp that an issue writes; every other part is as the instruction's own effects left it. -/
theorem issuedWarp_shape (c : Iss) (i : Instr) (flagged : Bool) (o : Out) (x : Warp) :
    ∃ lanes tokens pend next, c.issuedWarp i flagged o x =
        { x with
          lanes := lanes, tokens := tokens, pend := pend, nextIdx := next
          table := c.movedTable o (if o.leaves (issueWb c i o x) && (o.stays || (flagged && x.xen ≠ 0)) then [(issueWb c i o x).idx] else [])
            x.table
          lastIssue := c.s.now, skip := c.f.y, crcFails := 0 } ∧
      pend = (if o.leaves (issueWb c i o x) then x.pend ++ [issueWb c i o x] else x.pend) ∧
      tokens = (if o.leaves (issueWb c i o x) then x.goUnderWay (issueWb c i o x) else x).tokens := by
  obtain ⟨ls, hls⟩ := issuedLanes_shape (if o.leaves (issueWb c i o x) then x.goUnderWay (issueWb c i o x) else x)
    (c.f.stall.toNat + 1) o.moves c.entry.mask o.draws
  unfold Iss.issuedWarp
  dsimp only
  rw [hls]
  split
  · obtain ⟨ts, hts⟩ := x.goUnderWay_shape (issueWb c i o x)
    rw [hts]
    exact ⟨ls, ts, _, _, rfl, rfl, rfl⟩
  · exact ⟨ls, x.tokens, _, _, rfl, rfl, rfl⟩

theorem lane_underWay (x : Warp) (b : Writeback) (p : Bool) (l : Nat) : (if p then x.goUnderWay b else x).lane l = x.lane l := by
  split
  · obtain ⟨ts, hts⟩ := x.goUnderWay_shape b
    rw [hts]; rfl
  · rfl

/-- A lane of the warp after an issue: what neither draws, counts of instructions since an LR, nor holds are is kept. -/
theorem issuedWarp_keeps {β : Type} {R : Lane → β} (hdraw : ∀ y n, R { y with draw := n } = R y)
    (hcount : ∀ y n, R { y with sinceLR := n } = R y) (hhold : ∀ y p, R { y with hold := p } = R y)
    (c : Iss) (i : Instr) (flagged : Bool) (o : Out) (x : Warp) (l : Nat) :
    R ((c.issuedWarp i flagged o x).lane l) = R (x.lane l) :=
  (Warp.keepStalls_keeps hhold _ _ _ l).trans ((Warp.countLR_keeps hcount _ _ l).trans ((Warp.addDraws_keeps hdraw _ _ _ l).trans
    (congrArg R (lane_underWay ..))))

/-- A lane that the issue parks keeps the stall count (R195). -/
theorem issuedWarp_hold (c : Iss) (i : Instr) (flagged : Bool) (o : Out) (x : Warp) (l : Nat) :
    ((c.issuedWarp i flagged o x).lane l).hold =
      if (l, none) ∈ o.moves then (x.lane l).hold.map (fun h => { h with stall := c.f.stall.toNat + 1 }) else (x.lane l).hold := by
  refine (Warp.keepStalls_hold _ _ _ l).trans ?_
  rw [Warp.countLR_keeps (R := Lane.hold) (fun _ _ => rfl), Warp.addDraws_keeps (R := Lane.hold) (fun _ _ => rfl),
    lane_underWay]

/-- Lanes that the instruction does not move all stand at the next PC (R39, R195). -/
theorem movedTable_next (c : Iss) (o : Out) (owed : List Nat) (t : List Entry) (hmoves : o.moves = []) (hmask : c.entry.mask ≠ 0) :
    ∃ e ∈ c.movedTable o owed t, e.pc.toNat = c.cur.npc.toNat ∧ e.mask &&& c.entry.mask = c.entry.mask ∧
      c.f.stall.toNat + 1 ≤ e.stall := by
  have hpc : BitVec.ofNat 80 c.cur.npc.toNat = c.cur.npc := by simp
  have hdest : ∀ l, c.destOf o l = some c.cur.npc.toNat := fun l => by simp [Iss.destOf, hmoves]
  have hstands : ∀ l, l < 32 → c.entry.mask.getLsbD l = true →
      standsAt c.cur.npc (c.f.stall.toNat + 1) (c.movedTable o owed t) l := fun l hl hbit => by
    simp only [Iss.movedTable, hdest]
    exact standsAt_foldl (at_ := c.arrival owed c.cur.npc.toNat) (fun _ => hpc) (fun _ => rfl)
      (fun _ => getLsbD_laneSet_singleton) _ _ hl (.inl (mem_lanesOf.mpr ⟨hl, hbit⟩))
  obtain ⟨e, he, hepc, hemask, hestall⟩ := exists_entry_of_standsAt hmask hstands
  exact ⟨e, he, congrArg BitVec.toNat hepc, hemask, hestall⟩

/-- An operation that writes, holds a token, raises flags or awaits answers goes under way. -/
theorem Out.leaves_of_pending {c : Iss} {i : Instr} {o : Out} {x : Warp}
    (h : o.writes ≠ [] ∨ c.f.st ≠ 0 ∨ o.flags ≠ 0 ∨ o.awaits ≠ 0) : o.leaves (issueWb c i o x) = true := by
  have htoken : c.f.st ≠ 0 → (issueWb c i o x).token ≠ 0 := fun h h0 => h (BitVec.eq_of_toNat_eq h0)
  simp only [leaves, Bool.or_eq_true, decide_eq_true_eq]
  obtain h | h | h | h := h
  · exact .inl (.inl (.inl (.inl h)))
  · exact .inl (.inl (.inl (.inr (htoken h))))
  · exact .inl (.inl (.inr h))
  · exact .inl (.inr h)

/-- The latency of an instruction without a stream is its row's, two more for a k destination (R196). -/
theorem latOf_of_fixedLat {i : Instr} {n : Nat} (hlat : fixedLat i = some n) (hstream : namesStream i = false) :
    latOf i = some (if (usedFields i).any (fun e => e.1 = .d && isK e.2.1) then n + 2 else n) := by
  simp [latOf, hstream, hlat]

/-- With no deadlock of rejoin sets nothing is settled. -/
theorem issued_of_no_deadlock {c : Iss} {i : Instr} {flagged : Bool} {o : Out}
    (h : rejoinDeadlock ((commit c i { flagged := flagged, run := fun _ => .wait } o).getWarp c.wg c.w) = false) :
    issued c i flagged o = commit c i { flagged := flagged, run := fun _ => .wait } o := by
  simp [issued, settleDeadlock, h]

/-- Settles O55: `commit` in its parts, each with what it keeps of the warp, of a lane and of the table. -/
theorem issueFrame : Obligations.IssueFrame := by
  intro c i flagged o t x y pending hdead
  obtain ⟨free, holds, hcommit, hholds, hfree⟩ := commit_eq c i { flagged := flagged, run := fun _ => .wait } o
  have ht : t = ({ o.s with free := free, holdsLR := holds } : State).setWarp c.wg c.w (c.issuedWarp i flagged o x) :=
    (issued_of_no_deadlock hdead).trans hcommit
  have hy : y = c.issuedWarp i flagged o x := by
    show t.getWarp c.wg c.w = _
    rw [ht, State.getWarp_setWarp_same]
  obtain ⟨lanes, tokens, pend, next, hshape, hpend, htokens⟩ := issuedWarp_shape c i flagged o x
  rw [hshape] at hy
  have hleaves : pending → o.leaves (issueWb c i o x) = true := Out.leaves_of_pending
  clear_value t y
  have hlane : ∀ l, y.lane l = (c.issuedWarp i flagged o x).lane l := fun l => by rw [hy, hshape]
  have htable : y.table = c.movedTable o (if o.leaves (issueWb c i o x) && (o.stays || (flagged && x.xen ≠ 0)) then
      [(issueWb c i o x).idx] else []) x.table := by rw [hy]
  have hypend : y.pend = if o.leaves (issueWb c i o x) then x.pend ++ [issueWb c i o x] else x.pend := by rw [hy]; exact hpend
  have hytoken : ∀ n, y.token n = (if o.leaves (issueWb c i o x) then x.goUnderWay (issueWb c i o x) else x).token n := fun n => by
    rw [hy]
    exact congrArg (fun ts => ts.get 0 n) htokens
  refine ⟨⟨_, free, holds, ht, hholds, hfree⟩, fun a => by rw [ht]; rfl, fun p a => by rw [ht]; rfl,
    fun wg w hne => by rw [ht, State.getWarp_setWarp_other _ _ hne]; rfl, ?_⟩
  refine ⟨by rw [hy], by rw [hy], by rw [hy], by rw [hy], by rw [hy], by rw [hy], by rw [hy], by rw [hy], by rw [hy], by rw [hy],
    by rw [hy], by rw [hy], by rw [hy], by rw [hy], by rw [hy], by rw [hy], by rw [hy], by rw [hy], by rw [hy], by rw [hy], by rw [hy], ?_⟩
  refine ⟨⟨_, rfl, fun hp => by rw [hypend, if_pos (hleaves hp)], ?_, rfl, rfl, rfl, rfl, fun hstrm => ?_, fun n hn => ?_,
    fun n => latOf_of_fixedLat⟩, fun hp n => ?_, fun l => ?_, fun hmoves hmask => ?_⟩
  · rw [hypend]
    split
    · exact .inr rfl
    · exact .inl rfl
  · simp [issueWb, poisonWrites, poisonedTakes, hstrm]
  · simp [issueWb, hn]
  · rw [hytoken, if_pos (hleaves hp), Warp.token_goUnderWay]
    rfl
  · rw [hlane]
    refine ⟨?_, ?_, ?_, ?_, issuedWarp_hold ..⟩ <;>
      exact issuedWarp_keeps (fun _ _ => rfl) (fun _ _ => rfl) (fun _ _ => rfl) ..
  · rw [htable]
    exact movedTable_next c o _ _ hmoves hmask

end Sys2Proof.Machine
end

section
/-!
The checks that every instruction passes before its own part (R445), and the traps of those that fail.
-/

namespace Sys2Proof.Machine

open Sys2Proof

/-- Every instruction that an entry can issue runs through `issue`; the other constructors have no fields. -/
theorem exec_issue {s : State} {i : Instr} {c : Iss} (h : issuing s i = some c) : ∃ b, exec i s = .next (issue i b s) := by
  have hfields : i.fields ≠ none := fun h0 => by
    simp only [issuing, h0] at h
    split at h <;> simp_all
  cases i
  all_goals try exact absurd rfl hfields
  all_goals exact ⟨_, rfl⟩

theorem issuing_fields {s : State} {i : Instr} {c : Iss} (h : issuing s i = some c) : i.fields = some c.f := by
  simp only [issuing] at h
  split at h
  · obtain ⟨e, -, rfl⟩ := Option.map_eq_some_iff.mp h
    assumption
  · cases h

/-- A check that the gate finds failing traps the entry, once the results it waits for have come. -/
theorem trapsWith_of_gate {s : State} {i : Instr} {c : Iss} {t : Trap} (hi : issuing s i = some c) (howes : c.warp.owes = false)
    (hgate : ∀ b, gate c i b = .trap t) : Claim.trapsWith s i c t := by
  obtain ⟨b, hexec⟩ := exec_issue hi
  rw [Claim.trapsWith, hexec, issue, hi]
  simp only [hgate b, trapNow, howes, (issuing_wg hi).2, Bool.false_eq_true, if_false]

theorem gate_of_encodingGate {c : Iss} {i : Instr} {t : Trap} (h : encodingGate c i = some t) (b : Body) : gate c i b = .trap t := by
  simp only [gate, h]

/-! ### The encoding checks -/

/-- The reasons of R445's step 4. -/
theorem reason_of_firstFailure {fs : List (Nat × Fld)} {r : Nat} {fld : Fld} (h : firstFailure fs = some (r, fld)) : 5 ≤ r := by
  obtain ⟨n, hn, hfind⟩ := List.exists_of_findSome?_eq_some h
  have hr : r = n := by simpa using List.find?_some hfind
  simp only [List.mem_cons, List.not_mem_nil, or_false] at hn
  omega

theorem encodingFailure_st {i : Instr} {f : Fields} (hf : i.fields = some f) (hst : f.st = 7) (hshape : shape i ≠ none) :
    encodingFailure i = some (2, .st) := by
  obtain ⟨q, hq⟩ := Option.ne_none_iff_exists'.mp hshape
  simp [encodingFailure, hq, hf, hst]

/-- Reason 0x02 is of ST = 7 alone. -/
theorem reason_of_encodingFail {c : Iss} {i : Instr} {r : Nat} {fld : Fld} (hf : i.fields = some c.f) (hst : c.f.st ≠ 7)
    (h : encodingFail c i = some (r, fld)) : r ≠ 2 := by
  have hfirst : ∀ r fld, encodingFailure i = some (r, fld) → r ≠ 2 := fun r fld h => by
    unfold encodingFailure at h
    split at h
    · rename_i q f hq hf'
      obtain rfl : f = c.f := Option.some.inj (hf'.symm.trans hf)
      rw [if_neg hst] at h
      have := reason_of_firstFailure h
      omega
    · cases h
  unfold encodingFail at h
  split at h
  · split at h
    · cases h; decide
    · cases h; exact hfirst _ _ ‹_›
  · split at h
    · cases h; decide
    · cases h

/-- With ST = 7 that check is the one that fails, whatever the literal (R189). -/
theorem encodingFail_st {c : Iss} {i : Instr} (h : encodingFailure i = some (2, .st)) : encodingFail c i = some (2, .st) := by
  simp [encodingFail, h]

/-- ST = 7 comes before the level. -/
theorem encodingGate_st {c : Iss} {i : Instr} {fld : Fld} (h : encodingFail c i = some (2, fld)) :
    encodingGate c i = some (c.illegal ⟨2, fld, fieldValue c.f fld, c.amask⟩) := by
  simp only [encodingGate, h]

/-- The level comes before every other encoding check. -/
theorem encodingGate_level {c : Iss} {i : Instr} (hst : ∀ r fld, encodingFail c i = some (r, fld) → r ≠ 2)
    (hlevel : Claim.level c < privLevel i) :
    encodingGate c i = some { cls := 2, reason := if c.op = 0x3C && (c.fn = 2 || c.fn = 3) then 2 else 1
                              info := c.op + c.fn * 2 ^ 8, fmask := c.amask } := by
  unfold encodingGate
  dsimp only
  split
  · exact absurd rfl (hst _ _ ‹_›)
  · exact if_pos hlevel

/-- With the level reached, the encoding check that fails. -/
theorem encodingGate_fail {c : Iss} {i : Instr} {r : Nat} {fld : Fld} (hlevel : privLevel i ≤ Claim.level c)
    (h : encodingFail c i = some (r, fld)) : encodingGate c i = some (c.illegal ⟨r, fld, fieldValue c.f fld, c.amask⟩) := by
  unfold encodingGate
  dsimp only
  split
  · rename_i heq
    cases h.symm.trans heq
    rfl
  · rw [h]
    exact if_neg (not_lt.mpr hlevel)

/-- With no encoding check failing, the declarations. -/
theorem encodingGate_decl {c : Iss} {i : Instr} (hlevel : privLevel i ≤ Claim.level c) (h : encodingFail c i = none) :
    encodingGate c i = (declFail c i).map c.illegal := by
  simp only [encodingGate, h]
  exact if_neg (not_lt.mpr hlevel)

/-! ### The checks after them -/

theorem gate_of_no_lane {c : Iss} {i : Instr} (b : Body) (henc : encodingGate c i = none) (hact : c.act = []) : gate c i b = .go c := by
  simp only [gate, henc, hact, if_true]

/-- A stall error, or else a poisoned source, comes before the instruction's own checks. -/
theorem gate_of_stall_or_poison {c : Iss} {i : Instr} {t : Trap} (b : Body) (henc : encodingGate c i = none) (hact : c.act ≠ [])
    (h : ((stallTrap c i).orElse fun _ => poisonTrap c i) = some t) : gate c i b = .trap t := by
  simp only [gate, henc, hact, if_false, h]

/-- With no active lane the instruction only moves on. -/
theorem exec_of_no_lane {s : State} {i : Instr} {c : Iss} (hi : issuing s i = some c) (henc : encodingGate c i = none)
    (hact : c.act = []) : ∃ flagged draws, exec i s = .next (issued c i flagged { s := s, draws := draws }) := by
  obtain ⟨b, hexec⟩ := exec_issue hi
  refine ⟨b.flagged, b.draws c, ?_⟩
  rw [hexec, issue, hi]
  simp only [gate_of_no_lane b henc hact, hact, if_true, (issuing_wg hi).1]
  rfl

/-- The information of a reserved token field (R444). -/
theorem illegal_st_info {c : Iss} {fmask : LaneSet} (h : c.f.st = 7) :
    (c.illegal ⟨2, .st, fieldValue c.f .st, fmask⟩).info = c.op + c.fn * 2 ^ 8 + 7 * 2 ^ 12 + 7 * 2 ^ 16 := by
  have hcode : Fld.st.code = 7 := rfl
  have hvalue : fieldValue c.f .st % 2 ^ 32 = 7 := by rw [fieldValue, h]; rfl
  rw [Iss.illegal, hcode, hvalue]

/-- Settles O53: what the gate answers at each check, in the order of R445. -/
theorem commonChecks : Obligations.CommonChecks := by
  intro s i c hi howes
  have hf := issuing_fields hi
  have htraps : ∀ t, encodingGate c i = some t → Claim.trapsWith s i c t := fun t h =>
    trapsWith_of_gate hi howes (gate_of_encodingGate h)
  refine ⟨fun hst hshape => ?_, fun hst hlevel => ?_, fun r fld hst hlevel hfail => ?_, fun hwf => ?_, fun hlit => ?_,
    fun x hfail hlevel hdecl => ?_, fun hfail hlevel hdecl => ?_⟩
  · exact ⟨_, rfl, rfl, illegal_st_info hst, htraps _ (encodingGate_st (encodingFail_st (encodingFailure_st hf hst hshape)))⟩
  · refine ⟨_, rfl, rfl, rfl, ?_, htraps _ (encodingGate_level (fun r fld h => reason_of_encodingFail hf hst h) hlevel)⟩
    dsimp only
    split
    · exact .inr rfl
    · exact .inl rfl
  · exact htraps _ (encodingGate_fail hlevel hfail)
  · simp only [encodingFail, show encodingFailure i = none from hwf]
  · unfold encodingFail
    split <;> simp [*]
  · exact htraps _ (by rw [encodingGate_decl hlevel hfail, hdecl]; rfl)
  · have henc : encodingGate c i = none := by rw [encodingGate_decl hlevel hfail, hdecl]; rfl
    refine ⟨exec_of_no_lane hi henc, fun hact t hstall => ?_, fun hact hstall t hpoison => ?_⟩
    · exact trapsWith_of_gate hi howes fun b => gate_of_stall_or_poison b henc hact (by rw [hstall]; rfl)
    · exact trapsWith_of_gate hi howes fun b => gate_of_stall_or_poison b henc hact (by rw [hstall]; exact hpoison)

end Sys2Proof.Machine
end

section
/-!
Taking a trap (R351, R426, R430, R433): the layout of the frame, and what each way of taking it leaves.
-/

namespace Sys2Proof.Machine

open Sys2Proof

/-! ### Fields of byte lists -/

theorem leAt_append_left {xs ys : List Byte} {off n : Nat} (h : off + n ≤ xs.length) : leAt (xs ++ ys) off n = leAt xs off n := by
  rw [leAt, List.drop_append_of_le_length (by omega), List.take_append_of_le_length (by rw [List.length_drop]; omega)]
  rfl

theorem leAt_append_right {xs ys : List Byte} {off n : Nat} (h : xs.length ≤ off) :
    leAt (xs ++ ys) off n = leAt ys (off - xs.length) n := by
  obtain ⟨k, rfl⟩ := Nat.exists_eq_add_of_le h
  rw [leAt, List.drop_append, List.drop_of_length_le h, List.nil_append, leAt]

theorem leAt_append_skip {xs ys : List Byte} {k off n : Nat} (h : xs.length = k) : leAt (xs ++ ys) (k + off) n = leAt ys off n := by
  rw [leAt_append_right (by omega), h, Nat.add_sub_cancel_left]

theorem leAt_toLE (n x : Nat) : leAt (toLE n x) 0 n = x % 256 ^ n := by
  rw [leAt, List.drop_zero, List.take_of_length_le (length_toLE n x).le, ofLE_toLE]

theorem ofLE_zeros (n : Nat) : ofLE (List.replicate n 0) = 0 := by
  induction n with
  | zero => rfl
  | succ n ih => rw [List.replicate_succ, ofLE, ih]; rfl

theorem leAt_zeros (k off n : Nat) : leAt (zeros k) off n = 0 := by
  rw [leAt, zeros, List.drop_replicate, List.take_replicate, ofLE_zeros]

@[simp] theorem length_zeros (n : Nat) : (zeros n).length = n := List.length_replicate

theorem length_flatMap_range {k m : Nat} {g : Nat → List Byte} (h : ∀ i, (g i).length = m) : ((List.range k).flatMap g).length = m * k := by
  rw [List.length_flatMap, List.map_congr_left (fun i _ => h i), List.map_const', List.length_range, List.sum_replicate_nat]
  exact Nat.mul_comm ..

/-- A field of one of a row of equal parts. -/
theorem leAt_flatMap_range {k m : Nat} {g : Nat → List Byte} (h : ∀ i, (g i).length = m) {i off n : Nat} (hi : i < k) (hn : off + n ≤ m) :
    leAt ((List.range k).flatMap g) (m * i + off) n = leAt (g i) off n := by
  induction k with
  | zero => omega
  | succ k ih =>
    rw [List.range_succ, List.flatMap_append, List.flatMap_cons, List.flatMap_nil, List.append_nil]
    have hlen : ((List.range k).flatMap g).length = m * k := length_flatMap_range h
    obtain rfl | hlt : i = k ∨ i < k := by omega
    · rw [leAt_append_right (by rw [hlen]; omega), hlen, Nat.add_sub_cancel_left]
    · have : m * (i + 1) ≤ m * k := Nat.mul_le_mul_left m hlt
      rw [Nat.mul_add, Nat.mul_one] at this
      rw [leAt_append_left (by rw [hlen]; omega), ih hlt]

theorem leAt_flatMap_range_start {k m : Nat} {g : Nat → List Byte} (h : ∀ i, (g i).length = m) {i n : Nat} (hi : i < k) (hn : n ≤ m) :
    leAt ((List.range k).flatMap g) (m * i) n = leAt (g i) 0 n :=
  leAt_flatMap_range (off := 0) h hi (by rwa [Nat.zero_add])

/-! ### The trap frame (R430) -/

/-- The predicates of a lane, `p1`–`p7` in [7:1]. -/
def predMask (x : Warp) (l : Nat) : Nat := maskOf ((List.range 7).filterMap (fun n => if x.getP l (n + 1) then some (n + 1) else none))

theorem testBit_foldl_or (ls : List Nat) (m i : Nat) : (ls.foldl (fun m i => m ||| 1 <<< i) m).testBit i = (m.testBit i || decide (i ∈ ls)) := by
  induction ls generalizing m with
  | nil => simp
  | cons k ls ih =>
    rw [List.foldl_cons, ih, Nat.testBit_or, Nat.one_shiftLeft, Nat.testBit_two_pow]
    rw [List.decide_mem_cons, Bool.or_assoc, decide_eq_decide.mpr eq_comm, Bool.beq_eq_decide_eq]

theorem testBit_maskOf (ls : List Nat) (i : Nat) : (maskOf ls).testBit i = decide (i ∈ ls) := by
  rw [maskOf, testBit_foldl_or, Nat.zero_testBit, Bool.false_or]

theorem testBit_predMask (x : Warp) (l i : Nat) : (predMask x l).testBit i = (decide (1 ≤ i ∧ i < 8) && x.getP l i) := by
  rw [predMask, testBit_maskOf]
  cases i with
  | zero => simp
  | succ n =>
    have : n + 1 ∈ (List.range 7).filterMap (fun n => if x.getP l (n + 1) then some (n + 1) else none) ↔ n < 7 ∧ x.getP l (n + 1) = true := by
      simp
    rw [Bool.eq_iff_iff, decide_eq_true_iff, this, Bool.and_eq_true, decide_eq_true_iff]
    exact and_congr_left' ⟨fun h => ⟨by omega, by omega⟩, fun h => by omega⟩

/-- The bytes of the predicates are those of the lanes in turn. -/
theorem predBytes_eq (x : Warp) : predBytes x = (List.range 32).flatMap (fun l => [BitVec.ofNat 8 (predMask x l)]) :=
  List.map_eq_flatMap

theorem length_predBytes (x : Warp) : (predBytes x).length = 32 := by simp [predBytes]

theorem leAt_predBytes (x : Warp) {l : Nat} (hl : l < 32) : leAt (predBytes x) l 1 = predMask x l % 256 := by
  have h := leAt_flatMap_range_start (g := fun l => [BitVec.ofNat 8 (predMask x l)]) (fun _ => rfl) hl le_rfl
  rw [Nat.one_mul] at h
  rw [predBytes_eq, h]
  exact BitVec.toNat_ofNat ..

/-- The scalar registers in the frame. -/
def frameScalars (x : Warp) : List Byte := (List.range 8).flatMap (fun i => toLE 4 (x.getK i).toNat)

/-- The vector registers in the frame, zeros for lanes that are not of the entry. -/
def frameVectors (x : Warp) (lmask : LaneSet) : List Byte :=
  (List.range 16).flatMap (fun r => (List.range 32).flatMap (fun l =>
    toLE 4 (if lmask.getLsbD l then (x.getV l (x.pos l r)).toNat else 0)))

theorem length_frameScalars (x : Warp) : (frameScalars x).length = 32 := length_flatMap_range fun _ => length_toLE ..

theorem length_frameVectors (x : Warp) (m : LaneSet) : (frameVectors x m).length = 2048 :=
  length_flatMap_range fun _ => length_flatMap_range fun _ => length_toLE ..

theorem leAt_frameScalars (x : Warp) {i : Nat} (hi : i < 8) : leAt (frameScalars x) (4 * i) 4 = (x.getK i).toNat := by
  rw [frameScalars, leAt_flatMap_range_start (fun _ => length_toLE ..) hi le_rfl, leAt_toLE]
  exact Nat.mod_eq_of_lt (x.getK i).isLt

theorem leAt_frameVectors (x : Warp) (m : LaneSet) {r l : Nat} (hr : r < 16) (hl : l < 32) :
    leAt (frameVectors x m) (128 * r + 4 * l) 4 = if m.getLsbD l then (x.getV l (x.pos l r)).toNat else 0 := by
  rw [frameVectors, leAt_flatMap_range (fun _ => length_flatMap_range fun _ => length_toLE ..) hr (by omega),
    leAt_flatMap_range_start (fun _ => length_toLE ..) hl le_rfl, leAt_toLE]
  split
  · exact Nat.mod_eq_of_lt (x.getV l (x.pos l r)).isLt
  · rfl

section
variable (s : State) (wg w : Nat) (t : Trap) (lmask amask : LaneSet) (rpc : Nat) (held : Bool)

/-- The status fields of the frame. -/
def frameStatus : List Byte :=
  toLE 4 t.cause ++ (toLE 4 (b2n (s.getWarp wg w).yp + 2 * b2n held) ++ (toLE 8 t.info ++ (toLE 10 rpc ++ (zeros 6 ++
  (toLE 4 lmask.toNat ++ (toLE 4 amask.toNat ++ (toLE 4 (readWcr s wg w) ++ (toLE 4 t.fmask.toNat ++ (toLE 8 t.info2 ++
  toLE 8 (s.sample (coreDie (s.getWg wg).core)))))))))))

theorem length_frameStatus : (frameStatus s wg w t lmask amask rpc held).length = 64 := by
  simp [frameStatus]

/-- The frame is its status fields, then scalar registers, predicates, reserved bytes and vector registers. -/
theorem frameBytes_eq :
    frameBytes s wg w t lmask amask rpc held =
      frameStatus s wg w t lmask amask rpc held ++ (frameScalars (s.getWarp wg w) ++ (predBytes (s.getWarp wg w) ++ (zeros 128 ++
      frameVectors (s.getWarp wg w) lmask))) := by
  simp only [frameBytes, frameStatus, List.append_assoc]
  rfl

theorem length_frameBytes : (frameBytes s wg w t lmask amask rpc held).length = 2304 := by
  simp [frameBytes_eq, length_frameStatus, length_frameScalars, length_predBytes, length_frameVectors]

/-- A field of the frame past the status fields. -/
theorem leAt_frame_registers (off n : Nat) : leAt (frameBytes s wg w t lmask amask rpc held) (64 + off) n =
    leAt (frameScalars (s.getWarp wg w) ++ (predBytes (s.getWarp wg w) ++ (zeros 128 ++ frameVectors (s.getWarp wg w) lmask))) off n := by
  rw [frameBytes_eq, leAt_append_skip (length_frameStatus ..)]

theorem leAt_frame_status {off n : Nat} (h : off + n ≤ 64) :
    leAt (frameBytes s wg w t lmask amask rpc held) off n = leAt (frameStatus s wg w t lmask amask rpc held) off n := by
  rw [frameBytes_eq, leAt_append_left (by rwa [length_frameStatus])]

/-- The status fields, each at its offset. -/
theorem frameStatus_fields :
    let fr := frameStatus s wg w t lmask amask rpc held
    leAt fr 0 4 = t.cause % 2 ^ 32 ∧ leAt fr 4 4 = b2n (s.getWarp wg w).yp + 2 * b2n held ∧ leAt fr 8 8 = t.info % 2 ^ 64 ∧
    leAt fr 0x10 10 = rpc % 2 ^ 80 ∧ leAt fr 0x1A 6 = 0 ∧ leAt fr 0x20 4 = lmask.toNat ∧ leAt fr 0x24 4 = amask.toNat ∧
    leAt fr 0x28 4 = readWcr s wg w % 2 ^ 32 ∧ leAt fr 0x2C 4 = t.fmask.toNat ∧ leAt fr 0x30 8 = t.info2 % 2 ^ 64 ∧
    leAt fr 0x38 8 = s.sample (coreDie (s.getWg wg).core) % 2 ^ 64 := by
  have hyp : b2n (s.getWarp wg w).yp + 2 * b2n held < 256 ^ 4 := by
    unfold b2n
    split <;> split <;> decide
  have hlanes : ∀ m : LaneSet, m.toNat % 256 ^ 4 = m.toNat := fun m => Nat.mod_eq_of_lt m.isLt
  intro fr
  simp (disch := simp) only [fr, frameStatus, leAt_append_left, leAt_append_right, length_toLE, length_zeros, Nat.reduceSub, leAt_toLE,
    leAt_zeros, Nat.mod_eq_of_lt hyp, hlanes]
  exact ⟨rfl, trivial, rfl, rfl, trivial, trivial, trivial, rfl, trivial, rfl, rfl⟩

theorem leAt_frame_scalars {i : Nat} (hi : i < 8) :
    leAt (frameBytes s wg w t lmask amask rpc held) (0x40 + 4 * i) 4 = ((s.getWarp wg w).getK i).toNat := by
  rw [leAt_frame_registers, leAt_append_left (by rw [length_frameScalars]; omega), leAt_frameScalars _ hi]

theorem leAt_frame_preds {l : Nat} (hl : l < 32) :
    leAt (frameBytes s wg w t lmask amask rpc held) (0x60 + l) 1 = predMask (s.getWarp wg w) l % 256 := by
  rw [show 0x60 + l = 64 + (32 + l) by omega, leAt_frame_registers, leAt_append_skip (length_frameScalars _),
    leAt_append_left (by rw [length_predBytes]; omega), leAt_predBytes _ hl]

theorem leAt_frame_zeros : leAt (frameBytes s wg w t lmask amask rpc held) 0x80 128 = 0 := by
  rw [leAt_frame_registers _ _ _ _ _ _ _ _ (32 + (32 + 0)), leAt_append_skip (length_frameScalars _),
    leAt_append_skip (length_predBytes _), leAt_append_left (by simp), leAt_zeros]

theorem leAt_frame_vectors {r l : Nat} (hr : r < 16) (hl : l < 32) :
    leAt (frameBytes s wg w t lmask amask rpc held) (0x100 + 128 * r + 4 * l) 4 =
      if lmask.getLsbD l then ((s.getWarp wg w).getV l ((s.getWarp wg w).pos l r)).toNat else 0 := by
  rw [show 0x100 + 128 * r + 4 * l = 64 + (32 + (32 + (128 + (128 * r + 4 * l)))) by omega, leAt_frame_registers,
    leAt_append_skip (length_frameScalars _), leAt_append_skip (length_predBytes _), leAt_append_skip (length_zeros _),
    leAt_frameVectors _ _ hr hl]

theorem bitB_predByte (x : Warp) (l : Nat) {n : Nat} (h1 : 1 ≤ n) (h8 : n < 8) : bitB (predMask x l % 256) n = x.getP l n := by
  rw [bitB, show 256 = 2 ^ 8 from rfl, Nat.testBit_mod_two_pow, testBit_predMask]
  simp [h1, h8]

theorem predByte_even (x : Warp) (l : Nat) : predMask x l % 256 % 2 = 0 := by
  have hbit : (predMask x l).testBit 0 = false := by rw [testBit_predMask]; simp
  rw [Nat.testBit_zero, decide_eq_false_iff_not] at hbit
  omega

end

/-! ### The ways of taking a trap -/

section
variable {s : State} {wg w : Nat} {pc : Va} {amask : LaneSet} {rpc : Nat} {t : Trap} {held : Bool} {e : Entry}

/-- Only a page fault of reason 0x03 asks whether a table was poisoned. -/
theorem poisonedTable_eq (s : State) (wg : Nat) {t : Trap} (h : t.cls = 6 → t.reason ≠ 3) : poisonedTable s wg t = s := by
  unfold poisonedTable
  by_cases h6 : t.cls = 6 <;> simp [h6, h]

/-- What a trap does to the warp whose entry `e` takes it (R351, R429). -/
def Warp.enterS (x : Warp) (now : Nat) (pc : Va) (t : Trap) (e : Entry) (tvec : Nat) : Warp :=
  { x with
    modeS := true, tcause := BitVec.ofNat 32 t.cause, trapLanes := e.mask, aside := x.table.filter (fun y => y.pc ≠ pc)
    table := [{ Entry.fresh (BitVec.ofNat 80 (tvec + 4)) e.mask with stall := 1 }]
    lanes := x.lanes.map (fun y => (y.1, { y.2 with sinceLR := 0 }))
    reports := x.reports.map (fun r => { r with held := true }), lastIssue := now }

theorem Warp.enterS_lane (x : Warp) (now : Nat) (pc : Va) (t : Trap) (e : Entry) (tvec l : Nat) :
    (x.enterS now pc t e tvec).lane l = { x.lane l with sinceLR := 0 } := by
  show Sparse.get (x.lanes.map _) Lane.init l = _
  rw [Sparse.get, Sparse.find?_map]
  unfold lane Sparse.get
  cases Sparse.find? x.lanes l <;> rfl

variable (hreason : t.cls = 6 → t.reason ≠ 3) (hentry : ((s.modWarp wg w Warp.flush).getWarp wg w).entryAt pc = some e)
include hreason hentry

/-- A trap in mode S is a double fault (R433). -/
theorem takeTrap_of_modeS (hmode : ((s.modWarp wg w Warp.flush).getWarp wg w).modeS = true) :
    takeTrap s wg w pc amask rpc t held =
      endWorkgroup (s.modWarp wg w Warp.flush) wg (trapRecord (s.modWarp wg w Warp.flush) wg t pc.toNat 0xFFFF) := by
  unfold takeTrap
  rw [poisonedTable_eq _ _ hreason]
  simp only [hentry, hmode, if_true]

/-- Without a supervisor the workgroup ends (R398). -/
theorem takeTrap_of_no_supervisor (hmode : ((s.modWarp wg w Warp.flush).getWarp wg w).modeS = false)
    (htvec : ((s.modWarp wg w Warp.flush).getCtx ((s.modWarp wg w Warp.flush).wgCtx wg)).tvec = none) :
    takeTrap s wg w pc amask rpc t held =
      endWorkgroup (s.modWarp wg w Warp.flush) wg (trapRecord (s.modWarp wg w Warp.flush) wg t pc.toNat 0xFFFD) := by
  unfold takeTrap
  rw [poisonedTable_eq _ _ hreason]
  simp only [hentry, hmode, htvec, Bool.false_eq_true, if_false]

variable {tvec : Nat} (hmode : ((s.modWarp wg w Warp.flush).getWarp wg w).modeS = false)
  (htvec : ((s.modWarp wg w Warp.flush).getCtx ((s.modWarp wg w Warp.flush).wgCtx wg)).tvec = some tvec)
include hmode htvec

/-- A frame that cannot be written is a double fault. -/
theorem takeTrap_of_fault (hput : superWrite (s.modWarp wg w Warp.flush) wg ((s.modWarp wg w Warp.flush).getWarp wg w).tfbase
      (frameBytes (s.modWarp wg w Warp.flush) wg w t e.mask amask rpc held) = .fault) :
    takeTrap s wg w pc amask rpc t held =
      endWorkgroup (s.modWarp wg w Warp.flush) wg (trapRecord (s.modWarp wg w Warp.flush) wg t pc.toNat 0xFFFF) := by
  unfold takeTrap
  rw [poisonedTable_eq _ _ hreason]
  simp only [hentry, hmode, htvec, hput, Bool.false_eq_true, if_false]

/-- A frame for which the buffer of a deterministic launch has no room waits. -/
theorem takeTrap_of_instead {v : State} (hput : superWrite (s.modWarp wg w Warp.flush) wg ((s.modWarp wg w Warp.flush).getWarp wg w).tfbase
      (frameBytes (s.modWarp wg w Warp.flush) wg w t e.mask amask rpc held) = .instead v) :
    takeTrap s wg w pc amask rpc t held = v := by
  unfold takeTrap
  rw [poisonedTable_eq _ _ hreason]
  simp only [hentry, hmode, htvec, hput, Bool.false_eq_true, if_false]

/-- With the frame written and no poisoned register in it, the LR holds of the warp end, and the entry is in mode S. -/
theorem takeTrap_of_done {v : State} (hput : superWrite (s.modWarp wg w Warp.flush) wg ((s.modWarp wg w Warp.flush).getWarp wg w).tfbase
      (frameBytes (s.modWarp wg w Warp.flush) wg w t e.mask amask rpc held) = .done v)
    (hpoison : poisonedSlots ((s.modWarp wg w Warp.flush).getWarp wg w) e.mask = []) :
    takeTrap s wg w pc amask rpc t held =
      ({ v with holdsLR := v.holdsLR.filter (fun h => !(h.wg = wg && h.warp = w)) } : State).setWarp wg w
        ((v.getWarp wg w).enterS v.now pc t e tvec) := by
  unfold takeTrap
  rw [poisonedTable_eq _ _ hreason]
  simp only [hentry, hmode, htvec, hput, hpoison, List.map_nil, poisonSaved, List.foldl_nil, Bool.false_eq_true, if_false]
  rfl

end

/-- Settles O54: each way of taking the trap, and the fields of the frame. -/
theorem Claim.trapEntry : Obligations.TrapEntry := by
  intro s wg w pc amask rpc t held e hreason s0 x u fr hentry
  obtain ⟨hcause, hyp, hinfo, hrpc, hres, hlmask, hamask, hwcr, hfmask, hinfo2, hcyc⟩ := frameStatus_fields s0 wg w t e.mask amask rpc held
  have hstatus : ∀ {off n : Nat}, off + n ≤ 64 → leAt fr off n = leAt (frameStatus s0 wg w t e.mask amask rpc held) off n :=
    fun h => leAt_frame_status s0 wg w t e.mask amask rpc held h
  refine ⟨takeTrap_of_modeS hreason hentry, takeTrap_of_no_supervisor hreason hentry, fun hmode htvec hput => ?_,
    fun v hmode htvec hput => ?_, fun tvec v hmode htvec hput hpoison => ?_, length_frameBytes .., (hstatus (by decide)).trans hcause,
    (hstatus (by decide)).trans hyp, (hstatus (by decide)).trans hinfo, (hstatus (by decide)).trans hrpc,
    (hstatus (by decide)).trans hres, (hstatus (by decide)).trans hlmask, (hstatus (by decide)).trans hamask,
    (hstatus (by decide)).trans hwcr, (hstatus (by decide)).trans hfmask, (hstatus (by decide)).trans hinfo2,
    (hstatus (by decide)).trans hcyc, fun i hi => leAt_frame_scalars _ _ _ _ _ _ _ _ hi, fun l n hl h1 h8 => ?_, fun l hl => ?_,
    leAt_frame_zeros .., fun r l hr hl => leAt_frame_vectors _ _ _ _ _ _ _ _ hr hl⟩
  · obtain ⟨tvec, htvec⟩ := Option.ne_none_iff_exists'.mp htvec
    exact takeTrap_of_fault hreason hentry hmode htvec hput
  · obtain ⟨tvec, htvec⟩ := Option.ne_none_iff_exists'.mp htvec
    exact takeTrap_of_instead hreason hentry hmode htvec hput
  · intro z y
    have hu : u = _ := takeTrap_of_done hreason hentry hmode htvec hput hpoison
    have hy : y = z.enterS v.now pc t e tvec := by
      show u.getWarp wg w = _
      rw [hu, State.getWarp_setWarp_same]
    refine ⟨by rw [hy]; rfl, by rw [hy]; rfl, by rw [hy]; rfl, by rw [hy]; rfl, by rw [hy]; rfl, by rw [hy]; rfl, by rw [hy]; rfl,
      by rw [hy]; rfl, by rw [hy]; rfl, by rw [hy]; rfl, by rw [hy]; rfl, by rw [hy]; rfl, by rw [hy]; rfl, by rw [hy]; rfl,
      by rw [hy]; rfl, by rw [hy]; rfl, by rw [hy]; rfl, by rw [hy]; rfl, fun l => by rw [hy, Warp.enterS_lane]; exact ⟨rfl, rfl, rfl⟩,
      fun wg' w' hne => by rw [hu, State.getWarp_setWarp_other _ _ hne]; rfl, by rw [hu]; rfl, by rw [hu]; rfl, by rw [hu]; rfl,
      by rw [hu]; rfl, by rw [hu]; rfl⟩
  · rw [leAt_frame_preds _ _ _ _ _ _ _ _ hl, bitB_predByte _ _ h1 h8]
  · rw [leAt_frame_preds _ _ _ _ _ _ _ _ hl, predByte_even]

end Sys2Proof.Machine
end

section
/-!
Element-wise instructions (R232 to R246): what an issue lands once its slots have passed their checks.
-/

namespace Sys2Proof.Machine

open Sys2Proof

/-! ### Slot checks -/

/-- A slot that may be rounded into may be read. -/
theorem slotFail_read {c : Iss} {n : Nat} (h : slotFail c n true = []) : slotFail c n false = [] := by
  unfold slotFail at h ⊢
  split at h <;> simp_all

/-- The slot checks pass: FS can be rounded into, the source slot can be read, the instruction asks no more, and GRP is in range. -/
theorem pairChecks_eq_nil {sn limit : Iss → Nat} {req : Iss → List Fail} {c : Iss} (hfs : slotFail c c.f.fs.toNat true = [])
    (hss : slotFail c (sn c) false = []) (hreq : req c = []) (hgrp : c.f.grp < limit c) : pairChecks sn limit req c = [] := by
  simp [pairChecks, hfs, hss, hreq, hgrp]

/-- The checks of an instruction that reads its sources in FS. -/
theorem sameChecks_eq_nil {s : State} {i : Instr} {c0 c1 c : Iss} (h : Issues s i c0 c1 c) (hfs : slotFail c0 c0.f.fs.toNat true = [])
    (hgrp : c.f.grp = 0) : pairChecks (fun c => c.f.fs.toNat) (fun _ => 1) (fun _ => []) c0 = [] := by
  obtain ⟨-, -, -, hf, -⟩ := h.same
  refine pairChecks_eq_nil hfs (slotFail_read hfs) rfl ?_
  rw [← hf, hgrp]
  exact Nat.one_pos

/-! ### Arithmetic and functions -/

/-- The result of one lane, element by element. -/
def perElement (g : Iss → Nat → Nat → Nat × Nat) (c : Iss) (l : Nat) : Nat × Nat :=
  assemble c.nd 0 ((List.range c.nd.L).map (fun j => (j, g c l j)))

/-- The body of an instruction that rounds every element into FS, its sources read in FS. -/
def elementBody (g : Iss → Nat → Nat → Nat × Nat) : Body :=
  slotBody (pairChecks (fun c => c.f.fs.toNat) (fun _ => 1) (fun _ => [])) 1 (fun _ => false) (perElement g)

/-- The values of the sources of element `j`. -/
def elementArgs (n : Nat) (c : Iss) (l j : Nat) : List Val :=
  (([c.f.a.toNat, c.f.b.toNat, c.f.c.toNat].take n).map (fun x => c.slotSrc x c.nd l)).map (fun r => decodeVal (elem r j c.nd) c.nd)

theorem sameSlot_eq (n : Nat) (f : Iss → List Val → Nat → Nat × Nat) :
    sameSlot n f = elementBody (fun c l j => f c (elementArgs n c l j) (c.drawAt l j)) := rfl

theorem perElement_congr {g : Iss → Nat → Nat → Nat × Nat} {c : Iss} {el : Nat → Nat → Nat × Nat}
    (h : ∀ l ∈ c.act, ∀ j < c.nd.L, g c l j = el l j) :
    c.act.map (fun l => (l, assemble c.nd 0 ((List.range c.nd.L).map (fun j => (j, el l j))))) = c.act.map (fun l => (l, perElement g c l)) :=
  List.map_congr_left fun l hl => by
    have hels : (List.range c.nd.L).map (fun j => (j, g c l j)) = (List.range c.nd.L).map (fun j => (j, el l j)) :=
      List.map_congr_left fun j hj => by rw [h l hl j (List.mem_range.mp hj)]
    rw [perElement, hels]

section
variable {s : State} {i : Instr} {c0 c1 c : Iss} {g : Iss → Nat → Nat → Nat × Nat} {el : Nat → Nat → Nat × Nat}
  (h : Issues s i c0 c1 c) (hfs : slotFail c0 c0.f.fs.toNat true = []) (hgrp : c.f.grp = 0)
  (hel : ∀ l ∈ c.act, ∀ j < c.nd.L, Claim.floatElem i c l j = some (el l j))
include h hfs hgrp hel

/-- An instruction whose elements are the table's lands them. -/
theorem lands_elementBody (he : exec i s = .next (issue i (elementBody g) s)) (hg : ∀ l j, Claim.floatElem i c l j = some (g c l j)) :
    let rs := c.act.map (fun l => (l, assemble c.nd 0 ((List.range c.nd.L).map (fun j => (j, el l j)))))
    Lands s c i true (flaggedOut c.s (slotDraws 1 c) rs) false (rs.map (fun r => (r.1, r.2.1))) :=
  issue_slot (regs := 1) h he (sameChecks_eq_nil h hfs hgrp) nofun (perElement_congr fun l hl j hj =>
    Option.some.inj ((hg l j).symm.trans (hel l hl j hj)))

/-- The same of variable latency (R244). -/
theorem lands_elementBody_latency {least span : Nat} (he : exec i s = .next (issue i (Body.latency (elementBody g) least span) s))
    (hg : ∀ l j, Claim.floatElem i c l j = some (g c l j)) :
    let rs := c.act.map (fun l => (l, assemble c.nd 0 ((List.range c.nd.L).map (fun j => (j, el l j)))))
    Lands s c i true { flaggedOut c.s (slotDraws 1 c) rs with least := least, span := some span } false
      (rs.map (fun r => (r.1, r.2.1))) :=
  issue_slot_latency (regs := 1) h he (sameChecks_eq_nil h hfs hgrp) nofun (perElement_congr fun l hl j hj =>
    Option.some.inj ((hg l j).symm.trans (hel l hl j hj)))

end

/-- Settles O3: every element is the table's by cases on the instruction; the table has no element for any other. -/
theorem floatResults : Obligations.FloatResults := by
  intro s i c0 c1 c el h hfs hgrp hel hL
  obtain ⟨l, hl⟩ := List.exists_mem_of_ne_nil _ h.act_ne_nil
  have htable : Claim.floatElem i c l 0 ≠ none := by rw [hel l hl 0 hL]; exact nofun
  cases i with
  | fadd f | fsub f | fmul f | ffma f | fmin f | fmax f | fscale f | frcp f | frsq f | fexp2 f | flog2 f | fsin f | fcos f | ftanh f =>
    exact lands_elementBody h hfs hgrp hel rfl fun _ _ => rfl
  | frnd f =>
    obtain rfl : f = c.f := Option.some.inj h.fields
    exact lands_elementBody h hfs hgrp hel rfl fun _ _ => rfl
  | fsqrt f | fdiv f => exact lands_elementBody_latency h hfs hgrp hel rfl fun _ _ => rfl
  | _ => exact absurd rfl htable

/-! ### Conversions and packings -/

/-- A conversion or packing whose own part computes the table's results lands them. -/
theorem lands_conversion {s : State} {i : Instr} {c0 c1 c : Iss} {wide : Bool} {val : Nat → Nat × Nat} {limit : Iss → Nat}
    {req : Iss → List Fail} {regs : Nat} {keeps : Iss → Bool} {g : Iss → Nat → Nat × Nat} (h : Issues s i c0 c1 c)
    (hfs : slotFail c0 c0.f.fs.toNat true = []) (hss : slotFail c0 c0.f.x3 false = []) (hgrp : c0.f.grp < (Claim.convLimit i c0).1)
    (hkept : Claim.convKeeps i c = true → keptPoison c = none) (hval : ∀ l ∈ c.act, Claim.convResult i c l = some (wide, val l))
    (he : exec i s = .next (issue i (slotBody (pairChecks (fun c => c.f.x3) limit req) regs keeps g) s)) (hreq : req c0 = [])
    (hlimit : Claim.convLimit i = fun c => (limit c, regs)) (hkeeps : Claim.convKeeps i = keeps)
    (hg : ∀ l, Claim.convResult i c l = some (decide (regs = 2), g c l)) :
    let rs := c.act.map (fun l => (l, val l))
    Lands s c i true (flaggedOut c.s (slotDraws (Claim.convLimit i c).2 c) rs) wide (rs.map (fun r => (r.1, r.2.1))) := by
  have hone : ∀ l ∈ c.act, decide (regs = 2) = wide ∧ g c l = val l := fun l hl => by simpa [hg l] using hval l hl
  obtain ⟨l, hl⟩ := List.exists_mem_of_ne_nil _ h.act_ne_nil
  rw [hlimit] at hgrp ⊢
  subst hkeeps
  rw [← (hone l hl).1]
  exact issue_slot h he (pairChecks_eq_nil hfs hss hreq hgrp) hkept (List.map_congr_left fun l hl => by rw [(hone l hl).2])

/-- Settles O4: by cases on the instruction; the table has no result for any other. -/
theorem conversionResults : Obligations.ConversionResults := by
  intro s i c0 c1 c wide val h hfs hss hneeds hgrp hkept hval
  obtain ⟨l, hl⟩ := List.exists_mem_of_ne_nil _ h.act_ne_nil
  have htable : Claim.convResult i c l ≠ none := by rw [hval l hl]; exact nofun
  cases i with
  | fcvt f | fpack f | funpack f => exact lands_conversion h hfs hss hgrp hkept hval rfl rfl rfl rfl fun _ => rfl
  | f2i f =>
    obtain ⟨hE, hB⟩ := hneeds
    exact lands_conversion h hfs hss hgrp hkept hval rfl (by simp [hE, hB]) rfl rfl fun _ => rfl
  | i2f f =>
    have hE : c0.ns.E = 0 := hneeds
    exact lands_conversion h hfs hss hgrp hkept hval rfl (if_pos hE) rfl rfl fun _ => rfl
  | fdot f =>
    have hW : 16 < c0.nd.W := hneeds
    exact lands_conversion h hfs hss hgrp hkept hval rfl (if_neg (by omega)) rfl rfl fun _ => rfl
  | _ => exact absurd rfl htable

/-- The issue as it stands after core `k`, and nothing else of the state, has changed. -/
def Iss.withCoreMod (c : Iss) (k : Nat) (g : Core → Core) : Iss := { c with s := c.s.modCore k g }

theorem reach_withCoreMod (c : Iss) (k : Nat) (g : Core → Core) : (c.withCoreMod k g).reach = c.reach := rfl

theorem access_withCoreMod (c : Iss) (k : Nat) (g : Core → Core) : (c.withCoreMod k g).access = c.access := by
  funext s r obj ps
  unfold Iss.access
  rw [reach_withCoreMod]
  rfl

theorem reserveAppend_withCoreMod (c : Iss) (k : Nat) (g : Core → Core) : reserveAppend (c.withCoreMod k g) = reserveAppend c := by
  funext s n ls
  unfold reserveAppend
  rw [access_withCoreMod]
  rfl

/-- Where results go does not depend on what a core holds. -/
theorem putD_withCoreMod (c : Iss) (k : Nat) (g : Core → Core) : putD (c.withCoreMod k g) = putD c := by
  funext o wide vals
  unfold putD appendStream
  rw [reserveAppend_withCoreMod]
  rfl

/-- The issue once the maximum magnitude that IMM names has taken in the source values (R125). -/
def Iss.amaxed (c : Iss) : Iss := if bitB c.f.immN 20 then { c with s := mxUpdates c (bits c.f.immN 17 3) } else c

theorem amaxed_eq (c : Iss) : c.amaxed = { c with s := if bitB c.f.immN 20 then mxUpdates c (bits c.f.immN 17 3) else c.s } := by
  unfold Iss.amaxed
  split <;> rfl

theorem putD_amaxed (c : Iss) : putD c.amaxed = putD c := by
  unfold Iss.amaxed
  split
  · exact putD_withCoreMod c c.core _
  · rfl

theorem amaxed_keeps (c : Iss) : c.amaxed.act = c.act ∧ c.amaxed.keepsSome = c.keepsSome ∧ keptPoison c.amaxed = keptPoison c := by
  unfold Iss.amaxed
  split <;> exact ⟨rfl, rfl, rfl⟩

/-- An instruction with its slots sound and no kept element poisoned lays its lanes' results down. -/
theorem slotBody_run {checks : Iss → List Fail} {regs : Nat} {keeps : Iss → Bool} {g : Iss → Nat → Nat × Nat} {c : Iss}
    (hkept : keeps c = true → keptPoison c = none) :
    (slotBody checks regs keeps g).run c = putFlagged c { s := c.s } (regs = 2) (c.act.map (fun l => (l, g c l))) := by
  have hnone : (if keeps c then keptPoison c else none) = none := by
    split
    · exact hkept ‹_›
    · rfl
  simp only [slotBody, hnone]

/-- FCVTS as a conversion of each paired element with its scale. -/
def scaledBody : Body := convBody (fun _ => []) (fun c l j x u =>
  scaledCode (decodeVal x c.ns) c.nd ((c.s.getCore c.core).mx.scale (c.b false l % 256 + j)) u)

/-- FCVTS's own part. -/
def fcvtsBody : Body :=
  { scaledBody with
    state := fun c => scaledBody.state c ++ ownFail c
    run := fun c => scaledBody.run c.amaxed }

theorem exec_fcvts (f : Fields) (s : State) : exec (.fcvts f) s = .next (issue (.fcvts f) fcvtsBody s) := rfl

/-- Settles O5: FCVTS is a conversion whose lanes read the engine's scales, in the state that the update of a maximum magnitude
leaves. -/
theorem scaledConversion : Obligations.ScaledConversion := by
  intro s f c0 c1 c h hfs hss howns hgrp hkept d rs
  obtain rfl : f = c.f := Option.some.inj h.fields
  obtain ⟨hact, hkeeps, hpoison⟩ := amaxed_keeps c
  have hd : d = c.amaxed := (amaxed_eq c).symm
  clear_value d
  subst hd
  have hpair : scaledBody.state c0 = [] := pairChecks_eq_nil (c := c0) (sn := fun c => c.f.x3) (limit := fun c => grpLimit c.nd.L c.ns.L)
    (req := fun _ => []) hfs hss rfl hgrp
  have hown : ownFail c0 = [] := if_pos howns
  have hchecks : fcvtsBody.state c0 = [] := List.append_eq_nil_iff.mpr ⟨hpair, hown⟩
  have hrun : fcvtsBody.run c = putD c (flaggedOut c.amaxed.s 0 rs) false (rs.map (fun r => (r.1, r.2.1))) := by
    show scaledBody.run c.amaxed = _
    rw [scaledBody, convBody, slotBody_run (by rw [hkeeps, hpoison]; exact hkept), putFlagged, putD_amaxed, hact]
    rfl
  have hlands := issue_lands h hchecks rfl hrun (exec_fcvts c.f s)
  have hdraws : (flaggedOut c.amaxed.s 0 rs).draws + fcvtsBody.draws c = slotDraws 1 c := Nat.zero_add _
  rw [hdraws] at hlands
  exact hlands

/-! ### Tests and random numbers -/

/-- A test of every element, its slot sound and its element in range, lands the tests of the lanes. -/
theorem lands_testBody {s : State} {i : Instr} {c0 c1 c : Iss} {test : Iss → Nat → Nat → Bool} (h : Issues s i c0 c1 c)
    (hfs : slotFail c0 c0.f.fs.toNat false = []) (hgrp : isP c0.f.d.toNat = true → c0.f.grp < c0.nd.L)
    {t : Nat → Nat → Bool} (ht : ∀ l j, Claim.elemTest i c l j = some (t l j))
    (he : exec i s = .next (issue i (testBody test) s)) (htest : ∀ l j, Claim.elemTest i c l j = some (test c l j)) :
    Lands s c i false { s := c.s } false (c.act.map (fun l =>
      (l, if isP c.f.d.toNat then b2n (t l c.f.grp) else maskOf ((List.range c.nd.L).filter (t l))))) := by
  obtain rfl : test c = t := funext fun l => funext fun j => Option.some.inj ((htest l j).symm.trans (ht l j))
  refine issue_lane (b := testBody test) h he ?_ rfl rfl rfl rfl
  simp [testBody, hfs]
  exact hgrp

/-- RAND's own part. -/
def randBody : Body where
  state := fun c => if c.f.x3 = 0 then [] else slotFail c c.f.fs.toNat true
  draws := fun c => if c.f.x3 = 0 then 1 else c.nd.L
  run := fun c => putD c { s := c.s } false (c.act.map (fun l =>
    (l, if c.f.x3 = 0 then c.drawAt l 0
        else packE ((List.range c.nd.L).map (fun j =>
          (roundVal (c.nd.withRnd 1) (.num false (.rat (c.drawAt l j % 2 ^ 24) (2 ^ 24))) 0).1)) c.nd.W)))

theorem exec_rand (f : Fields) (s : State) : exec (.rand f) s = .next (issue (.rand f) randBody s) := rfl

/-- RAND lands one value for each lane. -/
theorem lands_rand {s : State} {f : Fields} {c0 c1 c : Iss} (h : Issues s (.rand f) c0 c1 c)
    (hfs : c.f.x3 ≠ 0 → slotFail c0 c0.f.fs.toNat true = []) :
    Lands s c (.rand f) false { s := c.s, draws := if c.f.x3 = 0 then 1 else c.nd.L } false (c.act.map (fun l =>
      (l, if c.f.x3 = 0 then c.drawAt l 0
          else packE ((List.range c.nd.L).map (fun j =>
            (roundVal (c.nd.withRnd 1) (.num false (.rat (c.drawAt l j % 2 ^ 24) (2 ^ 24))) 0).1)) c.nd.W))) := by
  obtain ⟨-, -, -, hf, -⟩ := h.same
  have hchecks : (if c0.f.x3 = 0 then [] else slotFail c0 c0.f.fs.toNat true) = [] := by
    rw [← hf] at hfs ⊢
    split
    · rfl
    · exact hfs ‹_›
  have hlands := issue_lands (o := { s := c.s }) (wide := false) h hchecks rfl rfl (exec_rand f s)
  have hdraws : ({ s := c.s } : Out).draws + randBody.draws c = if c.f.x3 = 0 then 1 else c.nd.L := Nat.zero_add _
  rw [hdraws] at hlands
  exact hlands

/-- Settles O6: a test of elements lands its mask or one bit, RAND its draws. -/
theorem testAndRandomResults : Obligations.TestAndRandomResults := by
  intro s i c0 c1 c h
  refine ⟨fun t ht hfs hgrp => ?_, ?_, ?_⟩
  · have htable : Claim.elemTest i c 0 0 ≠ none := by rw [ht]; exact nofun
    cases i with
    | fcmp f =>
      obtain rfl : f = c.f := Option.some.inj h.fields
      exact lands_testBody h hfs hgrp ht rfl fun _ _ => rfl
    | fclass f => exact lands_testBody h hfs hgrp ht rfl fun _ _ => rfl
    | _ => exact absurd rfl htable
  · rintro f rfl hx
    obtain rfl : f = c.f := Option.some.inj h.fields
    have := lands_rand h (absurd hx)
    simpa [hx] using this
  · rintro f rfl hx hfs
    obtain rfl : f = c.f := Option.some.inj h.fields
    have := lands_rand h fun _ => hfs
    simpa [hx] using this

end Sys2Proof.Machine
end

section
/-!
Cross-lane instructions (R247 to R250), streams and CHAIN (R255, R258): what an issue lands or puts under way.
-/

namespace Sys2Proof.Machine

open Sys2Proof

/-! ### Cross-lane instructions -/

/-- A cross-lane instruction whose readers compute the table's values lands them, with the validity predicate. -/
theorem lands_crossBody {s : State} {i : Instr} {c0 c1 c : Iss} {wide : Bool} {val : Nat → Nat} {ok : Nat → Bool} {W : Iss → Bool}
    {k : Iss → Nat → Bool} {g : Iss → Nat → Nat} (h : Issues s i c0 c1 c)
    (hval : ∀ l, Claim.crossResult i c l = some (wide, val l, ok l)) (he : exec i s = .next (issue i (crossBody W k g) s))
    (hg : ∀ l, Claim.crossResult i c l = some (W c, g c l, k c l)) :
    Lands s c i false { s := c.s, writes := vpWrites c ok } wide (c.act.map (fun l => (l, val l))) := by
  have hone : ∀ l, W c = wide ∧ g c l = val l ∧ k c l = ok l := fun l => by simpa [hg l] using hval l
  obtain rfl : W c = wide := (hone 0).1
  obtain rfl : g c = val := funext fun l => (hone l).2.1
  obtain rfl : k c = ok := funext fun l => (hone l).2.2
  exact issue_lands (b := crossBody W k g) (o := { s := c.s, writes := vpWrites c (k c) }) h rfl rfl rfl he

/-- Settles O7: by cases on the instruction; the table has no result for any other. -/
theorem crossLaneResults : Obligations.CrossLaneResults := by
  intro s i c0 c1 c wide val ok h hval
  have htable : Claim.crossResult i c 0 ≠ none := by rw [hval]; exact nofun
  cases i with
  | vote f | shfl f | matchL f =>
    obtain rfl : f = c.f := Option.some.inj h.fields
    exact lands_crossBody h hval rfl fun _ => rfl
  | _ => exact absurd rfl htable

/-- A reduction whose readers combine the table's lanes lands their combinations. -/
theorem lands_reduxBody {s : State} {i : Instr} {c0 c1 c : Iss} {wide : Bool} {ks : Nat → List Nat} {W : Iss → Bool}
    {g : Iss → Nat → List Nat} (h : Issues s i c0 c1 c) (hks : ∀ l, Claim.reduxLanes i c l = some (wide, ks l))
    (hfs : 6 ≤ c0.f.mX % 8 → slotFail c0 c0.f.fs.toNat true = []) (he : exec i s = .next (issue i (reduxBody W g) s))
    (hg : ∀ l, Claim.reduxLanes i c l = some (W c, g c l)) :
    let rs := c.act.map (fun l => (l, Claim.reduxValue c wide (ks l) l))
    Lands s c i true
      { flaggedOut c.s (if c.f.mX % 8 < 6 then 0 else slotDraws 1 c) rs with writes := vpWrites c c.tileFull }
      wide (rs.map (fun r => (r.1, r.2.1))) := by
  intro rs
  have hone : ∀ l, W c = wide ∧ g c l = ks l := fun l => by simpa [hg l] using hks l
  obtain rfl : W c = wide := (hone 0).1
  obtain rfl : g c = ks := funext fun l => (hone l).2
  have hchecks : (reduxBody W g).state c0 = [] := by
    show (if c0.f.mX % 8 < 6 then [] else slotFail c0 c0.f.fs.toNat true) = []
    split
    · rfl
    · exact hfs (by omega)
  have hlands := issue_lands (b := reduxBody W g) (o := { flaggedOut c.s 0 rs with writes := vpWrites c c.tileFull }) h hchecks rfl
    rfl he
  have hdraws : (flaggedOut c.s 0 rs).draws + (reduxBody W g).draws c = if c.f.mX % 8 < 6 then 0 else slotDraws 1 c := Nat.zero_add _
  rw [show ({ flaggedOut c.s 0 rs with writes := vpWrites c c.tileFull } : Out).draws = (flaggedOut c.s 0 rs).draws from rfl, hdraws]
    at hlands
  exact hlands

/-- Settles O8: by cases on the instruction; the table has no lanes for any other. -/
theorem reductionResults : Obligations.ReductionResults := by
  intro s i c0 c1 c wide ks h hks hfs
  have htable : Claim.reduxLanes i c 0 ≠ none := by rw [hks]; exact nofun
  cases i with
  | redux f | scan f =>
    obtain rfl : f = c.f := Option.some.inj h.fields
    exact lands_reduxBody h hks hfs rfl fun _ => rfl
  | _ => exact absurd rfl htable

/-! ### Streams -/

/-- SSEEK's check of a position passes. -/
theorem seek_check_of_seekable {x : Stream} {a : Nat} (h : Claim.seekable x a = true) :
    (x.n0 ≤ bits a 0 12 || x.n1 < bits a 12 13 || (bits a 12 13 = x.n1 && bits a 0 12 ≠ 0)) = false := by
  simp only [Claim.seekable, Bool.and_eq_true, Bool.or_eq_true, decide_eq_true_eq] at h
  obtain ⟨⟨h0, h1⟩, hend⟩ := h
  simp only [Bool.or_eq_false_iff, Bool.and_eq_false_iff, decide_eq_false_iff_not]
  omega

theorem valueFails_eq_nil {c : Iss} {code x : Nat} {bad : Bool} (h : bad = false) : c.valueFails code bad x = [] := by
  simp [Iss.valueFails, h]

/-- Settles O9: each of the four passes its check and is not kept waiting. -/
theorem streamManagement : Obligations.StreamManagement := by
  intro s f c0 c1 c
  refine ⟨fun h hmode hbusy => ?_, fun h hV hseek hbusy => ?_, fun h hV => ?_, fun h hV hbusy => ?_⟩
  · exact issue_next h rfl rfl (if_neg (by omega)) rfl rfl (by simp only [hbusy]; rfl)
  · exact issue_next h rfl (if_pos hV) (valueFails_eq_nil (seek_check_of_seekable hseek)) rfl rfl (by simp only [hbusy]; rfl)
  · exact issue_lane h rfl (if_pos hV) rfl rfl rfl rfl
  · exact issue_lane h rfl (if_pos hV) rfl rfl rfl (by simp only [hbusy]; rfl)

theorem map_fst_pairs {α β : Type} (xs : List α) (f : α → β) : (xs.map (fun x => (x, f x))).map (·.1) = xs := by
  rw [List.map_map]
  exact List.map_id xs

/-- Settles O10: the run of CHAIN with no other under way, its program read and its checks passed. -/
theorem chainStarts : Obligations.ChainStarts := by
  intro s f c0 c1 c h halign hchain
  have hvals : (if c1.a true c1.l0 % 64 ≠ 0 then [c1.bad 0x0C (c1.a true c1.l0)] else []) = [] := if_neg (not_not.mpr halign)
  refine ⟨fun hzero => ?_, fun ts t hcount haccess => ?_⟩
  · exact issue_next h rfl rfl hvals rfl rfl (by simp only [hchain, hzero]; rfl)
  · intro r words ps names hpoison hfail hbusy ch
    have hks : ch.ks.map (·.1) = (ps.flatMap (fun x => ((stSel x).filter isK).map (· - 64))).dedup := map_fst_pairs _ _
    rw [hks]
    refine issue_next h rfl rfl hvals rfl rfl ?_
    simp only [hchain, hcount, haccess]
    simp only [r, words, ps, names] at hpoison hfail hbusy
    simp only [hpoison, hfail, hbusy, Option.isSome_none, Bool.false_eq_true, if_false]
    rfl

end Sys2Proof.Machine
end

section
/-!
Control instructions (R222 to R229, R52, R53) and rejoin sets (R66): what an issue does where no check fails.
-/

namespace Sys2Proof.Machine

open Sys2Proof

/-- Checks that no lane fails trap nothing. -/
theorem laneTrap_of_none {cls reason info2 : Nat} {info : Nat → Nat} {ls : List Nat} {p : Nat → Bool} (h : ∀ l ∈ ls, p l = false) :
    laneTrap cls reason info2 info (ls.filter p) = none := by
  rw [List.filter_eq_nil_iff.mpr fun l hl => by simp [h l hl]]
  rfl

/-- The first trap of checks of which none traps. -/
theorem firstTrap_of_none {ts : List (Option Trap)} (h : ∀ t ∈ ts, t = none) : firstTrap ts = none :=
  List.findSome?_eq_none_iff.mpr h

/-- Settles O11: each goes past its own checks to its one outcome. -/
theorem controlFlow : Obligations.ControlFlow := by
  intro s f c0 c1 c
  refine ⟨fun h => ?_, fun h => ?_, fun h hvals hsect => ?_, fun h => ?_, fun h hzero => ?_, fun h hcount => ?_, fun h hsize => ?_⟩
  · exact issue_next h rfl rfl rfl rfl rfl rfl
  · exact issue_next h rfl rfl rfl rfl rfl rfl
  · have hbeyond : laneTrap 5 8 c.sect.2 (fun l => c.a false l) (beyondSection c) = none :=
      laneTrap_of_none fun l hl => decide_eq_false (not_le.mpr (hsect l hl))
    exact issue_next h rfl rfl hvals rfl rfl (by simp only [hbeyond])
  · exact issue_nextThen h rfl rfl rfl rfl rfl rfl
  · exact issue_next h rfl rfl rfl rfl rfl (if_pos hzero)
  · exact issue_next h rfl rfl rfl rfl rfl (if_neg hcount)
  · refine issue_next h rfl rfl (valueFails_eq_nil ?_) rfl rfl rfl
    simp only [List.mem_cons, List.not_mem_nil, or_false] at hsize
    simpa only [Bool.not_eq_false', Bool.or_eq_true, decide_eq_true_eq, or_assoc] using hsize

/-! ### Calls and returns -/

/-- A call none of whose lanes fails a check takes its effect (R52, R455). -/
theorem callRun_eq {c : Iss} {indirect : Bool} {tgt : Nat → Int} (hfits : ∀ l ∈ c.act, Claim.callFits c tgt l)
    (hwild : indirect = true → ∀ l ∈ c.act, (c.sect.2 ≤ c.a false l ||
      (c.qpf && (c.funcs.find? (fun e => e.1 = (tgt l - c.sect.1).toNat)).isNone)) = false) :
    callRun c indirect tgt = .out (Claim.callOut c tgt) := by
  have hdeep : c.act.filter (fun l => c.warp.depth l = 65535) = [] :=
    List.filter_eq_nil_iff.mpr fun l hl => by simpa using (hfits l hl).1
  have hspill : c.act.filter (fun l => needsSpill c (16 * c.frameCode (tgt l - c.sect.1).toNat) l) = [] :=
    List.filter_eq_nil_iff.mpr fun l hl => by simpa using (hfits l hl).2
  have hwild' : (if indirect then c.act.filter (fun l => c.sect.2 ≤ c.a false l ||
      (c.qpf && (c.funcs.find? (fun e => e.1 = (tgt l - c.sect.1).toNat)).isNone)) else []) = [] := by
    split
    · exact List.filter_eq_nil_iff.mpr fun l hl => by rw [hwild ‹_› l hl]; exact Bool.false_ne_true
    · rfl
  unfold callRun
  simp only [hdeep, hspill, hwild', List.filter_nil]
  rfl

/-- Settles O12: calls and returns none of whose lanes fails a check, and EXIT. -/
theorem callsAndReturns : Obligations.CallsAndReturns := by
  intro s f c0 c1 c
  refine ⟨fun h => ?_, fun h hvals => ?_, fun h hfits => ?_, fun h => ?_⟩
  · intro tgt hfits
    exact issue_next h rfl rfl rfl rfl rfl (callRun_eq hfits nofun)
  · intro tgt hfits
    refine issue_next h rfl rfl hvals rfl rfl (callRun_eq (fun l hl => (hfits l hl).1) fun _ l hl => ?_)
    obtain ⟨-, hsect, hfunc⟩ := hfits l hl
    rw [Bool.or_eq_false_iff, Bool.and_eq_false_imp]
    exact ⟨decide_eq_false (not_le.mpr hsect), fun hqpf => by rw [Option.isNone_eq_false_iff]; exact hfunc hqpf⟩
  · have hzero : c.act.filter (fun l => (c.warp.lane l).depth = 0) = [] :=
      List.filter_eq_nil_iff.mpr fun l hl => by simpa using (hfits l hl).1
    have hbad : c.act.filter (fun l => bits (c.warp.getV l (c.warp.pos l 63)).toNat 30 2 ≠ 0 ||
        c.sect.2 ≤ (c.warp.getV l (c.warp.pos l 63)).toNat % 2 ^ 28 ||
        (c.warp.lane l).fp < 16 * bits (c.warp.getV l (c.warp.pos l 63)).toNat 28 2) = [] :=
      List.filter_eq_nil_iff.mpr fun l hl => by
        obtain ⟨-, hbits, hoff, hfp⟩ := hfits l hl
        simp only [Claim.linkOffset, Claim.linkFrame] at hoff hfp
        simp only [Bool.or_eq_true, decide_eq_true_eq]
        omega
    have hfill : c.act.filter (fun l => (c.warp.lane l).fp < (c.warp.lane l).rb +
        16 * bits (c.warp.getV l (c.warp.pos l 63)).toNat 28 2) = [] :=
      List.filter_eq_nil_iff.mpr fun l hl => by simpa [Claim.linkFrame] using (hfits l hl).2.2.2
    refine issue_next h rfl rfl rfl rfl rfl ?_
    simp only [hzero, hbad, hfill]
    rfl
  · exact issue_nextThen h rfl rfl rfl rfl rfl rfl

/-! ### Rejoin sets -/

/-- Settles O13: each on a set in the state that it needs. -/
theorem rejoinAndPredicateSets : Obligations.RejoinAndPredicateSets := by
  intro s f c0 c1 c m
  refine ⟨?_, fun h hopen hdepth => ?_, fun h hopen => ?_, fun h hopen => ?_, fun h harr => ?_, ?_⟩
  · rintro i mem hform h hopen hdepth
    have hbad : c0.act.filter (fun l => c0.warp.depth l ≠ c0.warp.depth c0.l0) = [] :=
      List.filter_eq_nil_iff.mpr fun l hl => by simpa using hdepth l hl
    have hchecks : ∀ mask, (rjopenBody mask).state c0 = [] := fun mask => by simp only [rjopenBody, hopen, hbad]; rfl
    obtain ⟨rfl, rfl⟩ | ⟨rfl, rfl⟩ := hform
    · exact issue_next h rfl (hchecks _) rfl rfl rfl rfl
    · exact issue_next h rfl (hchecks _) rfl rfl rfl rfl
  · have hbad : c0.act.filter (fun l => c0.warp.depth l < (c0.warp.rj c0.set).depth) = [] :=
      List.filter_eq_nil_iff.mpr fun l hl => by simpa using hdepth l hl
    exact issue_next h rfl (by simp only [needOpen, hopen, hbad]; rfl) rfl rfl rfl rfl
  · exact issue_nextThen h rfl (if_pos hopen) rfl rfl rfl rfl
  · exact issue_nextThen h rfl (if_pos hopen) rfl rfl rfl rfl
  · exact issue_next h rfl (if_neg (not_not.mpr harr)) rfl rfl rfl rfl
  · rintro h rfl
    exact issue_next h rfl rfl rfl rfl rfl rfl

end Sys2Proof.Machine
end

section
/-!
Loads, stores and the scratchpad (R262 to R272): what an issue does once every part of its access has passed its checks.
-/

namespace Sys2Proof.Machine

open Sys2Proof

/-! ### What an answer of the checks comes to -/

theorem withRoom_of_ok {c : Iss} {s u : State} {ts : List TPart} {reds : Nat} {k : State → Res} (h : detGate c s ts reds = .ok u) :
    withRoom c s ts reds k = k u := by
  simp only [withRoom, h]

section
variable {s : State} {i : Instr} {c0 c1 c : Iss} {b : Body} (h : Issues s i c0 c1 c) (he : exec i s = .next (issue i b s))
  (hs : b.state c0 = []) (hv : b.vals c1 = []) (hd : b.draws c = 0) (hf : b.flagged = false)
include h he hs hv hd hf

/-- An instruction whose own part loads values for D completes with them. -/
theorem loads_of_putLoad {o : Out} {n : Nat} {vals : List (Nat × Option Nat)} (hr : b.run c = putLoad c o n vals) :
    Claim.Loads s c i o n vals := by
  refine ⟨fun hD => issue_next h he hs hv hd hf ?_, fun hD o' ho => issue_next h he hs hv hd hf ?_⟩
  · rw [hr, putLoad]
    exact if_neg (by simp [hD])
  · rw [hr, putLoad]
    exact (if_pos hD).trans ho

end

/-! ### Global loads and stores -/

/-- Settles O14: the access passes its checks, and what was read goes to D. -/
theorem loadsComplete : Obligations.LoadsComplete := by
  intro s f c0 c1 c ts t
  refine ⟨fun h haccess hscope => ?_, fun h haccess => ?_, fun h hfs haccess => ?_⟩
  · refine loads_of_putLoad h rfl rfl rfl rfl rfl ((withAccess_of_ok _ haccess).trans (if_neg (by simp [hscope])))
  · exact issue_next h rfl rfl rfl rfl rfl (withAccess_of_ok _ haccess)
  · intro rs vals bad
    refine ⟨fun hD => issue_next h rfl hfs rfl rfl rfl ((withAccess_of_ok _ haccess).trans (if_neg (by simp [hD]))), fun hD o ho => ?_⟩
    have hput : putLoad c { s := rs.2 } 4 (rs.1.map (fun r => (r.1, if r.2.2 then none else some r.2.1))) = .out o := by
      rw [putLoad, List.map_map]
      exact (if_pos hD).trans ho
    exact issue_next h rfl hfs rfl rfl rfl ((withAccess_of_ok _ haccess).trans ((if_pos hD).trans hput))

/-- Settles O15: the access passes its checks and finds room, and its bytes are stored lane by lane. -/
theorem storesComplete : Obligations.StoresComplete := by
  intro s f c0 c1 c ts t u
  refine ⟨fun h haccess hscope hroom => ?_, fun h hfs haccess hroom => ?_, fun h => ?_⟩
  · have hheld : (!wideScope c.f.sco && scopeHeld c t ts) = false := by
      cases hw : wideScope c.f.sco with
      | true => rfl
      | false => exact hscope hw
    exact issue_next h rfl rfl rfl rfl rfl ((withAccess_of_ok _ haccess).trans ((if_neg (by simp [hheld])).trans (withRoom_of_ok hroom)))
  · exact issue_next h rfl hfs rfl rfl rfl ((withAccess_of_ok _ haccess).trans (withRoom_of_ok hroom))
  · exact issue_next h rfl rfl rfl rfl rfl rfl

/-! ### The scratchpad -/

/-- A load within the allocation of a member reads its scratchpad. -/
theorem padLoad_eq {c : Iss} {q : Nat} (h : padTrap c c.size (c.act.map (fun l => (l, q, Claim.padAt c l))) = none) :
    padLoad c q = putLoad c { s := c.s } c.size
      (c.act.map (fun l => (l, loadVal c (scratchRead c.s (c.peer q) (Claim.padAt c l) c.size)))) := by
  unfold Claim.padAt at *
  simp only [padLoad, h]

/-- A store within it that no earlier command of the thread reads writes it. -/
theorem padStore_eq {c : Iss} {q : Nat} (h : padTrap c c.size (c.act.map (fun l => (l, q, Claim.padAt c l))) = none)
    (hsource : padSource c c.size (c.act.map (fun l => (l, q, Claim.padAt c l))) = false) :
    padStore c q = .out { s := c.act.foldl (fun s l =>
      scratchWrite s (c.peer q) (Claim.padAt c l) (toLE c.size (c.data c.f.b.toNat c.size l))) c.s } := by
  unfold Claim.padAt at *
  simp only [padStore, h, hsource, Bool.false_eq_true, if_false]

/-- Settles O16: each access is within the allocation, and what it writes is no command's source. -/
theorem scratchpadAccess : Obligations.ScratchpadAccess := by
  intro s i f c0 c1 c q places
  refine ⟨fun hform h hpad => ?_, fun hform h hpad hsource => ?_, fun ts t h => ?_⟩
  · obtain ⟨rfl, rfl⟩ | ⟨rfl, rfl⟩ := hform
    · exact loads_of_putLoad h rfl rfl rfl rfl rfl (padLoad_eq hpad)
    · exact loads_of_putLoad h rfl rfl rfl rfl rfl (padLoad_eq hpad)
  · obtain ⟨rfl, rfl⟩ | ⟨rfl, rfl⟩ := hform
    · exact issue_next h rfl rfl rfl rfl rfl (padStore_eq hpad hsource)
    · exact issue_next h rfl rfl rfl rfl rfl (padStore_eq hpad hsource)
  · intro qs off pss hpad hsource haccess rs hclean
    have hbad : rs.1.filter (fun r => r.2.2) = [] :=
      List.filter_eq_nil_iff.mpr fun r hr => by simpa using List.all_eq_true.mp hclean r hr
    refine issue_next h rfl rfl rfl rfl rfl ?_
    simp only [qs, off] at hpad hsource
    simp only [hpad, hsource, Bool.false_eq_true, if_false]
    refine (withAccess_of_ok _ haccess).trans ?_
    simp only [rs, pss, Claim.byLane] at hbad
    rw [hbad]
    rfl

end Sys2Proof.Machine
end

section
/-!
Atomics, reductions, reservations and pair updates (R131, R141, R269, R273 to R277): what an issue sends or performs.
-/

namespace Sys2Proof.Machine

open Sys2Proof

/-! ### Requests that go out -/

theorem withReach_of_reaches {c : Iss} {r : Right} {obj : Bool} {ps : List Part} {ts : List TPart} {t : State}
    (k : List TPart → State → Res) (h : Claim.Reaches c r obj ps ts t) : withReach c c.s r obj ps k = k ts t := by
  obtain ⟨hreach, hown, hsource⟩ := h
  have hwait : (ownWaiting t c.wg c.w AtomReq.fills ts || (r.wr && writesSource t c.wg c.w ts)) = false := by
    rw [hown, Bool.false_or, Bool.and_eq_false_imp]
    exact hsource
  simp only [withReach, hreach, hwait, Bool.false_eq_true, if_false]

/-- Parts of which none is of the type that atomics may not touch (R276). -/
theorem memTrap_of_types {ts : List TPart} (h : ts.all (fun x => x.mt ≠ 2) = true) :
    memTrap ((ts.filter (fun x => x.mt = 2)).map (fun x => (x.part, 7))) = none := by
  rw [List.filter_eq_nil_iff.mpr fun x hx => by simpa using List.all_eq_true.mp h x hx]
  rfl

section
variable {c : Iss} {t : State} {qs : List AtomReq} {reds : Nat}

/-- In a deterministic launch, with room and no granule held, requests act on the view at once (R173). -/
theorem sendRequests_det {u : State} (hdet : c.s.wgDet c.wg = true)
    (hheld : qs.any (fun q => q.wparts.any (fun x => t.heldWithin x.pa x.part.n c.wg (· ≠ c.w))) = false)
    (hroom : detGate c t (detAll t qs).2.1 reds = .ok u) :
    sendRequests c t qs reds = if isS c.f.d.toNat then appendStream c { s := (detAll u qs).2.2 } (c.f.d.toNat - 96) (detAll u qs).1
      else .out { s := (detAll u qs).2.2, writes := (qs.zip (detAll u qs).1).flatMap (fun e => resultWrites e.1.dst e.2.2) } := by
  simp only [sendRequests, hdet, hheld, if_true, Bool.false_eq_true, if_false, withRoom_of_ok hroom]

/-- Otherwise they queue at their units, results for registers to come with them. -/
theorem sendRequests_queue (hdet : c.s.wgDet c.wg = false) (hD : isS c.f.d.toNat = false) :
    sendRequests c t qs reds = .out { s := enqueueAtoms t qs, writes := qs.flatMap (fun q => resultWrites q.dst (some 0))
                                      awaits := qs.length, stays := qs.any (inRecordMode t) } := by
  simp only [sendRequests, hdet, hD, Bool.false_eq_true, if_false]

/-- With a stream for D the results have their places in it from the issue. -/
theorem sendRequests_stream {ps : List (Nat × LatePut)} {xs : List TPart} {u : State} (hdet : c.s.wgDet c.wg = false)
    (hD : isS c.f.d.toNat = true) (hplaces : reserveAppend c t (c.f.d.toNat - 96) (qs.map (·.lane)) = .ok (ps, xs, u)) :
    sendRequests c t qs reds = .out
      { s := enqueueAtoms u (qs.map (fun q => { q with late := (ps.filter (fun p => p.1 = q.lane)).map (·.2) }))
        awaits := qs.length, stays := qs.any (inRecordMode u) } := by
  simp only [sendRequests, hdet, hD, hplaces, Bool.false_eq_true, if_false, if_true]

/-- An instruction that sends requests, and changes the state by `fin` besides. -/
theorem sends_of_run {s : State} {i : Instr} {c0 c1 : Iss} {b : Body} {fin : State → State} (h : Issues s i c0 c1 c)
    (he : exec i s = .next (issue i b s)) (hs : b.state c0 = []) (hv : b.vals c1 = []) (hd : b.draws c = 0) (hf : b.flagged = false)
    (hr : ∀ o, sendRequests c t qs reds = .out o → b.run c = .out { o with s := fin o.s }) : Claim.Sends s i c t qs reds fin := by
  have hnext : ∀ o, sendRequests c t qs reds = .out o → exec i s = .next (issued c i false { o with s := fin o.s }) :=
    fun o ho => issue_next h he hs hv hd hf (hr o ho)
  refine ⟨fun hdet hheld u hroom => ⟨fun hD => ?_, fun hD o ho => ?_⟩, fun hdet hD => ?_, fun hdet hD ps xs u hplaces => ?_⟩
  · have hsend := sendRequests_det hdet hheld hroom
    rw [if_neg (by simp [hD])] at hsend
    exact (hnext _ hsend :)
  · have hsend := sendRequests_det hdet hheld hroom
    rw [if_pos hD, ho] at hsend
    exact hnext o hsend
  · exact (hnext _ (sendRequests_queue hdet hD) :)
  · exact (hnext _ (sendRequests_stream hdet hD hplaces) :)

end

/-! ### Atomics on global memory -/

/-- Aligned requests that pass their checks go out (R273). -/
theorem globalAtom_eq {c : Iss} {kind : Nat} {r : Right} {obj hasD : Bool} {ts : List TPart} {t : State}
    (halign : alignTrap (c.act.map (fun l => (l, c.atomVa l))) c.size = none)
    (hreach : Claim.Reaches c r obj (c.act.map (fun l => ⟨l, c.atomVa l, c.size⟩)) ts t)
    (htype : kind = 2 ∨ kind = 3 → ts.all (fun x => x.mt ≠ 2) = true) :
    globalAtom c kind r obj hasD = sendRequests c t (Claim.requests c kind ts hasD)
      (if kind = 4 ∨ kind = 5 then (Claim.requests c kind ts hasD).length else 0) := by
  have htrap : (if kind = 2 ∨ kind = 3 then memTrap ((ts.filter (fun x => x.mt = 2)).map (fun x => (x.part, 7))) else none) = none := by
    split
    · exact memTrap_of_types (htype ‹_›)
    · rfl
  simp only [globalAtom, halign, withReach_of_reaches _ hreach, Bool.or_eq_true, decide_eq_true_eq, htrap]
  rfl

/-- Settles O17: each of the five is the global atomic of its kind. -/
theorem globalAtomics : Obligations.GlobalAtomics := by
  intro s i f c0 c1 c kind r hasD ts t hform h hspc halign hreach htype
  have hrun : ∀ o, sendRequests c t (Claim.requests c kind ts hasD)
      (if kind = 4 ∨ kind = 5 then (Claim.requests c kind ts hasD).length else 0) = .out o →
      globalAtom c kind r true hasD = .out o := fun o ho => by
    rw [globalAtom_eq halign hreach fun h2 => htype (h2.resolve_left (by rintro rfl; simp at hform)), ho]
  obtain ⟨rfl, rfl, rfl, rfl⟩ | ⟨rfl, rfl, rfl, rfl⟩ | ⟨rfl, rfl, rfl, rfl⟩ | ⟨rfl, rfl, rfl, rfl⟩ | ⟨rfl, rfl, rfl, rfl⟩ := hform
  · exact sends_of_run h rfl rfl rfl rfl rfl fun o ho => (if_pos (hspc (by decide))).trans (hrun o ho)
  · exact sends_of_run h rfl rfl rfl rfl rfl fun o ho => (if_pos (hspc (by decide))).trans (hrun o ho)
  · exact sends_of_run h rfl rfl rfl rfl rfl fun o ho => (if_pos (hspc (by decide))).trans (hrun o ho)
  · exact sends_of_run h rfl rfl rfl rfl rfl fun o ho => (if_pos (hspc (by decide))).trans (hrun o ho)
  · exact sends_of_run h rfl rfl rfl rfl rfl hrun

/-- Settles O18: the global atomic of kind 2, and what the issue does to its lanes. -/
theorem loadReserved : Obligations.LoadReserved := by
  intro s f c0 c1 c ts t h halign hreach htype
  refine sends_of_run h rfl rfl rfl rfl rfl fun o ho => ?_
  have hatom : globalAtom c 2 rightRW false true = .out o := (globalAtom_eq halign hreach fun _ => htype).trans ho
  simp only [hatom]

/-! ### Atomics on a scratchpad, and pair updates -/

/-- With the checks of R131 passed, the lanes run one after another. -/
theorem padAtom_eq {c : Iss} {hasD : Bool} {new : Nat → Nat → Option Nat} (h : Claim.padClear c) :
    padAtom c hasD new = if hasD then putLoad c { s := (Claim.padRun c new).2 } c.size (Claim.padRun c new).1
      else .out { s := (Claim.padRun c new).2 } := by
  obtain ⟨halign, hpad, hclean, hsource⟩ := h
  have hpoison : c.act.filter (fun l => (scratchRead c.s (c.peer (if c.f.spc = 2 then c.f.qp13 else c.g.qgpos)) (c.padOff c.aOff l)
      c.size).2) = [] := by
    rw [List.all_map, List.all_eq_true] at hclean
    exact List.filter_eq_nil_iff.mpr fun l hl => by simpa using hclean l hl
  rw [List.map_map] at hpad hsource
  simp only [Function.comp_def] at hpad hsource
  simp only [padAtom, halign, hpad, hpoison, hsource, Option.orElse, Bool.false_eq_true, if_false]
  rfl

/-- Settles O19: the scratchpad forms run at once; STPAIR sends its pairs. -/
theorem scratchpadAtomicsAndPairs : Obligations.ScratchpadAtomicsAndPairs := by
  intro s i f c0 c1 c
  refine ⟨fun new hasD hform h hspc hclear => ?_, fun ts t h halign hreach htype => ?_⟩
  · obtain ⟨rfl, rfl, rfl⟩ | ⟨rfl, rfl, rfl⟩ | ⟨rfl, rfl, rfl⟩ | ⟨rfl, rfl, rfl⟩ := hform
    · exact ⟨fun _ => loads_of_putLoad h rfl rfl rfl rfl rfl ((if_neg hspc).trans (padAtom_eq hclear)), nofun⟩
    · exact ⟨fun _ => loads_of_putLoad h rfl rfl rfl rfl rfl ((if_neg hspc).trans (padAtom_eq hclear)), nofun⟩
    · exact ⟨nofun, fun _ => issue_next h rfl rfl rfl rfl rfl ((if_neg hspc).trans (padAtom_eq hclear))⟩
    · exact ⟨nofun, fun _ => issue_next h rfl rfl rfl rfl rfl ((if_neg hspc).trans (padAtom_eq hclear))⟩
  · refine sends_of_run h rfl rfl rfl rfl rfl fun o ho => ?_
    simp only [halign, withReach_of_reaches _ hreach, memTrap_of_types htype]
    exact ho

end Sys2Proof.Machine
end

section
/-!
Synchronisation (R155 to R163, R180 to R183, R278 to R288): fences, regions, acquire and release, barriers, record and replay modes,
and cache control.
-/

namespace Sys2Proof.Machine

open Sys2Proof

/-! ### Fences and regions -/

/-- A region that may be bound traps nothing (R159, R160). -/
theorem bindTrap_eq_none {c : Iss} {base size obj : Nat} (h : Claim.bindable c base size obj) : bindTrap c base size obj = none := by
  obtain ⟨hbase, hsize, hpos, hobj, hspace, hself, hmeets⟩ := h
  have hform : (base % 64 ≠ 0 || size % 64 ≠ 0 || size = 0 || obj % 64 ≠ 0 || 2 ^ 80 < base + size) = false := by
    simp only [hbase, hsize, hpos, hobj, not_lt.mpr hspace, ne_eq, not_true, decide_false, Bool.or_false]
  have hown : (base ≤ obj && obj < base + size) = false := by simpa using hself
  have hfind : (c.s.ctxView c.wg).validRegions.find? (fun (e : Nat × Region) =>
      overlaps base size e.2.base e.2.size || (base ≤ e.2.obj && e.2.obj < base + size) ||
      (e.2.base ≤ obj && obj < e.2.base + e.2.size)) = none :=
    List.find?_eq_none.mpr fun e he => by
      obtain ⟨hover, hin, hout⟩ := hmeets e he
      simp only [hover, Bool.or_eq_true, Bool.and_eq_true, decide_eq_true_eq, Bool.false_eq_true, false_or]
      exact not_or.mpr ⟨hin, hout⟩
  simp only [bindTrap, hform, hown, hfind, Bool.false_eq_true, if_false]

/-- Settles O20: FENCE past its first two steps, BIND of a region that may be bound, UNBIND. -/
theorem fencesAndBindings : Obligations.FencesAndBindings := by
  intro s f c0 c1 c
  refine ⟨fun u h hfence => issue_next h rfl rfl rfl rfl rfl (by simp only [hfence]), fun h hvalid => ?_, fun h => ?_⟩
  · intro base size obj hbind
    exact issue_next h rfl (if_neg (by simp [hvalid])) rfl rfl rfl (by
      have := bindTrap_eq_none hbind
      simp only [base, size, obj] at this
      simp only [this]; rfl)
  · exact issue_next h rfl rfl rfl rfl rfl rfl

/-! ### Acquire and release -/

/-- An object operand that passes its checks. -/
theorem withObject_eq {c : Iss} {r : Right} {t : TPart} {u : State} (k : Nat → TPart → State → Res) (h : Claim.objectAt c r t u) :
    withObject c r k = k (c.addr c.l0) t u := by
  obtain ⟨halign, haccess, hnamed, hclean⟩ := h
  have htrap : alignTrap [(c.l0, c.addr c.l0)] 64 = none := by simp [alignTrap, halign]
  simp only [withObject, htrap, withAccess_of_ok _ haccess, hnamed, hclean, Bool.not_true, Bool.false_eq_true, if_false]

theorem objectLine_eq {c : Iss} {t : TPart} {u : State} (k : State → Res)
    (h : u.wgDet c.wg = false → lineHeld u c.core t.pa c.wg c.w = false) : objectLine c u t k = k (ownLine u c.wg t.pa) := by
  have hheld : (!u.wgDet c.wg && lineHeld u c.core t.pa c.wg c.w) = false := by
    rw [Bool.and_eq_false_imp, Bool.not_eq_true']
    exact h
  simp only [objectLine, hheld, Bool.false_eq_true, if_false]

theorem acqDone_eq {c : Iss} {v : State} (seq : Nat) (h : wideScope c.f.sco = true → v.wgDet c.wg = false →
    writebackHeld v c.core (lineInPieces (boundPieces c v (c.addr c.l0))) = false) :
    acqDone c v (c.addr c.l0) seq = .out (Claim.acquired c v seq) := by
  have hheld : (wideScope c.f.sco && !v.wgDet c.wg && writebackHeld v c.core (lineInPieces (boundPieces c v (c.addr c.l0)))) = false := by
    rw [Bool.and_eq_false_imp, Bool.and_eq_true, Bool.not_eq_true']
    exact fun hdrops => h hdrops.1 hdrops.2
  simp only [acqDone, hheld, Bool.false_eq_true, if_false]
  rfl

/-- Settles O21: the object passes its checks, no hold keeps anything back, and SEQ is read, or added to. -/
theorem acquireAndRelease : Obligations.AcquireAndRelease := by
  intro s f c0 c1 c t u v seq ps
  refine ⟨fun h hobj hfree => ?_, fun h hobj hfree hge => ?_, fun h hobj hdet hpend hheld => ?_, fun x h hobj hdet hroom => ?_⟩
  · obtain ⟨hline, hdrops⟩ := hfree
    refine issue_next h rfl rfl rfl rfl rfl ?_
    simp only [withObject_eq _ hobj, objectLine_eq _ hline]
    exact acqDone_eq _ hdrops
  · obtain ⟨hline, hdrops⟩ := hfree
    refine issue_next h rfl rfl rfl rfl rfl ?_
    simp only [withObject_eq _ hobj, objectLine_eq _ hline]
    exact (if_pos hge).trans (acqDone_eq _ hdrops)
  · have hback : (wideScope c.f.sco && writebackHeld u c.core (inPieces ps)) = false := by
      rw [Bool.and_eq_false_imp]
      exact hheld
    simp only [ps] at hback
    intro x w
    refine ⟨fun hfrom hline => issue_next h rfl rfl rfl rfl rfl ?_, fun hkept => issue_next h rfl rfl rfl rfl rfl ?_⟩
    · simp only [x, ps] at hfrom hline
      simp only [withObject_eq _ hobj, hdet, hpend, hback, hfrom, hline, Bool.false_eq_true, if_false, Bool.or_false]
      rfl
    · have hkept' : (x.heldFrom t.pa 8 c.wg c.w || lineHeld x c.core t.pa c.wg c.w) = true := by rwa [Bool.or_eq_true]
      simp only [x, ps] at hkept'
      simp only [withObject_eq _ hobj, hdet, hpend, hback, hkept', Bool.false_eq_true, if_false, if_true]
      rfl
  · intro red
    exact issue_next h rfl rfl rfl rfl rfl (by simp only [withObject_eq _ hobj, hdet, if_true, withRoom_of_ok hroom]; rfl)

/-! ### Barriers -/

theorem barFails_eq_nil {c : Iss} {bad : Option Nat → Bool} (h : ∀ l ∈ c.act, bad (c.arrivedIn l) = false) : barFails c bad = [] := by
  rw [barFails, List.filter_eq_nil_iff.mpr fun l hl => by simp [h l hl]]

/-- Settles O22: lanes in order, past the steps of the fence, arrive, or go past. -/
theorem barrierInstructions : Obligations.BarrierInstructions := by
  intro s f c0 c1 c u
  refine ⟨fun h harr hfence => ?_, fun h harr hfence => ?_, fun h harr => ?_⟩
  · exact issue_nextThen h rfl (barFails_eq_nil fun l hl => by rw [harr l hl]; rfl) rfl rfl rfl (by simp only [hfence]; rfl)
  · exact issue_nextThen h rfl (barFails_eq_nil fun l hl => by rw [harr l hl]; rfl) rfl rfl rfl (by simp only [hfence])
  · intro stay go t hheld
    have hback : (go ≠ [] && wideScope c.f.sco && writebackHeld c.s c.core (fun _ => true)) = false := by
      rw [Bool.and_eq_false_imp, Bool.and_eq_true, decide_eq_true_eq]
      exact fun hgo => hheld hgo.1 hgo.2
    refine issue_nextThen h rfl (barFails_eq_nil fun l hl => ?_) rfl rfl rfl ?_
    · exact Option.isNone_eq_false_iff.mpr (Option.isSome_iff_ne_none.mpr (harr l hl))
    · exact if_neg (Bool.eq_false_iff.mp hback)

/-! ### Record and replay modes -/

/-- A header that finds its place is written. -/
theorem headerPut_eq {c : Iss} {u v : State} {va : Nat} {bs : List Byte} (k : State → Res) (h : Claim.HeaderWritten c u va bs v) :
    headerPut c u va bs k = k v := by
  obtain ⟨hplain, hlost, hdet⟩ := h
  unfold headerPut
  cases hd : u.wgDet c.wg with
  | false => rw [hplain hd]; rfl
  | true =>
    simp only [if_true]
    cases hpa : kettlePa u c.asid va with
    | none => rw [hlost hd hpa]
    | some pa =>
      obtain ⟨x, hroom, rfl⟩ := hdet hd pa hpa
      exact withRoom_of_ok hroom

/-- Entering a mode with the log in reach and its header set. -/
theorem rrEnter_eq {c : Iss} {rrm : Nat} {hdr : Nat → Nat × List Byte} {v : State}
    (hlog : logTrap c c.logVa (c.read c.f.c.toNat false c.l0) = none)
    (hput : let e := hdr (((logHeader (passGate c c.s) c.wg c.asid c.logVa).map (fun h => h.2.2)).getD 0)
      Claim.HeaderWritten c (passGate c c.s) (c.logVa + e.1) e.2 v) :
    rrEnter c rrm hdr = .out (Claim.entered c rrm v) := by
  simp only [rrEnter, hlog]
  exact headerPut_eq _ hput

theorem rrState_eq_nil {c : Iss} (hvalid : c.region.valid = true) (hsize : c.region.size ≤ 65536) : rrState c = [] := by
  simp [rrState, hvalid, hsize]

/-- Settles O23: a valid region enters or leaves a mode; ORDGATE answers by the region's mode and its log. -/
theorem recordAndReplayModes : Obligations.RecordAndReplayModes := by
  intro s f c0 c1 c u
  refine ⟨fun h hvalid => ?_, fun h hvalid hsize halign hlog v hput => ?_, fun h hvalid hsize halign hlog => ?_, fun lo hi h hlog => ?_⟩
  · exact issue_next h rfl (if_pos hvalid) rfl rfl rfl rfl
  · exact issue_next h rfl (rrState_eq_nil hvalid hsize) (if_neg (not_not.mpr halign)) rfl rfl
      (rrEnter_eq (hdr := fun _ => (0, zeros 20)) hlog hput)
  · intro stat v hput
    exact issue_next h rfl (rrState_eq_nil hvalid hsize) (if_neg (not_not.mpr halign)) rfl rfl
      (rrEnter_eq (hdr := fun stat => (8, zeros 8 ++ toLE 4 (setBits stat 1 1 0))) hlog hput)
  · refine issue_next h rfl rfl rfl rfl rfl ?_
    obtain ⟨hoff, rfl, rfl⟩ | ⟨hvalid, recn, playn, stat, hheader, hmode⟩ := hlog
    · exact if_pos (by simpa using hoff)
    · obtain ⟨hrec, ⟨rfl, rfl, rfl⟩ | ⟨hrecn, rfl, g, run, hchunk, rfl⟩⟩ |
          ⟨hoff, hrec, rfl, ⟨rfl, rfl⟩ | ⟨hplayn, g, run, hchunk, rfl⟩⟩ := hmode
      · simp [hvalid, hrec, hheader]
      · simp [hvalid, hrec, hheader, hrecn, hchunk]
      · simp [hvalid, hoff, hrec, hheader]
      · simp [hvalid, hoff, hrec, hheader, hplayn, hchunk]

/-! ### Cache control -/

/-- Lines that no hold keeps back are acted on. -/
theorem cacheOp_eq {c : Iss} (g : State → (Nat → Bool) → State)
    (h : writebackHeld c.s c.core (fun a => c.allB || lineInPieces (if c.allB then [] else c.pieces) a) = false) :
    cacheOp c g = .out { s := g c.s (fun a => c.allB || lineInPieces (if c.allB then [] else c.pieces) a) } := by
  simp only [cacheOp, h, Bool.false_eq_true, if_false]

/-- Settles O24: no hold keeps a write-back, and the share is set, or the lines are acted on. -/
theorem cacheControl : Obligations.CacheControl := by
  intro s f c0 c1 c inB
  refine ⟨fun h hways => ?_, fun h hheld => ?_, fun h hheld => ?_, fun h => ?_⟩
  · intro share hheld
    have hback : ((c.s.getCore c.core).share < share && writebackHeld c.s c.core (fun _ => true)) = false := by
      rw [Bool.and_eq_false_imp, decide_eq_true_eq]
      exact hheld
    have hlands := issue_lands (o := { s := setShare c.s c.core share }) (wide := false) (vals := c.act.map (fun l => (l, share))) h rfl
      (valueFails_eq_nil (by simp; omega)) (if_neg (Bool.eq_false_iff.mp hback)) rfl
    exact hlands
  · exact issue_next h rfl rfl rfl rfl rfl (cacheOp_eq (fun s inB => writeback s c.core inB) hheld)
  · exact issue_next h rfl rfl rfl rfl rfl (cacheOp_eq (fun s inB => dropLines s c.core inB) hheld)
  · exact issue_next h rfl rfl rfl rfl rfl rfl

end Sys2Proof.Machine
end

section
/-!
The matrix engine (R299 to R304, R314, R315): ownership, descriptors, declarations, scales, and tile operations, signed and not.
-/

namespace Sys2Proof.Machine

open Sys2Proof

/-! ### Ownership -/

/-- MXACQ's answer as it goes to D. -/
theorem acquire_of_owner {c : Iss} {o : Nat} (h : (c.s.mxOf c.wg).owner = some o) :
    acquire c = (o = c.wg && !(c.s.mxOf c.wg).held, c.s) := by
  simp only [acquire, h]

theorem acquire_of_free {c : Iss} {e : Nat} {t : State} (hfree : (c.s.mxOf c.wg).owner = none) (htake : takeEng c.s c.ctx 3 = some (e, t)) :
    acquire c = (true, Claim.newlyOwned c e t) := by
  simp only [acquire, hfree, htake]
  rfl

theorem acquire_of_no_context {c : Iss} (hfree : (c.s.mxOf c.wg).owner = none) (htake : takeEng c.s c.ctx 3 = none) :
    acquire c = (false, c.s) := by
  simp only [acquire, hfree, htake]

/-- MXACQ completes with what it finds. -/
theorem exec_mxacq {s : State} {f : Fields} {c0 c1 c : Iss} {x : Bool} {t : State} (h : Issues s (.mxacq f) c0 c1 c)
    (hx : acquire c = (x, t)) : exec (.mxacq f) s = .next (issued c (.mxacq f) false (Claim.acquired01 c t (b2n x))) :=
  issue_next h rfl rfl rfl rfl rfl (by simp only [hx]; rfl)

/-- The end of ownership (R300). -/
theorem engineRelease_parts {s : State} {core wg e : Nat} (howner : (s.getCore core).mx.owner = some wg)
    (hheld : (s.getCore core).mx.held = true) (hrun : (s.getCore core).mx.run = none) (hstaged : (s.getCore core).mx.staged = none)
    (heng : (s.getWg wg).eng = some e) :
    ∃ t, exec (.engineRelease core) s = .next t ∧
      (t.getCore core).mx = { (s.getCore core).mx with owner := none, held := false } ∧
      (t.getEng e).owner = none ∧ (t.getEng e).abase = (s.getEng e).count ∧ (t.getWg wg).eng = none := by
  have hrelease : releasable s core = true := by simp [releasable, hheld, hrun, hstaged]
  refine ⟨_, rfl, ?_⟩
  simp [hrelease, howner, heng]

/-- Settles O25: what MXACQ finds, MXREL, and the end of ownership. -/
theorem engineOwnership : Obligations.EngineOwnership := by
  intro s f c0 c1 c
  refine ⟨fun h => ⟨fun o ho => ?_, fun hfree => ⟨fun e t htake => ?_, fun htake => ?_⟩⟩, fun h => ?_, fun core wg e => engineRelease_parts⟩
  · have hb : b2n (o = c.wg && !(c.s.mxOf c.wg).held) = if o = c.wg ∧ (c.s.mxOf c.wg).held = false then 1 else 0 := by
      simp [b2n]
    rw [← hb]
    exact exec_mxacq h (acquire_of_owner ho)
  · exact (exec_mxacq h (acquire_of_free hfree htake) :)
  · exact (exec_mxacq h (acquire_of_no_context hfree htake) :)
  · exact issue_next h rfl rfl rfl rfl rfl rfl

/-! ### Descriptors, predicates and declarations -/

theorem maskRun_eq {c : Iss} {x : BitVec 256} (h : Claim.maskFree c) : maskRun c x = .out { s := Claim.withMask c x } := by
  unfold maskRun
  refine if_neg ?_
  rw [Iss.awaitsCmd, List.any_eq_true]
  rintro ⟨y, hy, hnames⟩
  split at hnames
  · rename_i fn f htile
    refine h y hy fn f htile ?_
    split at hnames
    · rw [if_pos ‹_›]; exact of_decide_eq_true hnames
    · rw [if_neg ‹_›]; exact of_decide_eq_true hnames
  · exact Bool.false_ne_true hnames

/-- Settles O26: no command names what is written. -/
theorem descriptorsAndDeclarations : Obligations.DescriptorsAndDeclarations := by
  intro s f c0 c1 c
  refine ⟨fun h hkind hfree => ?_, fun h hfree => ?_, fun h hfree => ?_, fun h hsgn hdecl => ?_⟩
  · exact issue_next h rfl rfl (if_neg (not_not.mpr hkind)) rfl rfl (if_neg (Bool.eq_false_iff.mp hfree))
  · exact issue_next h rfl rfl rfl rfl rfl (maskRun_eq hfree)
  · exact issue_next h rfl rfl rfl rfl rfl (maskRun_eq hfree)
  · exact issue_next h rfl (if_neg (not_not.mpr hsgn)) (valueFails_eq_nil (by simpa using hdecl)) rfl rfl rfl

/-! ### Scales -/

theorem ownFail_eq_nil {c : Iss} (h : c.owns = true) : ownFail c = [] := if_pos h

/-- Settles O27: the owner's instruction, with no command left that it waits for. -/
theorem scaleInstructions : Obligations.ScaleInstructions := by
  intro s f c0 c1 c
  refine ⟨fun h howns hfree => ?_, fun h howns hslot hpos hmax hfree => ?_⟩
  · have hwait : (c.bit23 && c.awaitsCmd isDrain) = false := by
      rw [Bool.and_eq_false_imp]
      exact hfree
    exact issue_lane h rfl (ownFail_eq_nil howns) rfl rfl rfl (if_neg (Bool.eq_false_iff.mp hwait))
  · intro r
    refine issue_next h rfl ?_ (valueFails_eq_nil ?_) rfl rfl (if_neg (Bool.eq_false_iff.mp hfree))
    · exact List.append_eq_nil_iff.mpr ⟨ownFail_eq_nil howns, hslot⟩
    · simp only [Bool.or_eq_false_iff, decide_eq_false_iff_not]
      omega

/-! ### Tile operations -/

/-- A command for a free place of the workgroup's own engine, once the fence's first steps are done (R165, R303). -/
theorem matrixIssue_of_free {c : Iss} {mk : Nat → Cmd} {eff : State → State} {draws e : Nat} {t : State}
    (hplace : enginePlace c.s c.wg = .free e) (hfence : fenceFirst c c.s 3 = .ok t) :
    matrixIssue c mk eff draws = .out (Claim.taken c t e (mk (t.getEng e).next) eff draws) := by
  simp only [matrixIssue, hplace, hfence]
  rfl

/-- A command of a held engine (R300). -/
theorem matrixIssue_of_held {c : Iss} {mk : Nat → Cmd} {eff : State → State} {draws e : Nat}
    (hplace : enginePlace c.s c.wg = .held e) :
    matrixIssue c mk eff draws = .out (Claim.heldBack c e (mk (c.s.getEng e).next)) := by
  simp only [matrixIssue, hplace]
  rfl

/-- An instruction that gives the matrix engine one command. -/
theorem commands_of_matrixIssue {s : State} {i : Instr} {c0 c1 c : Iss} {b : Body} {mk : Nat → Cmd} {eff : State → State} {draws : Nat}
    (h : Issues s i c0 c1 c) (he : exec i s = .next (issue i b s)) (hs : b.state c0 = []) (hv : b.vals c1 = []) (hd : b.draws c = 0)
    (hf : b.flagged = false) (hr : b.run c = matrixIssue c mk eff draws) : Claim.Commands s i c mk eff draws :=
  ⟨fun _ _ hplace hfence => issue_next h he hs hv hd hf (hr.trans (matrixIssue_of_free hplace hfence)),
    fun _ hplace => issue_next h he hs hv hd hf (hr.trans (matrixIssue_of_held hplace))⟩

/-- The twelve tile operations share one body. -/
theorem exec_tile {i : Instr} {fn : Nat} (h : Claim.tileFn i = some fn) (s : State) :
    exec i s = .next (issue i (tileBody i fn) s) := by
  cases i
  case tmma | tmmab | tact | tew | tred | ttrans | tscl | tcvt | tzero | taccld | taccst | tdrain =>
    obtain rfl := Option.some.inj h
    rfl
  all_goals exact absurd h nofun

/-- Settles O28: without SE, a tile operation gives the engine its command. -/
theorem tileOperations : Obligations.TileOperations := by
  intro s i fn c0 c1 c h hfn hroles hse
  obtain ⟨-, -, -, hf, -⟩ := h.same
  have hsign : signFails c0 = [] := by simp [signFails, hse]
  exact commands_of_matrixIssue h (exec_tile hfn s) (List.append_eq_nil_iff.mpr ⟨hroles, hsign⟩) rfl rfl rfl
    (if_neg (by rw [hf, hse]; exact Bool.false_ne_true))

/-! ### Signed tile operations -/

/-- A round that has room for its signers fails no check of R77. -/
theorem signFails_eq_nil {c : Iss} (hact : c.act ≠ []) (h : (c.g.sign c.f.sg).sgn + c.act.length ≤ (c.g.sign c.f.sg).decl) :
    signFails c = [] := by
  have hpos : 0 < c.act.length := List.length_pos_of_ne_nil hact
  refine if_neg ?_
  simp only [Bool.and_eq_true, Bool.or_eq_true, decide_eq_true_eq]
  omega

/-- What the first signer latches. -/
def freshLatch (c : Iss) (i : Instr) : Latch :=
  { instr := i, vals := [BitVec.ofNat 64 (tileArg c c.l0)], draw := (c.warp.lane c.l0).draw, gid := gidOf c.s c.wg c.w c.l0 }

/-- The signing register with the active lanes counted. -/
def countedSigners (c : Iss) (i : Instr) : SignReg :=
  let r := c.g.sign c.f.sg
  { r with
    sgn := r.sgn + c.act.length, latch := some (r.latch.getD (freshLatch c i))
    signers := r.signers ++ c.act.map (fun l => (c.w, l, c.f.d.toNat)) }

/-- The outcome of a signing in state `u`: the signers are counted, and wait (R77). -/
def signOut (c : Iss) (i : Instr) (fn : Nat) (u : State) : Out :=
  { s := (u.modWg c.wg (fun g => { g with g := g.g.put c.f.sg (countedSigners c i) })).modWarp c.wg c.w
      (fun w => w.park c.act (.signed c.f.sg) c.cur.npc 0)
    moves := c.act.map (fun l => (l, none)), least := parkedDue
    draws := if (c.g.sign c.f.sg).latch.isNone then tileDraws c fn else 0 }

section
variable {c : Iss} {i : Instr} (fn : Nat)
  (hagree : signMismatch c ((c.g.sign c.f.sg).latch.getD (freshLatch c i)) = none)
include hagree

/-- Signers that do not complete the round are counted. -/
theorem signRun_of_open (hopen : (c.g.sign c.f.sg).sgn + c.act.length ≠ (c.g.sign c.f.sg).decl) :
    signRun c i fn = .outThen (signOut c i fn c.s) id := by
  unfold freshLatch at hagree
  simp only [signRun, hagree, hopen, decide_false, Bool.false_and, Bool.false_eq_true, if_false]
  rfl

/-- Those that complete it issue the latched operation once their earlier accesses are performed (R80, R167). -/
theorem signRun_of_last {u : State} (hlast : (c.g.sign c.f.sg).sgn + c.act.length = (c.g.sign c.f.sg).decl)
    (hplace : enginePlace c.s c.wg ≠ .full) (hfence : fenceFirst c c.s 3 = .ok u) :
    signRun c i fn = .outThen (signOut c i fn u) (fun t => issueRound c i t) := by
  unfold freshLatch at hagree
  simp only [signRun, hagree, decide_eq_true hlast, hplace, hfence, decide_false, Bool.and_false, Bool.false_eq_true, if_false, if_true]
  rfl

end

/-- Settles O29: signers that agree with the latch and leave room are counted; those that complete the round issue it. -/
theorem signedTileOperations : Obligations.SignedTileOperations := by
  intro s i fn c0 c1 c u h hfn hroles hse hroom hsame r fresh latch hagree hfence q v o
  obtain ⟨-, -, hact, hf, -⟩ := h.same
  have hchecks : (tileBody i fn).state c0 = [] := List.append_eq_nil_iff.mpr ⟨hroles, signFails_eq_nil (hact ▸ h.act_ne_nil) hroom⟩
  have hse' : c.f.se = true := by rw [hf, hse]
  refine ⟨fun hopen => ?_, fun hlast hplace => ?_⟩
  · have hne : r.sgn + c.act.length ≠ r.decl := hopen.ne
    rw [if_neg hne] at hfence
    cases hfence
    exact issue_nextThen h (exec_tile hfn s) hchecks rfl rfl rfl ((if_pos hse').trans (signRun_of_open fn hagree hne))
  · rw [if_pos hlast] at hfence
    exact issue_nextThen h (exec_tile hfn s) hchecks rfl rfl rfl ((if_pos hse').trans (signRun_of_last fn hagree hlast hplace hfence))

end Sys2Proof.Machine
end

section
/-!
Commands of shared queues (R318 to R321), handles (R322 to R325), and the record instructions (R332 to R335, R342).
-/

namespace Sys2Proof.Machine

open Sys2Proof

/-! ### Queues -/

/-- A queue with a place for every lane takes its commands, the fence's first steps done (R167, R318). -/
theorem queueIssue_eq {c : Iss} {kind sco e : Nat} {t : State} {mk : State → Nat → Nat → Cmd × State} {now : Nat → Bool} {promise : Bool}
    (h : Claim.queueReady c kind sco e t) (hpromise : decide (kind ≤ 1) = promise) :
    queueIssue c kind sco mk now = .out (Claim.queued c e promise mk now t) := by
  subst hpromise
  obtain ⟨hqueue, hplaces, hfence⟩ := h
  simp only [queueIssue, hqueue, not_lt.mpr hplaces, hfence, if_false]
  rfl

/-- Settles O30: ranges inside S', a queue with places. -/
theorem queuedCommands : Obligations.QueuedCommands := by
  intro s f c0 c1 c e t
  refine ⟨fun h hready => ?_, fun h hready hfails => ?_, fun i hi h hready => ?_, fun h hone hready => ?_⟩
  · intro ss ds a b n hrange
    refine issue_next h rfl rfl rfl rfl rfl ?_
    simp only [ss, ds, a, b, n] at hrange
    simp only [hrange]
    exact queueIssue_eq hready rfl
  · have hrun : queueIssue c 0 6 (fun s num l => (c.laneCommand (.tcopyTile f) num l 0 0 0, s)) (fun _ => false) = _ :=
      queueIssue_eq hready rfl
    exact issue_next h rfl hfails rfl rfl rfl hrun
  · intro a k hrange
    have hrun : rowsRun c i = .out (Claim.queued c e true (fun s num l =>
        (c.laneCommand i num l (a l) (c.ea c.f.b.toNat (bitB c.f.immN 24) 0 l) (k l), s)) (fun _ => false) t) := by
      simp only [a, k] at hrange
      simp only [rowsRun, hrange]
      exact queueIssue_eq hready rfl
    obtain rfl | rfl := hi
    · exact issue_next h rfl rfl rfl rfl rfl hrun
    · exact issue_next h rfl rfl rfl rfl rfl hrun
  · have hrun : queueIssue c 2 7 (fun s num l =>
        let g := s.groups.get Group.init (collGroup c.f)
        ({ c.laneCommand (.tcoll f) num l (c.ea c.f.a.toNat false 0 l) (c.ea c.f.b.toNat false 0 l)
            (c.read c.f.c.toNat false l) with coll := g.k },
         { s with groups := s.groups.put (collGroup c.f) { g with k := g.k + 1 } })) (fun _ => false) = _ :=
      queueIssue_eq hready rfl
    exact issue_next h rfl rfl (if_pos hone) rfl rfl hrun

/-! ### Handles -/

/-- Completions that may be observed are (R168). -/
theorem observe_eq {c : Iss} {hs : List Nat} (k : State → Res) (h : Claim.observable c hs) :
    c.observe hs k = k (Claim.observed c hs) := by
  unfold Iss.observe Claim.observed
  by_cases hnull : hs.all (· = 0) = true
  · rw [if_pos hnull, if_pos hnull]
  · have hsome : ∃ h ∈ hs, h ≠ 0 := by simpa using hnull
    rw [if_neg hnull, if_neg hnull, h hsome]
    rfl

/-- The value that HSTAT lands in a lane (R325). -/
theorem hstat_value {c : Iss} {x : Nat} {l : Nat} (hstat : bitB c.f.immN 20 = false → x = statWord c.s c.ctx (c.handle l))
    (hpromise : bitB c.f.immN 20 = true → promiseOf c.s c.ctx (c.handle l) = some x ∨
      promiseOf c.s c.ctx (c.handle l) = none ∧ x = (if c.handle l ≠ 0 ∧ (c.s.getCtx c.ctx).compat = true then 2 ^ 64 - 1 else 0)) :
    (if bitB c.f.immN 20 then (promiseOf c.s c.ctx (c.handle l)).getD (if c.handle l = 0 then 0
      else if (c.s.getCtx c.ctx).compat then 2 ^ 64 - 1 else 0) else statWord c.s c.ctx (c.handle l)) = x := by
  cases hbit : bitB c.f.immN 20 with
  | false => exact (hstat hbit).symm
  | true =>
    obtain hsome | ⟨hnone, rfl⟩ := hpromise hbit
    · rw [hsome]; rfl
    · rw [hnone]
      by_cases hnull : c.handle l = 0 <;> simp [hnull]

/-- Settles O31: each on handles that may be used. -/
theorem handleInstructions : Obligations.HandleInstructions := by
  intro s f c0 c1 c hfault
  refine ⟨fun h hdone hobs => ?_, fun h hpend => ?_, fun h hobs => ?_, fun h => ?_, fun h => ?_, fun val h hstat hpromise => ?_⟩
  · have hall : c.act.all c.isDone = true := List.all_eq_true.mpr hdone
    refine issue_next h rfl rfl rfl rfl rfl ?_
    simp only [hfault, hall, if_true]
    exact observe_eq (fun t => .out { s := t }) hobs
  · have hall : c.act.all c.isDone = false := by simpa using hpend
    refine congrArg Host.Outcome.next (issue_other h rfl rfl ?_)
    simp only [hfault, hall, Bool.false_eq_true, if_false]
  · refine issue_next h rfl rfl rfl rfl rfl ?_
    simp only [hfault]
    exact observe_eq (fun t => .out { s := t, writes := destWrites c.warp c.f.d.toNat false (c.act.map (fun l => (l, b2n (c.isDone l)))) }) hobs
  · refine issue_next h rfl rfl rfl rfl rfl ?_
    simp only [hfault, Bool.or_eq_true, decide_eq_true_eq]
  · intro ls
    exact issue_next h rfl rfl rfl rfl rfl (by simp only [hfault]; rfl)
  · refine issue_next h rfl rfl rfl rfl rfl ?_
    simp only [hfault, fun l => hstat_value (fun hbit => hstat hbit l) (fun hbit => hpromise hbit l)]

/-! ### Record instructions -/

theorem logqValue_eq (r : RecState) (n : Nat) : logqValue r n = Claim.logValue r n := by
  unfold logqValue Claim.logValue
  rfl

/-- Settles O32: four commands of the engine, and LOGQ with none of its workgroup left on it. -/
theorem recordInstructions : Obligations.RecordInstructions := by
  intro s f c0 c1 c bv
  refine ⟨fun h hact halign hpos hmax hsize => ?_, fun h => ?_, fun h hmark => ?_, fun h hrev halign => ?_, fun h hrun hstaged => ?_⟩
  · refine commands_of_matrixIssue h rfl (if_neg (Bool.eq_false_iff.mp hact)) ?_ rfl rfl rfl
    have hcount : (bv = 0 || 2 ^ 24 < bv) = false := by
      rw [Bool.or_eq_false_iff, decide_eq_false_iff_not, decide_eq_false_iff_not]
      exact ⟨hpos.ne', not_lt.mpr hmax⟩
    have hroom : (c1.known c1.f.b.toNat && 256 * c1.read c1.f.c.toNat false c1.l0 < payOff bv + 256) = false := by
      rw [Bool.and_eq_false_imp, decide_eq_false_iff_not]
      exact fun _ => not_lt.mpr hsize
    exact List.append_eq_nil_iff.mpr ⟨List.append_eq_nil_iff.mpr ⟨if_neg (not_not.mpr halign), valueFails_eq_nil hcount⟩,
      valueFails_eq_nil hroom⟩
  · exact commands_of_matrixIssue h rfl rfl rfl rfl rfl rfl
  · exact commands_of_matrixIssue h rfl rfl (valueFails_eq_nil (decide_eq_false hmark)) rfl rfl rfl
  · exact commands_of_matrixIssue h rfl (if_neg (Bool.eq_false_iff.mp hrev))
      (valueFails_eq_nil (decide_eq_false (not_not.mpr halign))) rfl rfl rfl
  · have hbusy : ((c.s.mxOf c.wg).run.map (·.cmd.wg) = some c.wg || (c.s.mxOf c.wg).staged.map (·.wg) = some c.wg) = false := by
      simp only [Bool.or_eq_false_iff, decide_eq_false_iff_not, Option.map_eq_some_iff, not_exists, not_and]
      exact ⟨hrun, hstaged⟩
    refine issue_next h rfl rfl rfl rfl rfl ((if_neg (Bool.eq_false_iff.mp hbusy)).trans ?_)
    simp only [logqValue_eq]

end Sys2Proof.Machine
end

section
/-!
System registers, traps and their return (R350 to R352).
-/

namespace Sys2Proof.Machine

open Sys2Proof

/-! ### System registers -/

theorem sysReg_eq (c : Iss) (n : Nat) : sysReg c n = Claim.systemRegister c n := by
  simp only [sysReg, Claim.systemRegister, b2n, Bool.and_eq_true, decide_eq_true_eq]

/-- A register of the engine is read by its owner (R91). -/
theorem ownedReg_checks_eq_nil {c : Iss} {n : Nat} (h : 0x100 ≤ n → n < 0x208 → c.owns = true) :
    (if ownedReg n then ownFail c else []) = [] := by
  by_cases hreg : ownedReg n = true
  · rw [if_pos hreg]
    simp only [ownedReg, Bool.and_eq_true, decide_eq_true_eq] at hreg
    exact ownFail_eq_nil (h hreg.1 hreg.2)
  · exact if_neg hreg

/-- Settles O33: each form of MTS sets what it names, and MFS lands the table's value. -/
theorem systemRegisters : Obligations.SystemRegisters := by
  intro s f c0 c1 c
  refine ⟨fun h hown => ?_, fun h => issue_next h rfl rfl rfl rfl rfl rfl, fun h => issue_next h rfl rfl rfl rfl rfl rfl,
    fun h => issue_next h rfl rfl rfl rfl rfl rfl, fun h => issue_next h rfl rfl rfl rfl rfl rfl, fun _ => ⟨rfl, rfl⟩,
    fun h hown hidle => issue_next h rfl (ownFail_eq_nil hown) rfl rfl rfl (if_neg (Bool.eq_false_iff.mp hidle)),
    fun h hown => issue_next h rfl (ownFail_eq_nil hown) rfl rfl rfl rfl⟩
  have hrun := issue_lane h rfl (ownedReg_checks_eq_nil hown) rfl rfl rfl rfl
  simp only [sysReg_eq] at hrun
  exact hrun

/-! ### Traps and their return -/

/-- ERET with its frame read, once nothing of R54 is left to do: the lanes go to the frame's RPC, and the warp leaves mode S. -/
def resumed (c : Iss) (fr : List Byte) (u : State × Nat) : Res :=
  .outThen { s := u.1, moves := (lanesOf c.entry.mask).map (fun l => (l, some (leAt fr 0x10 10))), awaits := u.2 }
    (fun s => s.modWarp c.wg c.w leaveS)

section
variable {s t : State} {f : Fields} {c0 c1 c : Iss} {ts : List TPart}

theorem exec_eret {fr : List Byte} {u : State × Nat} (h : Issues s (.eret f) c0 c1 c) (hfails : eretFails c0 = [])
    (hread : c.access c.s rightR false ((lineParts c.warp.tfbase 2304).map (fun p => { p with lane := c.l0 })) = .ok ts t)
    (hrun : eretRun c ts t = resumed c fr u) : exec (.eret f) s = .next (Claim.returned c fr u) := by
  obtain rfl : f = c.f := Option.some.inj h.fields
  exact issue_nextThen h rfl hfails rfl rfl rfl ((withAccess_of_ok (eretRun c) hread).trans hrun)

/-- The warp after the registers of its frame have gone back (R430). -/
def frameRestored (c : Iss) (r : List Byte × List (Nat × Nat) × State) : State :=
  r.2.2.modWarp c.wg c.w (fun x => restoreFrame x r.1 (fun off => r.2.1.any (fun e => e.1 ≤ off && off < e.1 + e.2)))

/-- The lanes of the frame that need a spill or a fill (R54). -/
def windowLanes (c : Iss) (fr : List Byte) : List Nat := lanesOf (BitVec.ofNat 32 (leAt fr 0x2C 4) &&& c.warp.trapLanes)

variable (hcls : c.warp.tcause.toNat / 256 ≠ 7) (hstart : isStart c.s c.wg false (leAt (Claim.frameOf c ts t).1 0x10 10) = true)
include hcls hstart

/-- ERET with a good RPC (R431): the registers go back, and then the spill or fill of R54 where the trap asked for one. -/
theorem eretRun_eq : eretRun c ts t =
    (let r := Claim.frameOf c ts t
     let u := frameRestored c r
     if !decide (c.warp.tcause.toNat / 256 = 4) || decide (windowLanes c r.1 = []) then resumed c r.1 (u, 0)
     else if c.warp.tcause.toNat % 256 = 2 then
       withAccess c u rightR false (windowParts c.warp true (windowLanes c r.1)) (fun xs v =>
         resumed c r.1 (xs.foldl (fun s x => fillLane s c.wg c.w c.core x) v, 0))
     else
       withAccess c u rightW false (windowParts c.warp false (windowLanes c r.1)) (fun xs v => withRoom c v xs 0 (fun x =>
         resumed c r.1 (xs.foldl (fun (a : State × Nat) y =>
           let q := spillLane a.1 c.wg c.w c.core y
           (q.1, a.2 + q.2)) (x, 0))))) := by
  unfold eretRun
  refine (if_neg hcls).trans ((if_neg ?_).trans rfl)
  rw [Bool.not_eq_true', Bool.not_eq_false]
  exact hstart

end

/-- Settles O34: TRAP's own part is the trap, and ERET's the return with what R54 asks for. -/
theorem trapsAndReturns : Obligations.TrapsAndReturns := by
  intro s f c0 c1 c ts t
  refine ⟨fun h => congrArg Host.Outcome.next (issue_trap h rfl rfl rfl), fun h hfails hread => ?_⟩
  intro r u fill need hcls hstart
  have hrun := eretRun_eq hcls hstart
  refine ⟨fun hnone => ?_, fun xs v hwin hneed hfill hacc => ?_, fun xs v x hwin hneed hfill hacc hroom => ?_⟩
  · refine exec_eret h hfails hread (hrun.trans (if_pos ?_))
    rw [Bool.or_eq_true, Bool.not_eq_true', decide_eq_false_iff_not, decide_eq_true_eq]
    exact hnone
  · refine exec_eret h hfails hread (hrun.trans ((if_neg ?_).trans ((if_pos hfill).trans (withAccess_of_ok _ hacc))))
    simpa using ⟨hwin, hneed⟩
  · refine exec_eret h hfails hread (hrun.trans ((if_neg ?_).trans ((if_neg hfill).trans ((withAccess_of_ok _ hacc).trans ?_))))
    · simpa using ⟨hwin, hneed⟩
    · exact withRoom_of_ok hroom

end Sys2Proof.Machine
end

section
/-!
Events of one warp (R45, R88, R228, R280, R324, R456, R475, R498, R503).
-/

namespace Sys2Proof.Machine

open Sys2Proof

theorem exec_sleepWake {s : State} {wg w wake : Nat} (h : wake ≤ s.now) : exec (.sleepWake wg w wake) s =
    .next (s.setWarp wg w ((s.getWarp wg w).releaseLanes
      ((s.getWarp wg w).heldLanes.filter (Claim.wakesAt (s.getWarp wg w) (fun k => k = .sleep) wake)))) := by
  refine congrArg Host.Outcome.next ((if_neg (not_lt.mpr h)).trans ?_)
  rw [State.modWarp_eq]
  congr 3
  funext l
  unfold Claim.wakesAt
  cases ((s.getWarp wg w).lane l).hold with
  | none => rfl
  | some p => rfl

/-! ### The end of HSLEEP -/

theorem hsleeping_of_sleepsOn {x : Warp} {reg wake l : Nat} (h : Claim.sleepsOn x reg wake l) : hsleeping x wake l = some reg := by
  obtain ⟨p, hhold, hkind, rfl⟩ := h
  simp only [hsleeping, hhold, hkind, if_true]

/-- The lanes of a group are some of those grouped, and there is one. -/
theorem headD_mem_of_mem_lateGroups {x : Warp} {ls g : List Nat} (h : g ∈ lateGroups x ls) : g.headD 0 ∈ ls := by
  obtain ⟨p, hp, rfl⟩ := List.mem_map.mp h
  obtain ⟨l, hl, hpc⟩ := List.mem_map.mp (List.mem_dedup.mp hp)
  cases hg : ls.filter (fun l => decide ((x.lane l).hold.map (·.rpc) = p)) with
  | nil => exact absurd hpc (by simpa using List.filter_eq_nil_iff.mp hg l hl)
  | cons a as =>
    have ha : a ∈ ls.filter (fun l => decide ((x.lane l).hold.map (·.rpc) = p)) := hg ▸ List.mem_cons_self
    exact (List.mem_filter.mp ha).1

/-- The report of a group of lanes that came too late (R503). -/
def lateReport (z : Warp) (h : Nat → Nat) (wake : Nat) (g : List Nat) : Report :=
  z.newReport 0x906 (h (g.headD 0)) wake (laneSet g) (laneSet g) (laneSet g)

theorem foldl_report (h : Nat → Nat) (wake : Nat) (gs : List (List Nat)) (y : Warp) :
    gs.foldl (fun y g => y.report (lateReport y h wake g)) y = { y with reports := y.reports ++ gs.map (lateReport y h wake) } := by
  induction gs generalizing y with
  | nil => simp
  | cons g gs ih =>
    rw [List.foldl_cons, ih, List.map_cons, ← List.singleton_append, ← List.append_assoc]
    rfl

/-- What the end of a sleep does, once it is known which lanes came too late (R324, R503). -/
def hsleepEnds (s : State) (wg w wake : Nat) (ls late : List Nat) (h : Nat → Nat) (observes : Bool) : State :=
  let core := (s.getWg wg).core
  if observes && writebackHeld s core (fun _ => true) then sendWritebacks s core (fun _ => true) else
  (if observes then dropAll s core else s).modWarp wg w (fun y =>
    (lateGroups (s.getWarp wg w) late).foldl (fun y g => y.report (lateReport y h wake g)) (y.releaseLanes ls))

section
variable {s : State} {wg w wake reg : Nat} {ls : List Nat} (hwake : wake ≤ s.now)
  (hls : (s.getWarp wg w).heldLanes.filter (fun l => (hsleeping (s.getWarp wg w) wake l).isSome) = ls)
  (hreg : ∀ l ∈ ls, Claim.sleepsOn (s.getWarp wg w) reg wake l)
include hwake hls hreg

/-- HSLEEP_WAKE where the lanes sleep on one register, and either all their commands are complete or none is. -/
theorem exec_hsleepWake {late : List Nat} {observes : Bool}
    (hlate : ls.filter (fun l => decide (handleState s (s.wgCtx wg) ((s.getWarp wg w).getH l reg).toNat ≠ .complete)) = late)
    (hobs : ls.any (fun l => !late.contains l && decide (((s.getWarp wg w).getH l reg).toNat ≠ 0)) = observes) :
    exec (.hsleepWake wg w wake) s =
      .next (hsleepEnds s wg w wake ls late (fun l => ((s.getWarp wg w).getH l reg).toNat) observes) := by
  have hkey : ∀ l ∈ ls, (hsleeping (s.getWarp wg w) wake l).getD 0 = reg := fun l hl => by
    rw [hsleeping_of_sleepsOn (hreg l hl)]
    rfl
  have hlate' : ls.filter (fun l => decide (handleState s (s.wgCtx wg)
      ((s.getWarp wg w).getH l ((hsleeping (s.getWarp wg w) wake l).getD 0)).toNat ≠ .complete)) = late :=
    hlate ▸ List.filter_congr fun l hl => by rw [hkey l hl]
  have hobs' : ls.any (fun l => !late.contains l &&
      decide (((s.getWarp wg w).getH l ((hsleeping (s.getWarp wg w) wake l).getD 0)).toNat ≠ 0)) = observes := by
    rw [← hobs, Bool.eq_iff_iff, List.any_eq_true, List.any_eq_true]
    exact exists_congr fun l => and_congr_right fun hl => by rw [hkey l hl]
  have hsub : ∀ g ∈ lateGroups (s.getWarp wg w) late, (hsleeping (s.getWarp wg w) wake (g.headD 0)).getD 0 = reg := fun g hg =>
    hkey _ (List.mem_of_mem_filter (hlate ▸ headD_mem_of_mem_lateGroups hg))
  refine congrArg Host.Outcome.next ((if_neg (not_lt.mpr hwake)).trans ?_)
  simp only [hls, hlate', hobs', hsleepEnds]
  congr 2
  funext y
  exact List.foldl_ext _ _ _ fun y g hg => by rw [lateReport, hsub g hg]

end

/-! ### Traps of reports -/

theorem deliverReport_eq {s : State} {wg w : Nat} {p : Report → Bool} {r : Report} {e : Entry}
    (hr : nextReport (s.getWarp wg w) p = some r) (he : reportEntry (s.getWarp wg w) r = some e) (howes : (s.getWarp wg w).owes = false) :
    deliverReport s wg w p = Claim.trappedBy s wg w r e := by
  simp only [deliverReport, hr, he, howes, Bool.false_eq_true, if_false]
  rfl

/-- Settles O36: each event in turn. -/
theorem warpEvents : Obligations.WarpEvents := by
  intro s wg w x
  refine ⟨fun idx b hb => ?_, fun pc => ?_, fun wake => exec_sleepWake, fun wake reg ls hwake hls hreg => ?_, ⟨_, rfl, fun e he => ?_⟩,
    ⟨_, rfl, fun e he => ?_⟩, fun r e hr he howes => congrArg _ (deliverReport_eq hr he howes), fun r e hheir hr he howes => ?_⟩
  · refine congrArg Host.Outcome.next ?_
    rw [State.modWarp_eq, hb]
  · refine congrArg Host.Outcome.next ?_
    simp only [State.modWarp_eq, Warp.modEntry, ite_and, x]
  · intro h done core
    have hend := @exec_hsleepWake s wg w wake reg ls hwake hls hreg
    refine ⟨fun hdone hnull => ?_, fun hdone hsome => ?_, fun hnone => ?_⟩
    · refine (hend (List.filter_eq_nil_iff.mpr fun l hl => by simpa using hdone l hl)
        (List.any_eq_false.mpr fun l hl => by simpa using hnull l hl)).trans rfl
    · obtain ⟨l, hl, hne⟩ := hsome
      refine (hend (List.filter_eq_nil_iff.mpr fun l hl => by simpa using hdone l hl)
        (List.any_eq_true.mpr ⟨l, hl, by simpa using hne⟩)).trans rfl
    · have hlate := List.filter_eq_self.mpr fun l hl => decide_eq_true (hnone l hl)
      refine (hend hlate (List.any_eq_false.mpr fun l hl => by simp [hl])).trans (congrArg Host.Outcome.next ?_)
      simp only [hsleepEnds, foldl_report, Bool.false_and, Bool.false_eq_true, if_false]
      rfl
  · simp only [State.modWarp_eq, State.getWarp_setWarp_same] at he
    obtain ⟨d, hd, rfl⟩ := List.mem_map.mp he
    refine ⟨d, hd, ?_⟩
    by_cases hseq : seqChanged s wg d = true <;> simp only [hseq, if_true, if_false, Bool.false_eq_true]
  · simp only [State.modWarp_eq, State.getWarp_setWarp_same] at he
    obtain ⟨d, hd, rfl⟩ := List.mem_map.mp he
    refine ⟨d, hd, fun a c hwait hnow hlt => ?_, fun hopen => ?_⟩
    · simp only [hwait, hnow, hlt, decide_true, Bool.and_true, if_true]
    · cases hwait : d.wait with
      | remote a c =>
        refine if_neg ?_
        have := hopen a c hwait
        simp only [Bool.and_eq_true, decide_eq_true_eq]
        omega
      | _ => rfl
  · have hexec : exec (.reportedTrapDelivery wg w) s = .next (deliverReport s wg w (fun r => !isOrphan r)) := by
      refine congrArg Host.Outcome.next ?_
      rw [hheir]
    rw [hexec, deliverReport_eq hr he howes]

end Sys2Proof.Machine
end

section
/-!
Events of the memory system and of the engines (R141, R148, R149, R277, R302, R305, R318, R321, R388, R389, R475, R478, R484).
-/

namespace Sys2Proof.Machine

open Sys2Proof

/-! ### The memory system -/

theorem exec_tlbiAcknowledge {s : State} {v : Inval} (hinvals : s.invals = [v]) (hhi : v.hi = 0) :
    exec (.tlbiAcknowledge v.wg v.warp) s = .next (deliverWait { s with invals := [] } v.wg v.warp v.idx 0 id) := by
  have hswept : s.invals.filter (fun u => u.wg = v.wg && u.warp = v.warp && u.hi ≠ 0) = [] := by
    simp [hinvals, hhi]
  have hready : ackReady s v.wg v.warp = some v := by
    simp [ackReady, hinvals, hhi]
  refine congrArg Host.Outcome.next ?_
  simp only [hswept, List.foldl_nil, hready]
  simp only [hinvals, List.erase_cons_head]

/-- The end of a walk with none of its page under way changes nothing. -/
theorem exec_pageWalkComplete_of_none {s : State} {asid va : Nat}
    (h : ∀ v ∈ s.walks, ¬ (v.asid = asid ∧ v.va / 65536 = va / 65536)) : exec (.pageWalkComplete asid va) s = .next s := by
  have hmine : s.walks.filter (fun v => v.asid = asid && v.va / 65536 = va / 65536) = [] :=
    List.filter_eq_nil_iff.mpr fun v hv => by simpa using h v hv
  have hrest : s.walks.filter (fun v => !(v.asid = asid && v.va / 65536 = va / 65536)) = s.walks :=
    List.filter_eq_self.mpr fun v hv => by simpa [-not_and, not_and_or] using h v hv
  refine congrArg Host.Outcome.next ?_
  simp only [hmine, hrest, List.foldl_nil]

/-- The one walk of a page ends. -/
theorem exec_pageWalkComplete_of_one {s : State} {v : Walk} {ws : List Walk} (hwalks : s.walks = v :: ws)
    (h : ∀ x ∈ ws, ¬ (x.asid = v.asid ∧ x.va / 65536 = v.va / 65536)) :
    exec (.pageWalkComplete v.asid v.va) s = .next (prefetchLine { s with walks := ws } v.core v.asid v.va v.hint v.modeS) := by
  have hmine : s.walks.filter (fun x => x.asid = v.asid && x.va / 65536 = v.va / 65536) = [v] := by
    rw [hwalks, List.filter_cons_of_pos (by simp), List.filter_eq_nil_iff.mpr fun x hx => by simpa using h x hx]
  have hrest : s.walks.filter (fun x => !(x.asid = v.asid && x.va / 65536 = v.va / 65536)) = ws := by
    rw [hwalks, List.filter_cons_of_neg (by simp), List.filter_eq_self.mpr fun x hx => by simpa [-not_and, not_and_or] using h x hx]
  refine congrArg Host.Outcome.next ?_
  simp only [hmine, hrest, List.foldl_cons, List.foldl_nil]

/-- The requests that one launch has at the gate of a region go (R484). -/
def ungated (s : State) (ctx n lslot : Nat) : State :=
  { s with atomQ := s.atomQ.filter (fun p => !(p.ctx = ctx && p.region = some n && (s.getWg p.wg).lslot = lslot)) }

/-- A replay that diverges ends the launch of the first request at its gate. -/
theorem exec_replayDivergence {s : State} {ctx n : Nat} {q : AtomReq} (hdiv : diverged s ctx n = true)
    (hhead : (atGate s ctx n).head? = some q) : exec (.replayDivergence ctx n) s =
      .next (failLaunch (ungated s ctx n (s.getWg q.wg).lslot) (s.getWg q.wg).lslot
        { wgErr (ungated s ctx n (s.getWg q.wg).lslot) q.wg 0x0A 6 3 3 with
          addr := ((s.getCtx ctx).regions.get Region.init n).base
          detail := ((kettleRead s (s.getCtx ctx).asid (((s.getCtx ctx).regions.get Region.init n).log + 8) 8).map ofLE).getD 0 % 2 ^ 32 }) := by
  refine congrArg Host.Outcome.next ?_
  simp only [hdiv, hhead, Bool.not_true, Bool.false_eq_true, if_false]
  rfl

/-- Settles O37: each event of the memory system in turn. -/
theorem memoryEvents : Obligations.MemoryEvents := by
  intro s
  refine ⟨fun _ _ _ => rfl, fun _ _ => exec_pageWalkComplete_of_none, fun _ _ => exec_pageWalkComplete_of_one, ?tlbi, fun i q hq hready => ?atomic,
    fun _ => rfl, fun ctx n q hdiv hhead => ?diverged, fun _ _ => rfl, fun q hrun hwaits => congrArg Host.Outcome.next ?remote,
    fun q c hhold => congrArg Host.Outcome.next ?busy, fun wg w hsome halive => congrArg _ (if_neg ?warp), fun e howner => congrArg _ (if_neg ?engine),
    fun core line hdie => congrArg _ (if_neg hdie), fun pa hhbm hpkg => congrArg _ (if_pos ?memory),
    fun wg w lane pos hsome halive => congrArg _ (if_pos ?register), fun wg off hsome halive => congrArg _ (if_pos ?scratch),
    fun core n => ⟨_, rfl, ?accum⟩⟩
  case tlbi =>
    rintro _ _ v hinvals rfl rfl hhi
    exact exec_tlbiAcknowledge hinvals hhi
  case atomic =>
    refine congrArg Host.Outcome.next ?_
    simp only [hq, hready, Bool.not_true, Bool.false_eq_true, if_false]
  case diverged =>
    refine ⟨_, _, exec_replayDivergence hdiv hhead, rfl, rfl, rfl, fun p hp => ?_⟩
    obtain ⟨hmem, hkept⟩ := List.mem_filter.mp hp
    exact ⟨hmem, by simpa [-not_and, not_and_or, or_assoc] using hkept⟩
  case remote => simp only [hrun, hwaits, Bool.false_eq_true, if_false]
  case busy => simp only [hhold]
  case warp => simp [hsome, halive]
  case engine => simpa using howner
  case memory => simp [hhbm, hpkg]
  case register => simp [hsome, halive]
  case scratch => simp [hsome, halive]
  case accum =>
    rw [softErr, State.modCore_eq, State.getCore_setCore_same]

/-! ### The engines -/

section
variable {s : State} {core : Nat} {cmd : Cmd} {fn : Nat} {f : Fields}

/-- A tile command that has nothing to log is on the engine, before its first step. -/
theorem beginRun_tile (hlog : cmd.log = false) (htile : tileOf cmd.instr = some (fn, f)) :
    (beginRun s core cmd).cores = (setRun s core (some
      { cmd := cmd, step := 0, total := (descOf cmd.fmt cmd.dd).tiles, stepDue := s.now + stepCycles cmd, xf := 0, corr := false
        code := 0 })).cores := by
  have hcmd : { cmd with log := false } = cmd := by rw [← hlog]
  simp only [beginRun, hlog, htile, hcmd, Bool.false_eq_true, if_false]
  split <;> rfl

theorem startCommand_eq (hcancel : cmd.cancel = false) :
    startCommand s core cmd = beginRun (s.modCore core (fun c => { c with mx := { c.mx with staged := none } })) core cmd :=
  if_neg (Bool.eq_false_iff.mp hcancel)

theorem exec_infuserCommandStart (hstaged : (s.getCore core).mx.staged = some cmd) (hready : infuserReady s core = true) :
    exec (.infuserCommandStart core) s = .next (startCommand s core cmd) := by
  refine congrArg Host.Outcome.next ?_
  simp only [hstaged, hready, if_true]

/-- The engine of a core after a tile command has started. -/
theorem mx_startCommand (hcancel : cmd.cancel = false) (hlog : cmd.log = false) (htile : tileOf cmd.instr = some (fn, f)) :
    ((startCommand s core cmd).getCore core).mx = { (s.getCore core).mx with
      staged := none, upsets := []
      run := some { cmd := cmd, step := 0, total := (descOf cmd.fmt cmd.dd).tiles, stepDue := s.now + stepCycles cmd, xf := 0
                    corr := false, code := 0 } } := by
  rw [startCommand_eq hcancel, State.getCore, beginRun_tile hlog htile]
  simp [setRun]

/-- The step of the command that runs is due (R305). -/
theorem exec_nativeStepComplete {r : RunCmd} (hrun : (s.getCore core).mx.run = some r) (hdue : r.stepDue ≤ s.now)
    (hpark : r.stepDue < parkedDue) : exec (.nativeStepComplete core) s = .next (runStep s core r) := by
  have hready : stepReady s core = true := by simp [stepReady, hrun, hdue]
  refine congrArg Host.Outcome.next ?_
  simp only [hrun, hready, not_le.mpr hpark, Bool.not_true, Bool.false_eq_true, if_false]

/-- A paused command is cancelled (R323, R439). -/
theorem exec_nativeStepComplete_of_cancel {r : RunCmd} (hrun : (s.getCore core).mx.run = some r) (hcancel : r.cmd.cancel = true)
    (hpark : parkedDue ≤ r.stepDue) : exec (.nativeStepComplete core) s = .next (endPaused s core r) := by
  have hready : stepReady s core = true := by simp [stepReady, hrun, hcancel, hpark]
  refine congrArg Host.Outcome.next ?_
  simp only [hrun, hready, hpark, Bool.not_true, Bool.false_eq_true, if_false, if_true]

theorem runStep_of_clear {r : RunCmd} (hcode : r.code = 0) (hlog : r.cmd.log = false) (htile : tileOf r.cmd.instr = some (fn, f)) :
    runStep s core r = tileOpStep s core r fn f := by
  simp only [runStep, hcode, hlog, htile, ne_eq, not_true, Bool.false_eq_true, if_false]

theorem runStep_reverse {r : RunCmd} (hcode : r.code = 0) (hlog : r.cmd.log = false) (hinstr : r.cmd.instr = .reverse f) :
    runStep s core r = reverseStep s core r := by
  have htile : tileOf (.reverse f) = none := rfl
  simp only [runStep, hcode, hlog, hinstr, htile, ne_eq, not_true, Bool.false_eq_true, if_false]

theorem endPaused_of_ne_reverse {r : RunCmd} (h : ∀ f, r.cmd.instr ≠ .reverse f) : endPaused s core r = endRun s core r 1 := by
  unfold endPaused
  split
  next f hinstr => exact absurd hinstr (h f)
  next => rfl

theorem endPaused_reverse {r : RunCmd} (hinstr : r.cmd.instr = .reverse f) (h : (endReverse s r.cmd 0 .done).fin ≠ some .wait) :
    endPaused s core r = endRun (endReverse s r.cmd 0 .done).s core r 1 := by
  simp only [endPaused, hinstr, h, if_false]

/-! ### Queues and collectives -/

theorem exec_engineCommandCompletion {e : Nat} {rest : List Cmd} (hqueue : (s.getEng e).queue = cmd :: rest)
    (hdue : headDue s (s.getEng e) = true) : exec (.engineCommandCompletion e) s = .next (completeTransfer s e cmd) := by
  refine congrArg Host.Outcome.next ?_
  simp only [hqueue, hdue, if_true]

theorem completeTransfer_of_cancel {e : Nat} (hcancel : cmd.cancel = true) (hbegun : cmd.begun = false) :
    completeTransfer s e cmd = popHead s e cmd 1 := by
  simp only [completeTransfer, hcancel, hbegun, Bool.not_false, Bool.and_true, if_true]

theorem completeTransfer_of_done {e : Nat} (hcancel : cmd.cancel = false) (hfin : (transfer s cmd (fun _ => true)).fin = .done) :
    completeTransfer s e cmd = popHead (transfer s cmd (fun _ => true)).s e cmd 0 := by
  simp only [completeTransfer, hcancel, hfin, Bool.false_and, Bool.false_eq_true, if_false]

end

/-- Settles O38: each event of the engines in turn. -/
theorem engineEvents : Obligations.EngineEvents := by
  intro s core
  refine ⟨fun cmd hstaged hready => exec_infuserCommandStart hstaged hready, fun cmd fn f t hstaged hready hcancel hlog htile ht => ?started,
    fun r hrun hdue hpark hcode hlog => ?step, fun r hrun hcancel hpark => ?paused, fun e cmd rest hqueue hdue => ?queue,
    fun g remote e cmd own t hcoll hmember hstart hparts hall hread f hinstr => ?collective⟩
  case started =>
    obtain rfl := Host.Outcome.next.inj ((exec_infuserCommandStart hstaged hready).symm.trans ht)
    rw [mx_startCommand hcancel hlog htile]
    exact ⟨rfl, _, rfl, rfl, rfl, rfl, rfl, rfl, rfl⟩
  case step => exact ⟨exec_nativeStepComplete hrun hdue hpark, fun fn f => runStep_of_clear hcode hlog, fun f => runStep_reverse hcode hlog⟩
  case paused =>
    rw [exec_nativeStepComplete_of_cancel hrun hcancel hpark]
    exact ⟨fun h => congrArg _ (endPaused_of_ne_reverse h), fun f hinstr h => congrArg _ (endPaused_reverse hinstr h)⟩
  case queue =>
    rw [exec_engineCommandCompletion hqueue hdue]
    exact ⟨fun hcancel hbegun => congrArg _ (completeTransfer_of_cancel hcancel hbegun),
      fun hcancel hfin => congrArg _ (completeTransfer_of_done hcancel hfin)⟩
  case collective =>
    intro srcs o hfin
    have hcancel : (cmd.cancel && !cmd.begun) = false := by
      obtain h | h := hstart <;> simp [h]
    have hagree : (!(groupMembers s g).contains s.pkgid || remote.any (fun p => (groupMembers s g).length ≤ p.rank ||
        p.op ≠ bits f.immN 25 3 || p.count ≠ cmd.c || p.members ≠ groupMembers s g)) = false := by
      rw [hmember, Bool.not_true, Bool.false_or, List.any_eq_false]
      intro p hp
      obtain ⟨hrank, hop, hcount, hmembers⟩ := hparts f hinstr p hp
      simp [hop, hcount, hmembers, hrank]
    have hpresent : (List.range (groupMembers s g).length).all (fun r =>
        (groupMembers s g)[r]? = some s.pkgid || remote.any (fun p => p.rank = r)) = true := by
      rw [List.all_eq_true]
      intro r hr
      simpa using hall r (List.mem_range.mp hr)
    refine congrArg Host.Outcome.next ?_
    simp only [o, srcs] at hfin ⊢
    simp only [hcoll, hinstr, hcancel, hagree, hpresent, hread, hfin, Bool.not_true, Bool.false_eq_true, if_false]

end Sys2Proof.Machine
end

section
/-!
Bindings, launches and cores (R18, R37, R60 to R62, R175 to R177, R357, R365 to R368, R373, R462, R506, R514, R518).
-/

namespace Sys2Proof.Machine

open Sys2Proof

/-! ### Bindings -/

/-- A workgroup on its core belongs to its unit. -/
theorem mem_unitOf {s : State} {k : Nat} (hsome : (s.wgs.find? k).isSome = true) (halive : (s.getWg k).alive = true) :
    k ∈ unitOf s k Wg.alive := by
  obtain ⟨g, hg⟩ := Option.isSome_iff_exists.mp hsome
  have hget : s.getWg k = g := by simp [State.getWg, Sparse.get, hg]
  refine List.mem_map.mpr ⟨(k, g), List.mem_filter.mpr ⟨Sparse.mem_of_find? _ hg, ?_⟩, rfl⟩
  simp [hget, hget ▸ halive]

section
variable {s : State} {core : Nat} {b : Bind}

theorem exec_bindCreate (h : Claim.bindAt s core 0 b) (hready : createReady s b = true) :
    exec (.bindCreate core) s = .next ((groupBinds s b).foldl (fun t x => createWg (popBind t x) x) s) := by
  obtain ⟨hfirst, hkind⟩ := h
  refine congrArg Host.Outcome.next ?_
  simp only [hfirst, hkind, hready, decide_true, Bool.and_true, if_true]

theorem exec_bindResume (h : Claim.bindAt s core 1 b) (hready : resumeReady s b = true)
    (hgood : ∀ x ∈ groupBinds s b, (checkedImage s (wgKey x.lslot x.wg)).isSome = true) :
    exec (.bindResume core) s = .next ((groupBinds s b).foldl (fun t x =>
      resumeWg t x ((checkedImage t (wgKey x.lslot x.wg)).getD [])) ((groupBinds s b).foldl popBind s)) := by
  obtain ⟨hfirst, hkind⟩ := h
  have hbad : (groupBinds s b).filter (fun x => (checkedImage s (wgKey x.lslot x.wg)).isNone) = [] :=
    List.filter_eq_nil_iff.mpr fun x hx => by
      rw [Option.isNone_iff_eq_none]
      exact Option.isSome_iff_ne_none.mp (hgood x hx)
  refine congrArg Host.Outcome.next ?_
  simp only [hfirst, hkind, hready, hbad, ne_eq, not_true, decide_true, Bool.and_true, if_true, if_false]

theorem exec_yieldRequest (h : Claim.bindAt s core 2 b) (hasks : yieldAsks s b = true) : exec (.yieldRequest core) s =
    .next (if yieldOver s b then popBind s b else (unitOf s (wgKey b.lslot b.wg) Wg.alive).foldl askYield s) := by
  obtain ⟨hfirst, hkind⟩ := h
  refine congrArg Host.Outcome.next ?_
  simp only [hfirst, hkind, hasks, decide_true, Bool.and_true, if_true]

theorem exec_bindWithdrawCore (h : Claim.bindAt s core 3 b) :
    exec (.bindWithdrawCore core) s = .next ((popBind s b).modCore core (fun c => { c with withdrawn := true })) := by
  obtain ⟨hfirst, hkind⟩ := h
  refine congrArg Host.Outcome.next ?_
  simp only [hfirst, hkind, if_true]

theorem exec_bindReturnCore (h : Claim.bindAt s core 4 b) :
    exec (.bindReturnCore core) s = .next ((popBind s b).modCore core (fun c => { c with withdrawn := false })) := by
  obtain ⟨hfirst, hkind⟩ := h
  refine congrArg Host.Outcome.next ?_
  simp only [hfirst, hkind, if_true]

end

/-- Settles O39: each bind record, the two budgets, the save and the retirement. -/
theorem bindingEvents : Obligations.BindingEvents := by
  intro s core b
  refine ⟨exec_bindCreate, exec_bindResume, fun h => ?yield, fun h => ⟨_, exec_bindWithdrawCore h, ?withdraw⟩,
    fun h => ⟨_, exec_bindReturnCore h, ?returned⟩, fun wg hdue hswap => ?overdue, fun wg hdue => ?second, fun wg rs hready => ?save,
    fun wg hsome hready => ?retire⟩
  case yield =>
    intro k
    refine ⟨fun hready hsome halive hphase => ?_, fun hnone => ?_⟩
    · have hover : yieldOver s b = false := by simp only [yieldOver]; simp only [k] at hsome halive; simp [hsome, halive]
      have hasks : yieldAsks s b = true := by
        simp only [yieldAsks, hready, Bool.true_and, Bool.or_eq_true, List.any_eq_true]
        exact .inr ⟨k, mem_unitOf hsome halive, decide_eq_true hphase⟩
      rw [exec_yieldRequest h hasks, hover]
      rfl
    · have hover : yieldOver s b = true := by simp only [yieldOver]; simp only [k] at hnone; simp [hnone]
      have hasks : yieldAsks s b = true := by simp only [yieldAsks, hover, Bool.true_or]
      rw [exec_yieldRequest h hasks, hover]
      rfl
  case withdraw => rw [State.modCore_eq, State.getCore_setCore_same]
  case returned => rw [State.modCore_eq, State.getCore_setCore_same]
  case overdue => exact congrArg Host.Outcome.next ((if_neg (by simp [hdue])).trans (if_neg (Bool.eq_false_iff.mp hswap)))
  case second =>
    refine congrArg Host.Outcome.next ?_
    simp only [hdue, Bool.not_true, Bool.false_eq_true, if_false]
  case save =>
    intro ks hroom
    simp only [ks] at hroom
    refine congrArg Host.Outcome.next ?_
    simp only [hready, hroom, Bool.not_true, Bool.false_eq_true, if_false]
    rfl
  case retire =>
    intro g t u v
    refine congrArg Host.Outcome.next ((if_neg ?_).trans rfl)
    simp [hsome, hready]

/-! ### Launches -/

/-- Settles O40: a record enters the table, a step of placement, the end of a launch, and the merges. -/
theorem launchEvents : Obligations.LaunchEvents := by
  intro s
  refine ⟨fun ctx queue q qs lslot hqueue hslot => ?take, fun lslot ms hcheck hlid hswap hplan => ?place,
    fun lslot hdone hfailing hreason hfailed => ?finish, fun wg hready hwait hgone => ?merge, fun wg t hready hrun => ?full⟩
  case take =>
    intro t u
    refine congrArg Host.Outcome.next ?_
    simp only [hqueue, hslot]
    rfl
  case place =>
    refine congrArg Host.Outcome.next ?_
    simp only [hcheck, hlid, hswap, hplan, Bool.false_eq_true, if_false]
  case finish =>
    intro l t
    refine congrArg Host.Outcome.next ?_
    simp only [hdone, hfailing, hreason, hfailed, ne_eq, not_true, decide_false, Bool.not_true, Bool.or_false, Bool.false_eq_true, if_false,
      show ¬ (2 : Nat) = 3 by decide]
    rfl
  case merge =>
    intro u lslot hdirect
    have hgo : ((lastHeader s wg).fin = .wait || (lastHeader s wg).fin = .code 1) = false := by simp [hwait, hgone]
    refine ⟨fun t hrun => ?_, fun r hrun => ?_⟩ <;>
    · refine congrArg Host.Outcome.next ?_
      simp only [u] at hdirect hrun
      simp only [hready, hgo, hdirect, hrun, Bool.not_true, Bool.false_eq_true, if_false]
      rfl
  case full =>
    refine congrArg Host.Outcome.next ?_
    simp only [hready, hrun, Bool.not_true, Bool.false_eq_true, if_false]

/-! ### Cores and counts -/

/-- The members that a commit adds are marked for their scans; nothing else of the map changes. -/
theorem foldl_modCore_map (ps : List Nat) (f : Core → Core) (s : State) : ∃ cs,
    ps.foldl (fun s p => s.modCore p f) s = { s with cores := cs } := by
  induction ps generalizing s with
  | nil => exact ⟨s.cores, rfl⟩
  | cons p ps ih =>
    obtain ⟨cs, hcs⟩ := ih (s.modCore p f)
    exact ⟨cs, hcs.trans rfl⟩

/-- A commit of the image in MAPBUF has begun (R518). -/
def mapBegun (s : State) : State :=
  { s with mapStat := 1, mapNew := BitVec.ofNat 320 (leAt (mapImage s) 0 40), mapEpoch := leAt (mapImage s) 0x28 8
           mapScan := coresOfMask (BitVec.ofNat 320 (leAt (mapImage s) 0 40) &&& ~~~s.mask) }

theorem exec_mapCommit {s : State} (hstat : s.mapStat ≠ 1) (hheld : s.held = false)
    (hsign : Config.lmsVerify (policy 0x1E0 32) ((mapImage s).take 64) ((mapImage s).drop 64) = true)
    (hzero : zeroAt (mapImage s) 0x38 8 = true) (hunit : leAt (mapImage s) 0x30 8 = puid) (hepoch : s.epoch < leAt (mapImage s) 0x28 8) :
    exec .mapCommit s = .next ((mapBegun s).mapScan.foldl
      (fun s p => s.modCore p (fun c => { c with scan := { c.scan with why := 3 } })) (mapBegun s)) := by
  have hbusy : (s.mapStat = 1 || s.held) = false := by simp [hstat, hheld]
  have hgood : (!Config.lmsVerify (policy 0x1E0 32) ((mapImage s).take 64) ((mapImage s).drop 64) || !zeroAt (mapImage s) 0x38 8) = false := by
    rw [hsign, hzero]
    rfl
  exact congrArg Host.Outcome.next ((if_neg (Bool.eq_false_iff.mp hbusy)).trans ((if_neg (Bool.eq_false_iff.mp hgood)).trans
    ((if_neg (not_not.mpr hunit)).trans (if_neg (not_le.mpr hepoch)))))

theorem scanAbortNow_of_scanning {s : State} {p : Nat} (h : (s.getCore p).scan.state = 1) : scanAbortNow s p =
    s.modCore p (fun c => coreAfterScan c { c.scan with state := 4, ended := s.now }) := by
  have hscan : scanning s p = true := (scanning_iff s p).mpr h
  simp only [scanAbortNow, hscan, Bool.not_true, Bool.false_eq_true, if_false]

/-- Settles O41: renumbering, scans, the map, the registers of the hub and the counts. -/
theorem coreEvents : Obligations.CoreEvents := by
  intro s core
  refine ⟨fun u d hready hnext => ?drain, fun d hready hnext => ?retire, fun hover => congrArg _ (if_pos hover), fun hover hnext => ?scan,
    fun hscan => ?abort, fun hstat hheld hsign hzero hunit hepoch => ?commit, fun hready hscan hdrain => ?apply, fun p hready hscan => ?first,
    fun off data hlo hhi => congrArg _ (if_pos ?mapbuf), fun k v hlo hhi hthr hwin => congrArg _ (if_pos ?count),
    fun v hbit => congrArg _ (if_pos hbit), fun k n hlo hhi => congrArg _ (if_pos ?kind), fun k n e he hover => ?window⟩
  case drain =>
    refine congrArg Host.Outcome.next ?_
    simp only [hready, hnext, Bool.not_true, Bool.false_eq_true, if_false]
  case retire =>
    refine congrArg Host.Outcome.next ?_
    simp only [hready, hnext, Bool.not_true, Bool.false_eq_true, if_false]
  case scan =>
    refine congrArg Host.Outcome.next ?_
    simp only [hover, hnext, Bool.false_eq_true, if_false]
  case abort =>
    refine ⟨_, congrArg Host.Outcome.next (scanAbortNow_of_scanning hscan), ?_⟩
    rw [State.modCore_eq, State.getCore_setCore_same]
    exact ⟨rfl, rfl, rfl, rfl⟩
  case commit =>
    obtain ⟨cs, hcs⟩ := foldl_modCore_map (mapBegun s).mapScan (fun c => { c with scan := { c.scan with why := 3 } }) (mapBegun s)
    rw [exec_mapCommit hstat hheld hsign hzero hunit hepoch, hcs]
    exact ⟨_, rfl, by simp only [mapBegun], by simp only [mapBegun], by simp only [mapBegun]⟩
  case apply =>
    refine congrArg Host.Outcome.next ?_
    simp only [hready, hscan, hdrain, Option.bind_none, Bool.not_true, Bool.false_eq_true, if_false]
  case first =>
    refine congrArg Host.Outcome.next ?_
    simp only [hready, hscan, Bool.not_true, Bool.false_eq_true, if_false]
  case mapbuf => simp [hlo, hhi]
  case count => simp [hlo, hhi, hthr, hwin]
  case kind => simp [hlo, hhi]
  case window =>
    refine congrArg Host.Outcome.next ?_
    simp only [he, hover, if_true]

end Sys2Proof.Machine
end

section
/-!
Requests of a session, and the management registers (R171, R321, R379 to R386, R520).
-/

namespace Sys2Proof.Machine

open Sys2Proof

/-! ### Frames in turn -/

section
variable {s t : State} {fr : Frame} {x : Session} {q : Machine.Shape} {act : Session → State → Answer}

/-- A frame in turn, of the type asked for and well formed, is applied with the answer that its own part gives (R382, R383). -/
theorem onFrame_of_inTurn {n : Nat} {bs : List Byte} (h : Claim.inTurn s fr x q.ftype q.owned) (hgood : q.good = true)
    (hact : act x (Claim.heard s x) = (n, bs, t)) : onFrame fr q act s = Claim.applied t fr x q.rtype n bs := by
  obtain ⟨haccept, htype, hseq, hzero, hctx, howner⟩ := h
  have hform : (!fr.zeroOk || !q.good) = false := by rw [hzero, hgood]; rfl
  have howned : (q.owned && decide ((Claim.heard s x).owner ≠ some x.slot)) = false := by
    rw [Bool.and_eq_false_imp, decide_eq_false_iff_not, not_not]
    exact howner
  rw [onFrame, haccept]
  exact (if_neg (not_not.mpr htype)).trans ((if_pos hseq).trans
    (congrArg (fun r : Answer => respond (countApplied r.2.2 x.id) x fr q.rtype r.1 r.2.1)
      ((if_neg (Bool.eq_false_iff.mp hform)).trans ((if_neg (not_not.mpr hctx)).trans
        ((if_neg (Bool.eq_false_iff.mp howned)).trans hact)))))

/-- A malformed frame consumes its SEQ (R383). -/
theorem onFrame_malformed (haccept : acceptFrame s fr = some x) (hseq : fr.seq = x.e) (htype : fr.ftype = q.ftype)
    (hbad : fr.zeroOk = false ∨ q.good = false) (hrtype : q.rtype = 0) :
    onFrame fr q act s = Claim.applied { Claim.heard s x with free := (Claim.heard s x).free + 1 } fr x 0 4 [] := by
  have hbad' : (!fr.zeroOk || !q.good) = true := by simpa using hbad
  simp only [onFrame, haccept, htype, hseq, hbad', hrtype, ne_eq, not_true, if_true, if_false]
  rfl

end

/-! ### The parts of the requests -/

section
variable {u : State} {fr : Frame} {x : Session}

theorem hostWrite_eq {ts : List TPart} (hparts : hostParts u (u.getCtx x.ctx).asid fr.addr fr.payload.length rightW = some ts)
    (hobj : meetsObject (u.getCtx x.ctx) fr.addr fr.payload.length = false) : hostWrite fr x u =
    (0, [], ts.foldl (fun s t => l2Write s t.pa ((fr.payload.drop (t.part.va - fr.addr)).take t.part.n)) u) := by
  simp only [hostWrite, hparts, hobj, Bool.false_eq_true, if_false]

theorem hostRead_eq {ts : List TPart} (hparts : hostParts u (u.getCtx x.ctx).asid fr.addr (readLength fr) rightR = some ts) :
    hostRead fr x u = (if ts.any (fun t => (List.range t.part.n).any (fun i => blockPoison u (t.pa + i))) then 6 else 0,
      ts.flatMap (fun t => (List.range t.part.n).map (fun i => Claim.hostByte u (t.pa + i))), u) := by
  simp only [hostRead, hparts]
  rfl

theorem hostRelease_eq {t : TPart} (halign : fr.addr % 64 = 0) (hparts : hostParts u (u.getCtx x.ctx).asid fr.addr 8 rightW = some [t])
    (hclean : blockPoison u t.pa = false) (hobj : fr.addr ≠ (u.getCtx x.ctx).loadObj) :
    hostRelease fr x u = (0, [], l2Write u t.pa (toLE 8 (memNat u t.pa 8 + 1))) := by
  simp only [hostRelease, halign, hparts, hclean, hobj, ne_eq, not_true, Bool.false_eq_true, if_false]

theorem hostLaunch_of_lt (h : ((u.getCtx x.ctx).queues.get [] 0).length < 256) : hostLaunch fr x u =
    (0, [], ({ u with nextLid := u.nextLid + 1, lids := u.lids.put u.nextLid (x.ctx, 0) } : State).modCtx x.ctx (fun c =>
      { c with queues := c.queues.put 0 ((u.getCtx x.ctx).queues.get [] 0 ++
        [{ lid := u.nextLid, bytes := fr.payload, host := true, owner := true, prio := 0 }]) })) := by
  simp only [hostLaunch, enqueueLaunch_of_lt fr.payload true true 0 h]

theorem hostLaunch_of_full (h : 256 ≤ ((u.getCtx x.ctx).queues.get [] 0).length) : hostLaunch fr x u = (2, [], u) := by
  simp only [hostLaunch, enqueueLaunch_of_full fr.payload true true 0 h]

theorem closeAct_eq (h : leAt fr.payload 0 1 ≤ 1) : closeAct fr x u =
    (0, [], sendAck (closeSession (if leAt fr.payload 0 1 = 1 ∧ u.owner = some x.slot then endContext u x.ctx else u) x)
      { x with e := (x.e + 1) % 2 ^ 32 }) := by
  have hbit : bitB (leAt fr.payload 0 1) 0 = decide (leAt fr.payload 0 1 = 1) := by
    obtain h | h : leAt fr.payload 0 1 = 0 ∨ leAt fr.payload 0 1 = 1 := by omega
    · rw [h]; rfl
    · rw [h]; rfl
  simp only [closeAct, hbit, Bool.and_eq_true, decide_eq_true_eq]

end

/-- Settles O42: each request is in turn and its own part has one answer. -/
theorem hostRequests : Obligations.HostRequests := by
  intro s fr x u
  refine ⟨fun ts h hpos hmax hfree hparts hobj => ?write, fun ts h hlen hpos hmax hfree hparts => ?read,
    fun t h hlen hfree halign hparts hclean hobj => ?release, fun h hlen haddr => ?launch, fun haccept hseq hbad => ?malformed,
    fun id hsess hdue => ?ack, fun h hlen => ?claim, fun h hlen hslot => ?handover, fun h hlen hmax => ?close⟩
  case write =>
    refine congrArg Host.Outcome.next ((if_neg (Bool.eq_false_iff.mp hfree)).trans ?_)
    exact onFrame_of_inTurn h (by simp [hpos, hmax]) (hostWrite_eq hparts hobj)
  case read =>
    refine congrArg Host.Outcome.next ((if_neg (Bool.eq_false_iff.mp hfree)).trans ?_)
    exact onFrame_of_inTurn h (by simp [hlen, hpos, hmax]) (hostRead_eq hparts)
  case release =>
    refine congrArg Host.Outcome.next ((if_neg (Bool.eq_false_iff.mp hfree)).trans ?_)
    exact onFrame_of_inTurn h (by simp [hlen]) (hostRelease_eq halign hparts hclean hobj)
  case launch =>
    intro q new t
    refine ⟨fun hroom => congrArg Host.Outcome.next ?_, fun hfull => congrArg Host.Outcome.next ?_⟩
    · exact onFrame_of_inTurn h (by simp [hlen]) (hostLaunch_of_lt hroom)
    · exact onFrame_of_inTurn h (by simp [hlen]) (hostLaunch_of_full hfull)
  case malformed =>
    refine congrArg Host.Outcome.next ((if_neg ?_).trans (onFrame_malformed haccept hseq rfl (.inr rfl) rfl))
    obtain h | h := hbad <;> simp [h]
  case ack =>
    refine congrArg Host.Outcome.next ?_
    simp only [hsess, hdue, if_true]
  case claim =>
    refine ⟨fun howner => ?_, fun howner hdone => ?_, fun howner hdone => ?_⟩
    · refine congrArg Host.Outcome.next (onFrame_of_inTurn h (by simp [hlen]) (if_pos ?_))
      exact Option.isSome_iff_ne_none.mpr howner
    · have hnone : u.owner.isSome = false := Option.isSome_eq_false_iff.mpr (Option.isNone_iff_eq_none.mpr howner)
      exact congrArg Host.Outcome.next (onFrame_of_inTurn h (by simp [hlen])
        ((if_neg (Bool.eq_false_iff.mp hnone)).trans (if_pos hdone)))
    · have hnone : u.owner.isSome = false := Option.isSome_eq_false_iff.mpr (Option.isNone_iff_eq_none.mpr howner)
      exact congrArg Host.Outcome.next (onFrame_of_inTurn h (by simp [hlen])
        ((if_neg (Bool.eq_false_iff.mp hnone)).trans (if_neg (Bool.eq_false_iff.mp hdone))))
  case handover => exact congrArg Host.Outcome.next (onFrame_of_inTurn h (by simp [hlen]) (if_pos hslot))
  case close => exact congrArg Host.Outcome.next (onFrame_of_inTurn h (by simp [hlen, hmax]) (closeAct_eq hmax))

/-! ### Management registers -/

theorem groupWord_eq {g w : Nat} (hg : g < 256) (hw : w ≤ 1024) : groupWord (0x10000 + 8192 * g + 4 * w) = some (g, w) := by
  have hlisted : (0x10000 ≤ 0x10000 + 8192 * g + 4 * w && 0x10000 + 8192 * g + 4 * w < 0x10000 + 8192 * 256 &&
      (0x10000 + 8192 * g + 4 * w) % 4 = 0) = true := by
    simp only [Bool.and_eq_true, decide_eq_true_eq]
    omega
  have hword : (0x10000 + 8192 * g + 4 * w - 0x10000) % 8192 / 4 = w := by omega
  have hgroup : (0x10000 + 8192 * g + 4 * w - 0x10000) / 8192 = g := by omega
  simp only [groupWord, hlisted, hword, hgroup, hw, if_true]

section
variable {u : State}

theorem mgmtReadAct_eq {fr : Frame} {v : Nat} (h : mgmtReg u fr.addr = some v) : mgmtReadAct fr u = (0, toLE 4 v, u) := by
  simp only [mgmtReadAct, h]

theorem mgmtWriteAct_eq {fr : Frame} {t : State} (h : mgmtEffect u fr.addr (mgmtValue fr) = some t) : mgmtWriteAct fr u = mgmtDone t := by
  simp only [mgmtWriteAct, h]

theorem mgmtWriteAct_of_none {fr : Frame} (h : mgmtEffect u fr.addr (mgmtValue fr) = none) :
    mgmtWriteAct fr u = (4, failPayload u 0x12, { u with free := u.free + 1 }) := by
  simp only [mgmtWriteAct, h]

theorem mgmtEffect_ipaddr {i : Nat} (v : Nat) (hi : i < 4) : mgmtEffect u (0x20 + 4 * i) v =
    some { u with ipaddr := (List.range 16).map (fun k => if k / 4 = i then bits v (24 - 8 * (k % 4)) 8 else u.ipaddr.getD k 0) } := by
  have hlisted : (0x20 ≤ 0x20 + 4 * i && 0x20 + 4 * i < 0x30 && (0x20 + 4 * i) % 4 = 0) = true := by
    simp only [Bool.and_eq_true, decide_eq_true_eq]
    omega
  have hword : (0x20 + 4 * i - 0x20) / 4 = i := by omega
  rw [mgmtEffect, if_neg (by omega), if_neg (by omega), if_pos hlisted, hword]

theorem mgmtEffect_readOnly {off : Nat} (v : Nat) (h : off ∈ [0, 4, 8, 0x14, 0x18]) : mgmtEffect u off v = some u := by
  simp only [List.mem_cons, List.not_mem_nil, or_false] at h
  obtain rfl | rfl | rfl | rfl | rfl := h <;> rfl

theorem mgmtEffect_group {g w : Nat} (v : Nat) (hg : g < 256) (hw : w ≤ 1024) :
    mgmtEffect u (0x10000 + 8192 * g + 4 * w) v = some (writeGroup g w v u) := by
  have hother : ¬ (0x20 ≤ 0x10000 + 8192 * g + 4 * w && 0x10000 + 8192 * g + 4 * w < 0x30 &&
      (0x10000 + 8192 * g + 4 * w) % 4 = 0) = true := by
    simp only [Bool.and_eq_true, decide_eq_true_eq]
    omega
  rw [mgmtEffect, if_neg (by omega), if_neg (by omega), if_neg hother, if_neg (by omega), groupWord_eq hg hw]

/-- What is not listed cannot be written: every offset with an effect has a value. -/
theorem mgmtEffect_of_unlisted {off : Nat} (v : Nat) (h : mgmtReg u off = none) : mgmtEffect u off v = none := by
  have hreg := h
  unfold mgmtReg at h
  split_ifs at h with _ _ _ hpkg hpod _ _ hip hctl
  have hgroup : groupWord off = none := Option.map_eq_none_iff.mp h
  rw [mgmtEffect, if_neg hpkg, if_neg hpod, if_neg hip, if_neg hctl, hgroup, hreg]
  rfl

end

/-- Settles O43: a read answers the register, and a write what its ADDR names. -/
theorem managementRequests : Obligations.ManagementRequests := by
  intro s fr x u
  refine ⟨fun v h hlen hword hreg => ?read, fun i hi h hlen => ?write⟩
  case read =>
    exact congrArg Host.Outcome.next (onFrame_of_inTurn h (by simp [mgmtReadShape, hlen, hword])
      (mgmtReadAct_eq hreg))
  case write =>
    intro v
    have hexec : exec i s = .next (onFrame fr (mgmtWriteShape fr) (fun _ s => mgmtWriteAct fr s) s) := by
      simp only [List.mem_cons, List.not_mem_nil, or_false] at hi
      obtain rfl | rfl | rfl | rfl | rfl := hi <;> rfl
    have hgood : (mgmtWriteShape fr).good = true := by simp [mgmtWriteShape, hlen]
    have hdone : ∀ t, mgmtEffect u fr.addr v = some t → exec i s = .next (Claim.mgmtAnswered t fr x) := fun t ht =>
      hexec.trans (congrArg Host.Outcome.next (onFrame_of_inTurn h hgood (mgmtWriteAct_eq ht)))
    refine ⟨fun i' hi' haddr => hdone _ (haddr ▸ mgmtEffect_ipaddr v hi'), fun haddr => hdone _ (haddr ▸ rfl), fun haddr => hdone _ (haddr ▸ rfl),
      fun haddr => hdone _ (haddr ▸ rfl), fun haddr => hdone _ (mgmtEffect_readOnly v haddr), fun g w hg hw haddr => ?_, fun hnone => ?_⟩
    · intro y z t
      exact hdone _ (haddr ▸ mgmtEffect_group v hg hw)
    · exact hexec.trans (congrArg Host.Outcome.next
        (onFrame_of_inTurn h hgood (mgmtWriteAct_of_none (mgmtEffect_of_unlisted v hnone))))

end Sys2Proof.Machine
end

section
/-!
The host port, sessions and ownership (R378, R379, R519 to R521), and the load requests of a context (R393 to R399, R406).
-/

namespace Sys2Proof.Machine

open Sys2Proof

/-! ### The host port -/

section
variable {s : State} {peer kind : Nat} {pk : Packet}

theorem sendPacket_of_answers (hopen : s.open_ = true) (hanswers : answersOn s pk.dst = true) (hext : pk.ext = false)
    (hsize : pk.size ≤ 9216) : sendPacket s peer pk kind =
      sendFrame s { src := pk.dst, peer := peer, ftype := kind, ctx := 0, sess := 0, seq := 0, ack := 0, stat := 0
                    payload := toLE 16 pk.dst } :=
  if_pos (by simp [hopen, hanswers, hext, hsize])

theorem sendPacket_of_not (h : answersOn s pk.dst = false ∨ pk.ext = true ∨ 9216 < pk.size) : sendPacket s peer pk kind = s := by
  refine if_neg ?_
  obtain h | h | h := h <;> simp [h]

end

/-! ### Handshakes -/

section
variable {s : State} {fr : Frame}

/-- HELLO is answered: the attestation index advances, and the handshake stands (R519, R523). -/
def challenged (s : State) (fr : Frame) : State :=
  { nextIndex s with
    nonces := s.nonces + 1
    handshakes := { peer := fr.peer, slot := helloSlot fr, ctx := helloCtx fr, create := helloCreate fr, hostNonce := helloNonce fr
                    devNonce := Config.deviceNonce s.nonces, key := helloKey fr, since := s.now } ::
      s.handshakes.filter (fun x => x.peer ≠ fr.peer) }

theorem exec_hello (htaken : taken0 s fr 0x20 = true) (hok : helloOk fr = true) (hkey : s.nv.attKey = true)
    (hslot : allZero (slotHash (helloSlot fr)) = false) (hhash : Config.sha256 (helloKey fr) = slotHash (helloSlot fr)) :
    exec (.hello fr) s = .next (answer0 (challenged s fr) fr 0x21 0 (Config.deviceNonce s.nonces ++
      Config.lmsSign s.nv.attIndex (attested (nextIndex s) (helloNonce fr) (Config.deviceNonce s.nonces)))) := by
  have hknown : (allZero (slotHash (helloSlot fr)) || decide (Config.sha256 (helloKey fr) ≠ slotHash (helloSlot fr))) = false := by
    simp [hslot, hhash]
  exact congrArg Host.Outcome.next ((if_neg (by simp [htaken])).trans ((if_neg (by simp [hok])).trans
    ((if_neg (by simp [hkey])).trans (if_neg (Bool.eq_false_iff.mp hknown)))))

/-- PROVE of a handshake that waits for it. -/
theorem exec_prove {h : Handshake} (htaken : taken0 s fr 0x22 = true)
    (hfind : s.handshakes.find? (fun h => h.peer = fr.peer && !handshakeOver s h) = some h) (hzero : fr.zeroOk = true) :
    exec (.prove fr) s = .next (if Config.lmsVerify h.key (proveMsg h) fr.payload then
      openSession { s with handshakes := s.handshakes.erase h } fr h
    else proveFailed (answer0 { s with handshakes := s.handshakes.erase h } fr 0x23 9 [])) := by
  refine congrArg Host.Outcome.next ?_
  simp only [htaken, hfind, hzero, Bool.not_true, Bool.true_and, Bool.false_eq_true, if_false]

end

/-! ### The election of an owner -/

theorem electionWinner_singleton {slot : Nat} (h : slot < 8) : electionWinner [slot] = some slot := by
  interval_cases slot <;> rfl

/-- Settles O44: the port, the handshake, the election and the lapse of ownership, each by the case that its conditions name. -/
theorem hostPortAndSessions : Obligations.HostPortAndSessions := by
  intro s fr
  refine ⟨fun hctl => ?dad, fun peer pk hopen hanswers hext hsize => ?answered, fun peer pk h => ?ignored, fun _ => rfl,
    fun htaken hok hkey hslot hhash => ?hello, fun h htaken hfind hzero hproof => ?proved, fun h htaken hfind hzero hproof => ?refused,
    fun i h hget hover => ?timeout, fun hover hclaims => ?none, fun slot f hover hclaims hslot => ?one, fun slot howner hidle => ?lapse⟩
  case dad => exact ⟨congrArg _ (if_neg (not_not.mpr hctl)), congrArg _ (if_neg (not_not.mpr hctl))⟩
  case answered =>
    exact ⟨⟨_, congrArg Host.Outcome.next (sendPacket_of_answers hopen hanswers hext hsize), rfl, rfl⟩,
      ⟨_, congrArg Host.Outcome.next (sendPacket_of_answers hopen hanswers hext hsize), rfl, rfl⟩⟩
  case ignored => exact ⟨congrArg Host.Outcome.next (sendPacket_of_not h), congrArg Host.Outcome.next (sendPacket_of_not h)⟩
  case hello =>
    exact ⟨_, _, exec_hello htaken hok hkey hslot hhash, rfl, rfl, rfl, rfl, rfl, rfl, rfl, _, List.mem_cons_self, rfl, rfl, rfl, rfl, rfl⟩
  case proved => exact (exec_prove htaken hfind hzero).trans (congrArg Host.Outcome.next (if_pos hproof))
  case refused => exact (exec_prove htaken hfind hzero).trans (congrArg Host.Outcome.next (if_neg (Bool.eq_false_iff.mp hproof)))
  case timeout =>
    refine congrArg Host.Outcome.next ?_
    simp only [hget, handshakeOver, hover, decide_true, if_true]
  case none =>
    refine congrArg Host.Outcome.next ((if_neg (by simp [hover])).trans ?_)
    simp only [hclaims]
    rfl
  case one =>
    refine congrArg Host.Outcome.next ((if_neg (by simp [hover])).trans ?_)
    simp only [hclaims, List.map_cons, List.map_nil, electionWinner_singleton hslot]
    rfl
  case lapse => exact congrArg Host.Outcome.next (if_pos (by simp [ownerLapsed, howner, hidle]))

/-! ### Load requests -/

section
variable {s t : State} {ctx : Nat} {r : LoadReq}

theorem exec_load (hhead : headReq s ctx = some r) (hopc : r.opc = 1) : exec (.load ctx) s = .next (serveLoad (popReq s ctx) ctx r) := by
  refine congrArg Host.Outcome.next ?_
  simp only [hhead, isLoad, hopc, decide_true, Bool.true_or, if_true]

theorem exec_unload (hhead : headReq s ctx = some r) (hopc : r.opc = 2) : exec (.unload ctx) s = .next (serveUnload (popReq s ctx) ctx r) := by
  refine congrArg Host.Outcome.next ?_
  simp only [hhead, hopc, if_true]

theorem exec_installSupervisor (hhead : headReq s ctx = some r) (hopc : r.opc = 3) :
    exec (.installSupervisor ctx) s = .next (serveSupervisor (popReq s ctx) ctx r) := by
  refine congrArg Host.Outcome.next ?_
  simp only [hhead, hopc, if_true]

theorem exec_setSavePool (hhead : headReq s ctx = some r) (hopc : r.opc = 4) :
    exec (.setSavePool ctx) s = .next (servePool (popReq s ctx) ctx r) := by
  refine congrArg Host.Outcome.next ?_
  simp only [hhead, hopc, if_true]

theorem serveLoad_of_read {bs : List Byte} (hopc : r.opc = 1) (hlen : r.clen < 2 ^ 32)
    (hread : kettleRead t (t.getCtx ctx).asid r.caddr r.clen = some bs) : serveLoad t ctx r =
      if loadReason t ctx r bs = 0 then acceptLoad t ctx r bs else refuseLoad t ctx r bs (loadReason t ctx r bs) := by
  have hform : (decide (r.opc ≠ 1) || decide (2 ^ 32 ≤ r.clen)) = false := by
    rw [Bool.or_eq_false_iff, decide_eq_false_iff_not, decide_eq_false_iff_not]
    exact ⟨not_not.mpr hopc, not_le.mpr hlen⟩
  refine (if_neg (Bool.eq_false_iff.mp hform)).trans ?_
  simp only [hread]

theorem serveLoad_unreadable (hopc : r.opc = 1) (hread : kettleRead t (t.getCtx ctx).asid r.caddr r.clen = none) :
    serveLoad t ctx r = writeResult t (t.getCtx ctx).asid r.res 2 (resultHead (if r.clen < 2 ^ 32 then 9 else 1) 0 0 0 0) [] := by
  by_cases hlen : r.clen < 2 ^ 32
  · have hform : (decide (r.opc ≠ 1) || decide (2 ^ 32 ≤ r.clen)) = false := by
      rw [Bool.or_eq_false_iff, decide_eq_false_iff_not, decide_eq_false_iff_not]
      exact ⟨not_not.mpr hopc, not_le.mpr hlen⟩
    rw [if_pos hlen]
    refine (if_neg (Bool.eq_false_iff.mp hform)).trans ?_
    simp only [hread]
  · have hform : (decide (r.opc ≠ 1) || decide (2 ^ 32 ≤ r.clen)) = true := by
      rw [Bool.or_eq_true, decide_eq_true_eq, decide_eq_true_eq]
      exact .inr (not_lt.mp hlen)
    rw [if_neg hlen]
    exact if_pos hform

theorem supervisor_of_load (c : Ctx) (id : Nat) : (c.tvec.isSome && decide (c.superLoad = id)) = true ↔ c.tvec ≠ none ∧ c.superLoad = id := by
  rw [Bool.and_eq_true, decide_eq_true_eq, Option.isSome_iff_ne_none]

/-- UNLOAD of a load that is in use, or whose supervisor is (R397, R398). -/
theorem serveUnload_of_used {L : LoadRec} (hload : loadOf t ctx r.loadId = some L)
    (hused : sectionsUsed t ctx L = true ∨
      ((t.getCtx ctx).tvec ≠ none ∧ (t.getCtx ctx).superLoad = r.loadId) ∧ ctxBusy t ctx = true) :
    serveUnload t ctx r = writeResult t (t.getCtx ctx).asid r.res 4 (resultHead 0x0B r.loadId 0 0 0) [] := by
  rw [← supervisor_of_load] at hused
  simp only [serveUnload, hload]
  refine if_pos ?_
  rw [Bool.or_eq_true, Bool.and_eq_true]
  exact hused

theorem serveUnload_of_unused {L : LoadRec} (hload : loadOf t ctx r.loadId = some L) (hfree : sectionsUsed t ctx L = false)
    (hsuper : ¬ (((t.getCtx ctx).tvec ≠ none ∧ (t.getCtx ctx).superLoad = r.loadId) ∧ ctxBusy t ctx = true)) :
    serveUnload t ctx r = writeResult (t.modCtx ctx (fun c =>
      let ls := c.loads.filter (fun x => x.id ≠ r.loadId)
      let d : Ctx := { c with loads := ls, compat := c.compat && ls ≠ [] }
      if (t.getCtx ctx).tvec ≠ none ∧ (t.getCtx ctx).superLoad = r.loadId then { d with tvec := none, tvecLen := 0, superLoad := 0 }
      else d)) (t.getCtx ctx).asid r.res 3 (resultHead 0 r.loadId 0 0 0) [] := by
  have hunused : (sectionsUsed t ctx L || (((t.getCtx ctx).tvec.isSome && decide ((t.getCtx ctx).superLoad = r.loadId)) && ctxBusy t ctx)) =
      false := by
    rw [hfree, Bool.false_or, Bool.and_eq_false_imp, supervisor_of_load]
    exact fun h => Bool.eq_false_iff.mpr fun hbusy => hsuper ⟨h, hbusy⟩
  simp only [serveUnload, hload, hunused, Bool.false_eq_true, if_false]
  by_cases hs : (t.getCtx ctx).tvec ≠ none ∧ (t.getCtx ctx).superLoad = r.loadId
  · simp only [if_pos hs, (supervisor_of_load _ _).mpr hs, if_true]
  · simp only [if_neg hs, mt (supervisor_of_load _ _).mp hs, Bool.false_eq_true, if_false]

end

/-- Settles O45: the request stands first, and each of its outcomes by the checks that lead to it. -/
theorem loadRequests : Obligations.LoadRequests := by
  intro s ctx r
  refine ⟨fun hhead => ⟨fun bs hopc hlen => ?load, fun hopc hread => ?unreadable, fun L hopc => ?unload,
    fun L k hopc hload hkernel hform hidle => ?supervisor, fun hopc hbase hlen hmin hpages hidle => ?pool⟩,
    fun load kix L k res hload hkernel hform => ?translation⟩
  case load =>
    intro t why hread
    rw [exec_load hhead hopc, serveLoad_of_read hopc hlen hread]
    exact ⟨fun hgood => congrArg _ (if_pos hgood), fun hbad => congrArg _ (if_neg hbad)⟩
  case unreadable => rw [exec_load hhead hopc, serveLoad_unreadable hopc hread]
  case unload =>
    intro t c super hload
    rw [exec_unload hhead hopc]
    exact ⟨fun hfree hsuper => congrArg _ (serveUnload_of_unused hload hfree hsuper),
      fun hused => congrArg _ (serveUnload_of_used hload hused)⟩
  case supervisor =>
    refine (exec_installSupervisor hhead hopc).trans (congrArg Host.Outcome.next ?_)
    simp only [serveSupervisor, hload, Option.bind_some, hkernel, hform, hidle, ne_eq, not_true, Bool.false_eq_true, if_false]
  case pool =>
    refine (exec_setSavePool hhead hopc).trans (congrArg Host.Outcome.next ?_)
    simp only [servePool, hbase, hlen, hmin, hpages, hidle, decide_true, Bool.and_true, Bool.not_true, Bool.false_eq_true, if_false]
  case translation =>
    refine congrArg Host.Outcome.next ?_
    simp only [hload, hkernel, hform, if_true]

end Sys2Proof.Machine
end

section
/-!
The supply, links and hold (R507 to R512); reset, the self-test, the shock sensor and alarms (R516, R522, R525, R526).
-/

namespace Sys2Proof.Machine

open Sys2Proof

/-! ### The supply, links and hold -/

/-- Settles O46: each event by the case that its conditions name. -/
theorem supplyAndLinks : Obligations.SupplyAndLinks := by
  intro s
  refine ⟨fun l hruns hlow hmax => congrArg _ (if_pos ?droop), fun hruns hlow => congrArg _ (if_pos ?recovery), fun hruns => ?entry,
    fun since n hhold => ?exit, fun hpower => ?fail, fun n hlink hlanes => congrArg _ (if_neg ?retrain),
    fun n lanes hlink hretraining hruns => congrArg _ (if_neg ?retrained)⟩
  case droop => simp [hruns, hlow, hmax]
  case recovery => simp [hruns, hlow]
  case entry => exact ⟨_, congrArg Host.Outcome.next (if_neg (by simp [hruns])), rfl⟩
  case exit =>
    refine congrArg Host.Outcome.next ?_
    simp only [hhold]
  case fail => exact ⟨_, congrArg Host.Outcome.next (if_neg hpower), rfl, rfl, rfl, rfl, rfl, rfl, rfl, rfl⟩
  case retrain => simp [hlink, hlanes]
  case retrained => simp [hlink, hretraining, hruns]

/-! ### Reset and the self-test -/

theorem writeRecord_of_no_ctx {s : State} {r : ErrRec} (h : r.ctx = none) : writeRecord s r = writePlog s r := by
  simp only [writeRecord, h]

theorem startAddress_keeps (s : State) : (startAddress s).power = s.power ∧ (startAddress s).stpass = s.stpass ∧
    (startAddress s).held = s.held ∧ (startAddress s).pkgid = s.pkgid := by
  unfold startAddress
  dsimp only
  split <;> exact ⟨rfl, rfl, rfl, rfl⟩

/-- The device runs after its self-test, once the test has been recorded where it was a full one. -/
def ranTest (s : State) (full otherFail : Bool) : State :=
  let v := testVerdict s (!otherFail) otherFail
  enterRunning (if full then writeRecord (clearRequest v) (testRecord (!otherFail) otherFail) else v)

theorem exec_selfTestComplete {s : State} {full : Bool} (otherFail : Bool) (h : s.power = .booting full) :
    exec (.selfTestComplete [] otherFail) s = .next
      (if (ranTest s full otherFail).nv.ipSet then startAddress (ranTest s full otherFail) else ranTest s full otherFail) := by
  refine congrArg Host.Outcome.next ?_
  simp only [h]
  rfl

theorem ranTest_fields (s : State) (full otherFail : Bool) : (ranTest s full otherFail).power = .running ∧
    (ranTest s full otherFail).stpass = !otherFail ∧ (ranTest s full otherFail).held = otherFail ∧
    (ranTest s full otherFail).pkgid = s.pkgidNew := by
  have hrecord : ∀ v, writeRecord v (testRecord (!otherFail) otherFail) = writePlog v (testRecord (!otherFail) otherFail) :=
    fun v => writeRecord_of_no_ctx rfl
  simp only [ranTest, hrecord]
  cases full <;> cases otherFail <;> exact ⟨rfl, rfl, rfl, rfl⟩

/-- A self-test with no failing core: the package runs, under the PKGID last written; another failure holds it (R516). -/
theorem selfTestComplete_fields {s : State} {full : Bool} (otherFail : Bool) (h : s.power = .booting full) :
    ∃ t, exec (.selfTestComplete [] otherFail) s = .next t ∧ t.power = .running ∧ t.stpass = !otherFail ∧ t.held = otherFail ∧
      t.pkgid = s.pkgidNew := by
  refine ⟨_, exec_selfTestComplete otherFail h, ?_⟩
  split
  · obtain ⟨hpower, hpass, hheld, hpkg⟩ := startAddress_keeps (ranTest s full otherFail)
    rw [hpower, hpass, hheld, hpkg]
    exact ranTest_fields s full otherFail
  · exact ranTest_fields s full otherFail

/-! ### Alarms -/

theorem setOwner_none (s : State) : (setOwner s none).owner = none ∧ (setOwner s none).sessions = s.sessions := by
  unfold setOwner
  split
  · next h => exact ⟨h, rfl⟩
  · dsimp only
    rw [writeRecord_of_no_ctx rfl]
    exact ⟨rfl, rfl⟩

theorem find?_filter_of_neg {α : Type} (m : Sparse α) {p : Nat × α → Bool} {k : Nat} (h : ∀ x, p (k, x) = false) :
    Sparse.find? (m.filter p) k = none := by
  cases hfind : Sparse.find? (m.filter p) k with
  | none => rfl
  | some x =>
    have hmem := (List.mem_filter.mp (Sparse.mem_of_find? _ hfind)).2
    rw [h x] at hmem
    cases hmem

/-- The memory of the package reads as zero once it is wiped (R526). -/
theorem memByte_wipeMemory {s : State} {a : Nat} (hpkg : paPkg a = s.pkgid) (hhbm : inHBM (paLocal a) = true) :
    memByte (wipeMemory s) a = 0 := by
  have hlocal : inHub (paLocal a) = false := by
    rw [inHBM, decide_eq_true_eq] at hhbm
    exact decide_eq_false (by unfold hubBase; omega)
  have hown : ownHub (wipeMemory s) a = false := by rw [ownHub, hlocal, Bool.and_false]
  have hgone : Sparse.find? (wipeMemory s).mem a = none := find?_filter_of_neg s.mem fun x => by simp [hpkg, hhbm]
  simp only [memByte, hown, Sparse.get, hgone, Bool.false_eq_true, if_false]
  rfl

theorem endAll_ends (s : State) : (endAll s).sessions = [] ∧ (endAll s).owner = none := by
  unfold endAll
  exact (setOwner_none _).symm

/-- The device before an alarm wipes its memory: every session is closed, and the attestation key is gone. -/
def disarmed (s : State) : State :=
  let t := endAll (keepRecord s (hubEvent .alarm 2 7))
  { t with handshakes := [], nv := { t.nv with attKey := false } }

theorem alarm_three (s : State) : alarm s 3 = wipeMemory (disarmed s) := by
  unfold alarm disarmed
  rfl

/-- What an alarm that erases the device leaves (R526). -/
theorem alarm_erases (s : State) : (alarm s 3).sessions = [] ∧ (alarm s 3).owner = none ∧ (alarm s 3).nv.attKey = false ∧
    ∀ a, paPkg a = (alarm s 3).pkgid → inHBM (paLocal a) = true → memByte (alarm s 3) a = 0 := by
  obtain ⟨hsessions, howner⟩ := endAll_ends (keepRecord s (hubEvent .alarm 2 7))
  rw [alarm_three]
  exact ⟨hsessions, howner, rfl, fun a => memByte_wipeMemory (s := disarmed s)⟩

/-- Settles O47: reset by what the image is, the self-test by its verdict, and the alarms by their policy. -/
theorem resetAndAlarms : Obligations.ResetAndAlarms := by
  intro s
  refine ⟨fun hrefused => ?refused, fun haccepted => ?accepted, fun full hboot => ?passed, fun full hboot => ?failed, rfl,
    fun hpower => congrArg _ (if_neg hpower), fun hpower => congrArg _ (if_neg hpower), fun t hpower hpolicy ht => ?erased⟩
  case refused => exact ⟨_, congrArg Host.Outcome.next (if_pos (by simp [hrefused])), rfl⟩
  case accepted =>
    obtain ⟨t, ht, hpower, hcyc, hctxs, hlaunches, -, -, hsessions, -, -, hmask, hepoch, hpodid, hheld⟩ := deviceReset_accepted haccepted
    exact ⟨t, ht, hpower, hcyc, hctxs, hlaunches, hsessions, hmask, hepoch, hpodid, hheld⟩
  case passed =>
    obtain ⟨t, ht, hpower, hpass, hheld, hpkg⟩ := selfTestComplete_fields false hboot
    exact ⟨t, ht, hpower, hpass, hheld, hpkg⟩
  case failed =>
    obtain ⟨t, ht, hpower, hpass, hheld, -⟩ := selfTestComplete_fields true hboot
    exact ⟨t, ht, hpower, hpass, hheld⟩
  case erased =>
    have halarm : exec .tamperAlarm s = .next (alarm s (alarmPolicy 2)) := congrArg _ (if_neg hpower)
    obtain rfl := Host.Outcome.next.inj (halarm.symm.trans ht)
    rw [hpolicy]
    exact alarm_erases s

end Sys2Proof.Machine
end

section
/-!
What a step of a running package does: the choice of a warp and its entry, and the instruction that its bytes decode to (R39, R42,
R191, R192, R402, R448).
-/

namespace Sys2Proof.Machine

open Sys2Proof

/-! ### The choice -/

/-- What a fold that keeps its value or takes the next element ends with is an element of the list. -/
theorem mem_of_foldl_choice {α : Type} {g : Option α → α → Option α} (hg : ∀ a x r, g a x = some r → a = some r ∨ r = x) (xs : List α)
    (a : Option α) {r : α} (h : xs.foldl g a = some r) : a = some r ∨ r ∈ xs := by
  induction xs generalizing a with
  | nil => exact .inl h
  | cons x xs ih =>
    obtain h | h := ih _ h
    · exact (hg a x r h).imp_right fun hr => List.mem_cons.mpr (.inl hr)
    · exact .inr (List.mem_cons_of_mem _ h)

theorem mem_readyWarps_of_pick {s : State} {r : Ready} (h : pick s = some r) : r ∈ readyWarps s := by
  unfold pick at h
  refine (mem_of_foldl_choice (fun a x r hr => ?_) (chosenWarps s) none h).elim nofun List.mem_of_mem_filter
  cases a with
  | none => exact .inr (Option.some.inj hr).symm
  | some y =>
    dsimp only at hr
    split at hr
    · exact .inr (Option.some.inj hr).symm
    · exact .inl hr

/-- The entry that a warp chooses is one of its table, with what it has to do. -/
theorem mem_of_chooseEntry {s : State} {wg w : Nat} {x : Warp} {e : Entry} {t : Todo} (h : chooseEntry s wg w x = some (e, t)) :
    e ∈ x.table ∧ todo s wg w x e = some t := by
  have hready : ∀ r ∈ x.table.filterMap (fun e => (todo s wg w x e).map (fun t => (e, t))), r.1 ∈ x.table ∧ todo s wg w x r.1 = some r.2 := by
    intro r hr
    obtain ⟨e, he, hmap⟩ := List.mem_filterMap.mp hr
    obtain ⟨t, ht, rfl⟩ := Option.map_eq_some_iff.mp hmap
    exact ⟨he, ht⟩
  unfold chooseEntry at h
  split at h
  · cases h
  · simp only [Option.or_eq_some_iff] at h
    obtain h | ⟨-, h | ⟨-, h⟩⟩ := h
    · exact hready _ (List.mem_of_find?_eq_some h)
    · exact hready _ (List.mem_of_find?_eq_some h)
    · exact hready _ (List.mem_of_mem_head? h)

theorem warpKey_div_mod (k : Nat) : warpKey (k / 32) (k % 32) = k := Nat.div_add_mod k 32

/-- The warp that goes first stands in the machine, and its entry in the warp's table. -/
theorem exists_warp_of_pick {s : State} {r : Ready} (h : pick s = some r) :
    ∃ x, (warpKey r.wg r.warp, x) ∈ s.warps ∧ r.entry ∈ x.table ∧ todo s r.wg r.warp x r.entry = some r.todo := by
  obtain ⟨y, hy, hmap⟩ := List.mem_filterMap.mp (mem_readyWarps_of_pick h)
  dsimp only at hmap
  split at hmap
  · cases hmap
  · obtain ⟨⟨e, t⟩, hchoice, rfl⟩ := Option.map_eq_some_iff.mp hmap
    obtain ⟨he, ht⟩ := mem_of_chooseEntry hchoice
    exact ⟨y.2, by rw [warpKey_div_mod]; exact hy, he, ht⟩

/-! ### What the chosen entry does -/

theorem step_atIssue {s : State} {r : Ready} (h : Claim.atIssue s r) : step s = perform s r := by
  obtain ⟨hpower, houtside, hdue, hcoll, hpick⟩ := h
  simp only [step, hpower, stepRunning, houtside, hdue, hcoll, hpick]

section
variable {s : State} {wg w : Nat} {x : Warp} {e : Entry} {l : ICLine} {t : Todo}

/-- An entry that is ready is awake, and does not stand stopped. -/
theorem todo_guard (h : todo s wg w x e = some t) : (!e.awake s || (x.yp && !x.modeS && e.stopped && e.mayStop x)) = false := by
  rw [Bool.eq_false_iff]
  intro hguard
  simp only [todo, hguard, if_true] at h
  cases h

theorem todo_absent (h : todo s wg w x e = some t) (hline : icLine s (s.getWg wg).core (s.wgAsid wg) e.pc.toNat x.modeS = none) :
    t = .fill e.pc.toNat := by
  simp only [todo, todo_guard h, hline, Bool.false_eq_true, if_false] at h
  exact (Option.some.inj h).symm

section
variable (h : todo s wg w x e = some t) (hline : icLine s (s.getWg wg).core (s.wgAsid wg) e.pc.toNat x.modeS = some l)
  (hfault : l.fault = 0) (hpoison : l.poison = false)
include h hline hfault hpoison

theorem todoNative_of_todo (hqpf : runsQpf s wg x.modeS = false) : todoNative s wg w x e l = some t := by
  have hguard := todo_guard h
  simpa only [todo, hguard, hline, hfault, hpoison, hqpf, ne_eq, not_true, Bool.false_eq_true, if_false] using h

theorem todoPortable_of_todo (hqpf : runsQpf s wg x.modeS = true) : todoPortable s wg w x e l = some t := by
  have hguard := todo_guard h
  simpa only [todo, hguard, hline, hfault, hpoison, hqpf, ne_eq, not_true, Bool.false_eq_true, if_false, if_true] using h

end

/-- Bytes that decode hold a canonical word, whose OP and FN select the instruction with its fields. -/
theorem exists_word_of_decodeBytes {bs : List Byte} {i : Instr} {n : Nat} {f : Fields} (h : decodeBytes bs = .ok (i, n))
    (hfields : i.fields = some f) :
    ∃ y, expandForm bs = some (y, n) ∧ selectInstr (wordOp y) (wordFn y) (fieldsOf y) = some i ∧ fieldsOf y = f := by
  unfold decodeBytes at h
  split at h
  · cases h
  next y m hexpand =>
  split at h
  next j hword =>
    cases h
    obtain ⟨-, hrow, -⟩ := inRow_of_decodeWord hword
    refine ⟨y, hexpand, ?_, Option.some.inj (hrow.symm.trans hfields)⟩
    unfold decodeWord at hword
    split at hword
    next hselect => rw [hselect, Except.ok.inj hword]
    · cases hword
  · cases h

theorem selectInstr_of_reserved {y : CWord} {op fn : Nat} (h : decodeWord y = .error (.reservedOpFn op fn)) :
    selectInstr (wordOp y) (wordFn y) (fieldsOf y) = none ∧ wordOp y = op ∧ wordFn y = fn := by
  unfold decodeWord at h
  split at h
  · cases h
  next hselect =>
    cases h
    exact ⟨hselect, rfl, rfl⟩

/-- A ready entry of native code runs what its bytes decode to. -/
theorem todo_of_decoded {fs : List Nat} {i : Instr} {n : Nat} {f : Fields} (h : todoNative s wg w x e l = some t)
    (hforms : bundleForms l.bytes = some fs) (hstart : e.pc.toNat % 64 ∈ fs)
    (hdecode : decodeBytes (l.bytes.drop (e.pc.toNat % 64)) = .ok (i, n)) (hfields : i.fields = some f)
    (hstops : stopsHere x e f.sp = false) :
    t = .run i (nextInBundle l.bytes (e.pc.toNat / 64 * 64) (e.pc.toNat % 64)) (e.pc.toNat / 64 * 64) := by
  obtain ⟨y, hexpand, hselect, rfl⟩ := exists_word_of_decodeBytes hdecode hfields
  simp only [todoNative, hforms, List.contains_iff_mem.mpr hstart, hexpand, hstops, hselect, Bool.not_true, Bool.false_eq_true, if_false] at h
  split at h
  · exact (Option.some.inj h).symm
  · cases h

/-- A ready entry at a word of a reserved OP and FN traps (R448). -/
theorem todo_of_reserved {fs : List Nat} {y : CWord} {n op fn : Nat} (h : todoNative s wg w x e l = some t)
    (hforms : bundleForms l.bytes = some fs) (hstart : e.pc.toNat % 64 ∈ fs)
    (hexpand : expandForm (l.bytes.drop (e.pc.toNat % 64)) = some (y, n)) (hword : decodeWord y = .error (.reservedOpFn op fn))
    (hstops : stopsHere x e (fieldsOf y).sp = false) :
    t = wordTrap x (fieldsOf y) op fn e.mask 1 .whole 0 := by
  obtain ⟨hselect, rfl, rfl⟩ := selectInstr_of_reserved hword
  simp only [todoNative, hforms, List.contains_iff_mem.mpr hstart, hexpand, hstops, hselect, Bool.not_true, Bool.false_eq_true, if_false] at h
  split at h
  · exact (Option.some.inj h).symm
  · cases h

/-- A ready entry of QPF code issues what its word means (R402). -/
theorem todo_of_portable {i : Instr} (h : todoPortable s wg w x e l = some t)
    (hstart : (e.pc.toNat - (sectionOf s wg x.modeS).1) % 16 = 0)
    (hstops : stopsHere x e (isBackTarget s wg (e.pc.toNat - (sectionOf s wg x.modeS).1)) = false)
    (hinstr : (qpfForm (l.bytes.drop (e.pc.toNat % 64))).instr = some i) (hgood : (qpfForm (l.bytes.drop (e.pc.toNat % 64))).fails = []) :
    t = .run i (e.pc.toNat + 16) e.pc.toNat := by
  simp only [todoPortable, hstart, hstops, hinstr, hgood, ne_eq, not_true, Bool.false_eq_true, if_false] at h
  split at h
  · exact (Option.some.inj h).symm
  · cases h

end

/-! ### One ready warp -/

/-- The one entry of a warp, ready, is the one that it chooses. -/
theorem chooseEntry_singleton {s : State} {wg w : Nat} {x : Warp} {e : Entry} {t : Todo} (htable : x.table = [e])
    (hreport : nextReport x (fun _ => true) = none) (htodo : todo s wg w x e = some t) : chooseEntry s wg w x = some (e, t) := by
  simp only [chooseEntry, hreport, htable, List.filterMap_cons, List.filterMap_nil, htodo, Option.map_some, Option.isSome_none,
    Bool.false_eq_true, if_false]
  cases hover : e.overdue with
  | true => simp [hover]
  | false =>
    cases hyield : e.yielded with
    | true => simp [hover, hyield]
    | false => simp [hover, hyield]

theorem Ready.before_self (r : Ready) : r.before r = false := by
  simp [Ready.before]

theorem pick_of_readyWarps_singleton {s : State} {r : Ready} (h : readyWarps s = [r]) : pick s = some r := by
  have hchosen : chosenWarps s = [r] := by simp [chosenWarps, h, Ready.before_self]
  simp only [pick, hchosen, List.foldl_cons, List.foldl_nil]

/-- Settles O51: the entry that goes first is ready, and what is ready to be done is done. -/
theorem stepRunsDecoded : Obligations.StepRunsDecoded := by
  refine ⟨fun s r hissue => ?step, fun s wg w x e t hw hwarps htable halive hheld hserved hreport htodo => ?one⟩
  case step =>
    have hstep := step_atIssue hissue
    obtain ⟨-, -, -, -, hpick⟩ := hissue
    refine ⟨exists_warp_of_pick hpick, fun x l fs hfetched hqpf hforms hstart => ?native,
      fun x l i hfetched hqpf hstart hstops hinstr hgood => ?portable, fun x htodo hline => ?absent⟩
    case native =>
      obtain ⟨htodo, hline, hfault, hpoison⟩ := hfetched
      have hnative := todoNative_of_todo htodo hline hfault hpoison hqpf
      intro pc
      refine ⟨fun i n f hdecode hfields hstops => ?_, fun y n op fn hexpand hword hstops =>
        ⟨laneSet (guarded x (fieldsOf y) r.entry.mask), ?_⟩⟩
      · rw [hstep, perform, todo_of_decoded hnative hforms hstart hdecode hfields hstops]
      · rw [hstep, perform, todo_of_reserved hnative hforms hstart hexpand hword hstops]
        rfl
    case portable =>
      obtain ⟨htodo, hline, hfault, hpoison⟩ := hfetched
      rw [hstep, perform, todo_of_portable (todoPortable_of_todo htodo hline hfault hpoison hqpf) hstart hstops hinstr hgood]
    case absent => rw [hstep, perform, todo_absent htodo hline]
  case one =>
    have hgroup : warpKey wg w / 32 = wg := by unfold warpKey; omega
    have hwarp : warpKey wg w % 32 = w := by unfold warpKey; omega
    have hready : readyWarps s = [{ wg := wg, warp := w, part := partOf s wg x, skip := x.skip, last := x.lastIssue, slot := x.slot
                                    entry := e, todo := t }] := by
      have hchoice := chooseEntry_singleton htable hreport htodo
      simp [readyWarps, hwarps, hgroup, hwarp, halive, hheld, hserved, hchoice]
    exact ⟨_, pick_of_readyWarps_singleton hready, rfl, rfl, rfl, rfl⟩

end Sys2Proof.Machine
end
